-- ==== Sys2Proof/Word.lean ====
section
/-! DEFINITION. The word types of the S480 and their plainest arithmetic (spec/00_scope.md R3, R6, R9). -/

namespace Sys2Proof

/-- One byte of memory, of a packet or of a dictionary value. -/
abbrev Byte := BitVec 8

/-- A GEID names one module of a machine (R313): 20 bits. -/
abbrev Geid := BitVec 20

/-- An IEEE 754 binary32 bit pattern. -/
abbrev F32 := BitVec 32

/-- Package-wide part numbers (R9). -/
abbrev CoreId := Fin 256
abbrev ClusterId := Fin 32
abbrev CisternId := Fin 32
abbrev PortId := Fin 32
abbrev HdieId := Fin 2

/-- PCIe functions (R381): 0 the physical function, 1 to 8 virtual functions 0 to 7. -/
abbrev FunctionId := Fin 9

/-- Submission and completion queue numbers (R374). -/
abbrev QueueId := Fin 1024

end Sys2Proof
end

