-- ==== Sys2Proof/Syntax.lean ====
section
/-! DEFINITION. The commands of the S480 as one inductive, `Instr`: one constructor for each row of
spec/opcode_table.json. The operands are what comes from outside the module with the command. What the module
itself holds (stroke plans and queue commands in memory, descriptors, packets held) is read from the state. -/

namespace Sys2Proof

/-- What the management port sees of a frame before its request (R364, R365). An address is read as one number, its first octet
the most significant. -/
structure MacFrame where
  src : BitVec 48
  dst : BitVec 48
  etherType : BitVec 16
  header : BitVec 32
deriving DecidableEq, Repr

/-- The paths of a dictionary request (R361). -/
inductive Path where
  | pf                                     -- the physical function's mailbox
  | vf (v : Fin 8)                         -- virtual function v's mailbox
  | mgmt (f : MacFrame)                    -- the management port
  | fabric (src : Geid) (header : BitVec 32) -- the fabric, from a source GEID; the frame header of R365
deriving DecidableEq, Repr

/-- One step of an adder or a multiplier as its residue checker sees it (R67): operands and result as unsigned patterns,
`w` bits wide in an adder, with its carry-out. -/
inductive ArithStep where
  | add (w a b s : Nat) (carry : Bool)
  | sub (w a b s : Nat) (carry : Bool)
  | mul (a b p : Nat)
deriving DecidableEq, Repr

/-- A step that a checker sees in the work of one item (a token, a record or a block, by its number). -/
structure StepSeen where
  item : Nat
  step : ArithStep
deriving DecidableEq, Repr

/-- What the checkers of an engine see when one of its operations finishes (R67, R68, R412). -/
inductive EngineCheck where
  | clean
  | arith (step : ArithStep)
  | controlParity
deriving DecidableEq, Repr

/-- What the code of a line finds while it is read: the symbol code of a cistern line (R406), the word code of a well line
(R104). One error corrected, or uncorrectable. `line` is the device address divided by 64. -/
structure EccFinding where
  line : Nat
  uncorrectable : Bool
deriving DecidableEq, Repr

/-- How an engine operation finished: what the checkers saw (R67, R412), and what reading its well lines found (R104). -/
structure OpSeen where
  check : EngineCheck
  ecc : List EccFinding
deriving DecidableEq, Repr

/-- How a stream completed: its channel's parity (R412), and the pool manager's about a bucket it releases (R235). -/
structure StreamSeen where
  controlParity : Bool
  poolParity : Bool
deriving DecidableEq, Repr

/-- What the checkers of a sorter see: tokens whose comparators disagree (R158), steps of tokens' weights (R149). -/
structure SelectSeen where
  disagree : List Nat
  steps : List StepSeen
deriving DecidableEq, Repr

/-- A queue, what the code of the lines that its command reads finds (R104, R406), and the parity of the state that holds the
command, its descriptor and its unit's tables (R412). -/
structure CmdRead where
  q : QueueId
  ecc : List EccFinding
  controlParity : Bool
deriving DecidableEq, Repr

/-- A queue whose command's reads find nothing. -/
def CmdRead.clean (q : QueueId) : CmdRead := ⟨q, [], false⟩

/-- A queue's command, and the steps that the checkers see in its work. -/
structure QueueSeen where
  q : CmdRead
  steps : List StepSeen
deriving DecidableEq, Repr

/-- A core, what the code of the lines that its instruction reads finds (R104, R406), and the cache lines it fetches again
(R408). -/
structure CoreRead where
  core : CoreId
  ecc : List EccFinding
  refetch : Nat
deriving DecidableEq, Repr

/-- A core, and the parity of the handle queue of its instruction (R412). -/
structure HandleSeen where
  core : CoreId
  controlParity : Bool
deriving DecidableEq, Repr

/-- A core, and the pool manager's parity about the bucket of its instruction (R235). -/
structure PoolSeen where
  core : CoreId
  parityError : Bool
deriving DecidableEq, Repr

/-- A unit that the turnover sequencer tells to stop and clear (R413). -/
inductive UnitName where
  | core (c : CoreId)
  | cluster (c : ClusterId)
  | hdie (h : HdieId)
deriving DecidableEq, Repr

/-- The functions that prime by themselves (R384). -/
inductive PrimeFn where
  | mgmt | stroke | security | pcie
  | hdie (h : HdieId)
  | cluster (c : ClusterId)
  | cistern (c : CisternId)
  | port (p : PortId)
deriving DecidableEq, Repr

/-- Kinds of memory requests from another device (R257, R258, R263). Addresses are device addresses. -/
inductive MemReqKind where
  | load (addr : BitVec 41) (bytes : Fin 4097)
  | store (addr : BitVec 41) (data : List Byte) (poison : Bool)
  | atomic (aop : Fin 16) (size64 : Bool) (addr : BitVec 41) (a b : BitVec 64) (seq : BitVec 16)
  | signal (valve : Fin 16384) (k : BitVec 32)
deriving DecidableEq, Repr

/-- A memory request as it reaches the device (R258, R300). -/
structure MemReq where
  src : Geid
  partition : Fin 8
  e2e : BitVec 16
  kind : MemReqKind
deriving DecidableEq, Repr

/-- A memory request, and what the code of the lines that it reads finds (R406). -/
structure MemReqSeen where
  req : MemReq
  ecc : List EccFinding
deriving DecidableEq, Repr

/-- What a MEM_RESP carries (R259, R262, R307). -/
inductive MemRespKind where
  | data (bytes : List Byte) (poison : Bool)   -- load data
  | ack                                        -- a store or signal was accepted
  | old (value : BitVec 64) (poison : Bool)    -- an atomic's old value
  | denied                                     -- REMOTE_ACCESS_DENIED
  | valveDenied                                -- VALVE_ACCESS_FAULT of a remote signal (R232)
  | atomicRefused                              -- ATOMIC_REFUSED (R264)
  | noRoute                                    -- NO_ROUTE (R307)
deriving DecidableEq, Repr

/-- A response: who sent it, and the end-to-end number of the request it answers. -/
structure MemResp where
  src : Geid
  e2e : BitVec 16
  kind : MemRespKind
  ecnEcho : Bool
deriving DecidableEq, Repr

/-- One range of a gateway bulk transfer (R268, R269). -/
structure BulkRange where
  addr : BitVec 41
  data : List Byte
  poison : Bool
deriving DecidableEq, Repr

/-- A gateway bulk transfer as it reaches its target (R269). -/
structure BulkIn where
  src : Geid
  partition : Fin 8
  seq : BitVec 16
  ranges : List BulkRange
deriving DecidableEq, Repr

/-- A Tridal message: the 64-bit header of R171 and what follows it, 16-byte DEMAND entries, 8-byte GRANT
entries, one 64-bit TOTAL word, or ROWS and RETURN_ROWS records, as bytes. `e2e` is its packet's end-to-end number,
`poisoned` the numbers of the records that are poisoned. -/
structure TridalIn where
  header : BitVec 64
  e2e : BitVec 16
  body : List Byte
  poisoned : List Nat
deriving DecidableEq, Repr

/-- A COLLECTIVE packet (R326): its source partition's fabric domain, its 128-bit header and its elements. -/
structure CollIn where
  domain : BitVec 12
  header : BitVec 128
  body : List Byte
deriving DecidableEq, Repr

/-- An UP packet's check: a step of its chunk's sum, and whether its buffer had an uncorrectable error (R329). -/
structure UpSeen where
  step : Option ArithStep
  bufferError : Bool
deriving DecidableEq, Repr

/-- A DOWN packet, and whether its buffer had an uncorrectable error (R329). -/
structure DownIn where
  msg : CollIn
  bufferError : Bool
deriving DecidableEq, Repr

/-- A bulk transfer at the gateway of an H-die (R269). -/
structure BulkAt where
  transfer : BulkIn
  hdie : HdieId
deriving DecidableEq, Repr

/-- A packet at a router (R300). -/
structure Packet where
  header : BitVec 128
  payload : List Byte
deriving DecidableEq, Repr

/-- A packet at a router, and the H-die, if any, whose routing table shows a parity error when its route is read (R412). -/
structure PacketSeen where
  packet : Packet
  tableParity : Option HdieId
deriving DecidableEq, Repr

/-- A frame as a link receives it (R291). -/
structure FrameIn where
  seq : BitVec 16        -- link sequence number
  ack : BitVec 16        -- acknowledgement of the partner's frames
  xoff : BitVec 8        -- one XOFF bit per virtual channel
  crcOk : Bool
  nack : Bool            -- the partner asks for replay from frame `ack`
  data : List Byte       -- packet bytes; a packet may span frames
deriving DecidableEq, Repr

/-- The sensor readings of one thermal sample (R438), in degrees Celsius as FP32: the hottest junction sensor of
each of the six dies, and per cistern the logic die sensor and the hotter DRAM stack sensor. -/
structure Thermal where
  die : List F32
  logic : List F32
  dram : List F32
deriving DecidableEq, Repr

/-- The measurement a power control tick acts on (R430): input voltage and current as FP32, and the draw in watts
that pending work takes at full duty. -/
structure PowerIn where
  volts : F32
  amps : F32
  workWatts : Nat
deriving DecidableEq, Repr

/-- Who repeats a bucket request that was answered POOL_EMPTY (R225). -/
inductive PoolRequester where
  | stream (c : CoreId) (ch : Fin 16)   -- an OUT stream (R206)
  | sequencer (c : CoreId)              -- BUCKET_ALLOC (R236)
  | packer (h : HdieId)                 -- a dispatch packer (R178)
deriving DecidableEq, Repr

/-- A request that was answered POOL_EMPTY, made again (R225, R235). -/
structure PoolRetry where
  who : PoolRequester
  parityError : Bool
deriving DecidableEq, Repr

/-- The commands of the block: the rows of spec/opcode_table.json, in its order. Each comment names the rule that
gives the row its meaning. Operands `p`, `txn`, `data` are a dictionary write's path, transaction number and bytes. -/
inductive Instr where
  /-- DEADLINE: R33. -/
  | deadline
  /-- SKEW_GUARD_END: R34. -/
  | skewGuardEnd
  /-- VERDICTS: R36. -/
  | verdicts
  /-- UNIT_HANG_CHECK: R413: the units that have not reported themselves cleared. -/
  | unitHangCheck (hung : List UnitName)
  /-- TURNOVER_CHANGES: R32. -/
  | turnoverChanges
  /-- REFRESH_BURST_END: R35. -/
  | refreshBurstEnd
  /-- VALVE_COUNT_RESET: R228. -/
  | valveCountReset
  /-- STROKE_START: R22. -/
  | strokeStart
  /-- COUNTER_HOLD_RELEASE: R460. -/
  | counterHoldRelease
  /-- IN_STROKE_REFRESH_SLOT: R30. -/
  | inStrokeRefreshSlot
  /-- REFRESH_SLOT_END: R30. -/
  | refreshSlotEnd
  /-- TIMING_MARKER: R24, R302: the marker received on a port. -/
  | timingMarker (port : PortId) (m : BitVec 256)
  /-- MARKER_SEND: R302. -/
  | markerSend (link : PortId)
  /-- HOLDOVER_TIMEOUT: R26. -/
  | holdoverTimeout
  /-- PERIOD_CHANGE: R29. -/
  | periodChange (p : Path) (txn : BitVec 16) (data : List Byte)
  /-- NOP: R94. -/
  | nop (c : CoreId)
  /-- ARRAY: R89. -/
  | array (c : CoreId)
  /-- COPY: R106. -/
  | copy (c : CoreId)
  /-- ADD: R106. -/
  | add (c : CoreId)
  /-- SUB: R106. -/
  | sub (c : CoreId)
  /-- MUL: R106. -/
  | mul (c : CoreId)
  /-- FMA: R106. -/
  | fma (c : CoreId)
  /-- MIN: R106. -/
  | min (c : CoreId)
  /-- MAX: R106. -/
  | max (c : CoreId)
  /-- CMP_LT: R106. -/
  | cmpLt (c : CoreId)
  /-- SCALE: R106. -/
  | scale (c : CoreId)
  /-- EXP2: R106. -/
  | exp2 (c : CoreId)
  /-- EXP: R106. -/
  | exp (c : CoreId)
  /-- LOG2: R106. -/
  | log2 (c : CoreId)
  /-- LOG: R106. -/
  | log (c : CoreId)
  /-- RCP: R106. -/
  | rcp (c : CoreId)
  /-- SQRT: R106. -/
  | sqrt (c : CoreId)
  /-- RSQRT: R106. -/
  | rsqrt (c : CoreId)
  /-- TANH: R106. -/
  | tanh (c : CoreId)
  /-- SIGMOID: R106. -/
  | sigmoid (c : CoreId)
  /-- RSUM: R106. -/
  | rsum (c : CoreId)
  /-- RMAX: R106. -/
  | rmax (c : CoreId)
  /-- QUANT_MX: R106. -/
  | quantMx (c : CoreId)
  /-- QUANT_FINE: R106. -/
  | quantFine (c : CoreId)
  /-- DEQUANT_MX: R106. -/
  | dequantMx (c : CoreId)
  /-- DEQUANT_FINE: R106. -/
  | dequantFine (c : CoreId)
  /-- GEMM: R118. -/
  | gemm (c : CoreId)
  /-- SPLIT: R133. -/
  | split (c : CoreId)
  /-- ACC_OPEN: R128. -/
  | accOpen (c : CoreId)
  /-- SCATTER: R129. -/
  | scatter (c : CoreId)
  /-- ROWDOT: R134. -/
  | rowdot (c : CoreId)
  /-- ACC_DRAIN: R130. -/
  | accDrain (c : CoreId)
  /-- MERGE: R135. -/
  | merge (c : CoreId)
  /-- START: R197; what the symbol code and the cache parity found (R406, R408). -/
  | start (c : CoreId) (ecc : List EccFinding) (refetch : Nat)
  /-- ARM: R212; R406, R408. -/
  | arm (c : CoreRead)
  /-- RELAY: R202; R406, R408. -/
  | relay (c : CoreRead)
  /-- SIGNAL: R230; R235. -/
  | signal (c : CoreId) (parityError : Bool)
  /-- WAIT: R230; R235. -/
  | wait (c : CoreId) (parityError : Bool)
  /-- WAIT_TAKE: R230; R235. -/
  | waitTake (c : CoreId) (parityError : Bool)
  /-- BUCKET_ALLOC: R225; R235. -/
  | bucketAlloc (c : CoreId) (parityError : Bool)
  /-- BUCKET_ADD: R226; R235. -/
  | bucketAdd (c : PoolSeen)
  /-- BUCKET_RELEASE: R226; R235. -/
  | bucketRelease (c : CoreId) (parityError : Bool)
  /-- QUEUE_PUSH: R236; R412. -/
  | queuePush (c : HandleSeen)
  /-- QUEUE_POP: R236; R412. -/
  | queuePop (c : HandleSeen)
  /-- COMPUTE: R98. -/
  | compute (c : CoreId)
  /-- TRANSFER: R98. -/
  | transfer (c : CoreId)
  /-- PHASE_SWITCH_DONE: R98. -/
  | phaseSwitchDone (c : CoreId)
  /-- END_ITEM: R101. -/
  | endItem (c : CoreId)
  /-- END_PLAN: R95. -/
  | endPlan (c : CoreId)
  /-- ENGINE_OP_FINISHED: R97: the operation in a scoreboard slot. -/
  | engineOpFinished (c : CoreId) (slot : Fin 64) (check : OpSeen)
  /-- ITEM_TAKE: R347: the idle core. -/
  | itemTake (c : CoreId)
  /-- STREAM_COMPLETE: R199. -/
  | streamComplete (c : CoreId) (ch : Fin 16) (seen : StreamSeen)
  /-- POOL_EMPTY_RETRY: R225; R235. -/
  | poolEmptyRetry (r : PoolRetry)
  /-- PLAN: R347, R377: the next command of a queue; R406, R408, R412. -/
  | plan (q : CmdRead) (refetch : Nat)
  /-- SELECT: R141. -/
  | select (q : CmdRead) (seen : SelectSeen)
  /-- ROUND: R166; steps of records' weights (R176). -/
  | round (q : QueueSeen)
  /-- RETURN: R180. -/
  | return_ (q : CmdRead)
  /-- COMBINE: R182. -/
  | combine (q : CmdRead)
  /-- COMBINE_RECORD_START: R183; a step of the record's sums. -/
  | combineRecordStart (cl : ClusterId) (seen : Option ArithStep)
  /-- UPDATE: R272; steps of blocks (R281). -/
  | update (q : CmdRead) (seen : List StepSeen)
  /-- FACTORED_PHASE_START: R279; steps of blocks. -/
  | factoredPhaseStart (q : CmdRead) (seen : List StepSeen)
  /-- ALLSUM: R320. -/
  | allsum (q : CmdRead)
  /-- FETCH_ADD: R263. -/
  | fetchAdd (q : CmdRead)
  /-- SWAP: R263. -/
  | swap (q : CmdRead)
  /-- CMP_SWAP: R263. -/
  | cmpSwap (q : CmdRead)
  /-- MIN_S: R263. -/
  | minS (q : CmdRead)
  /-- MAX_S: R263. -/
  | maxS (q : CmdRead)
  /-- MIN_U: R263. -/
  | minU (q : CmdRead)
  /-- MAX_U: R263. -/
  | maxU (q : CmdRead)
  /-- GROUP_CREATE: R318. -/
  | groupCreate (q : CmdRead)
  /-- GROUP_DESTROY: R318. -/
  | groupDestroy (q : QueueId)
  /-- NOP_COMMAND: R377. -/
  | nopCommand (q : QueueId)
  /-- JOB_START: R378. -/
  | jobStart (q : QueueId)
  /-- JOB_END: R378. -/
  | jobEnd (q : QueueId)
  /-- COMMAND_COMPLETE: R376: the command at a ring index. -/
  | commandComplete (q : QueueId) (index : BitVec 16)
  /-- DEMAND: R171; experts on which the ledger copies disagree (R174). -/
  | demand (m : TridalIn) (disagree : List Nat)
  /-- DEMAND_END: R171; R174. -/
  | demandEnd (m : TridalIn) (disagree : List Nat)
  /-- GRANT: R175. -/
  | grant (m : TridalIn)
  /-- GRANT_END: R175. -/
  | grantEnd (m : TridalIn)
  /-- ROWS: R179. -/
  | rows (m : TridalIn)
  /-- RETURN_ROWS: R181. -/
  | returnRows (m : TridalIn)
  /-- UP: R323, R329. -/
  | up (m : CollIn) (seen : UpSeen)
  /-- DOWN: R323, R329. -/
  | down (m : DownIn)
  /-- POISON_NOTICE: R330. -/
  | poisonNotice (m : CollIn)
  /-- CONFIRM: R327. -/
  | confirm (m : CollIn)
  /-- VERDICT: R327. -/
  | verdict (m : CollIn)
  /-- MEM_REQ: R258; R406. -/
  | memReq (m : MemReqSeen)
  /-- MEM_RESP: R262. -/
  | memResp (m : MemResp)
  /-- BULK: R269. -/
  | bulk (b : BulkAt)
  /-- BULK_ACK: R309. -/
  | bulkAck (src : Geid) (seq : BitVec 16) (denied ecnEcho : Bool)
  /-- CONGESTION: R310. -/
  | congestion (src : Geid)
  /-- PACKET_FORWARD: R303: from a port, or from the device itself. -/
  | packetForward (ingress : Option PortId) (pk : PacketSeen)
  /-- FRAME: R291. -/
  | frame (port : PortId) (f : FrameIn)
  /-- LINK_OFFER: R293. -/
  | linkOffer (port : PortId) (offer : BitVec 128) (rttNs : BitVec 32)
  /-- PORT_DOWN: R296. -/
  | portDown (port : PortId)
  /-- ROUTE_LOAD: R305. -/
  | routeLoad (p : Path) (txn : BitVec 16) (data : List Byte)
  /-- ROUTE_LOAD_DONE: R305. -/
  | routeLoadDone
  /-- EPOCH_CHANGE: R306. -/
  | epochChange (p : Path) (txn : BitVec 16) (data : List Byte)
  /-- DOMAIN_DRAIN: R311. -/
  | domainDrain (p : Path) (txn : BitVec 16) (data : List Byte)
  /-- DRAIN_COMPLETE: R311. -/
  | drainComplete (link : PortId) (domain : BitVec 12)
  /-- DRAIN_TIMEOUT: R311. -/
  | drainTimeout (link : PortId)
  /-- PORT_RETRAIN: R294. -/
  | portRetrain (p : Path) (txn : BitVec 16) (data : List Byte)
  /-- ECN_ECHO_TIMEOUT: R310. -/
  | ecnEchoTimeout (src : Geid)
  /-- ECN_RATE_STEP: R310. -/
  | ecnRateStep
  /-- BULK_TRANSFER_CLOSE: R268. -/
  | bulkTransferClose (h : HdieId) (dest : Geid)
  /-- ATOMIC_RETRANSMIT: R264: the request outstanding to a device under an end-to-end number. -/
  | atomicRetransmit (dest : Geid) (e2e : BitVec 16)
  /-- ATOMIC_REPLY_TIMEOUT: R265: the request outstanding to a device under an end-to-end number. -/
  | atomicReplyTimeout (dest : Geid) (e2e : BitVec 16)
  /-- LOAD_RETRANSMIT: R267: the request outstanding to a device under an end-to-end number. -/
  | loadRetransmit (dest : Geid) (e2e : BitVec 16)
  /-- REQUEST_REPLY_TIMEOUT: R267: the request outstanding to a device under an end-to-end number. -/
  | requestReplyTimeout (dest : Geid) (e2e : BitVec 16)
  /-- TRANSLATION_WALK_DONE: R254. -/
  | translationWalkDone (cl : ClusterId) (ctx : Fin 4096) (va : BitVec 48) (store : Bool)
  /-- PAGE_BROUGHT_IN: R253. -/
  | pageBroughtIn (ctx : Fin 4096) (va : BitVec 48) (hostReadOk : Bool)
  /-- SCRUB: R407: none = clean, some false = one symbol, some true = uncorrectable. -/
  | scrub (ci : CisternId) (found : Option Bool)
  /-- REGULATOR_WINDOW: R336. -/
  | regulatorWindow
  /-- DEFINE: R337. -/
  | define (p : Path) (txn : BitVec 16) (ctx : BitVec 16)
  /-- REMOVE: R349. -/
  | remove (p : Path) (txn : BitVec 16) (ctx : BitVec 16)
  /-- ABORT: R350. -/
  | abort (p : Path) (txn : BitVec 16) (ctx : BitVec 16)
  /-- ABORT_COMPLETE: R350. -/
  | abortComplete (ctx : Fin 4096)
  /-- RESUME: R349. -/
  | resume (p : Path) (txn : BitVec 16) (ctx : BitVec 16)
  /-- SWITCH_OVER_COMPLETE: R344. -/
  | switchOverComplete (cl : ClusterId)
  /-- READ: R360. -/
  | read (p : Path) (h : BitVec 128)
  /-- WRITE: R355. -/
  | write (p : Path) (h : BitVec 128) (data : List Byte)
  /-- DESCRIBE: R360. -/
  | describe (p : Path) (h : BitVec 128)
  /-- MEM_READ: R360; R406. -/
  | memRead (p : Path) (h : BitVec 128) (ecc : List EccFinding)
  /-- MEM_WRITE: R360. -/
  | memWrite (p : Path) (h : BitVec 128) (data : List Byte)
  /-- MGMT_RESPONSE: R367. -/
  | mgmtResponse (src : Geid) (h : BitVec 128) (data : List Byte)
  /-- MBX_REMOTE_RESEND: R367. -/
  | mbxRemoteResend (f : FunctionId)
  /-- SQ_TAIL: R374. -/
  | sqTail (f : FunctionId) (q : QueueId) (v : BitVec 32)
  /-- CQ_HEAD: R379. -/
  | cqHead (f : FunctionId) (q : QueueId) (v : BitVec 32)
  /-- SEQ_DROPS_CLEAR: R190. -/
  | seqDropsClear (p : Path) (txn : BitVec 16) (data : List Byte)
  /-- LOG_CLEAR: R417. -/
  | logClear (domain : Fin 11) (p : Path) (txn : BitVec 16) (data : List Byte)
  /-- LS_CLEAR: R424. -/
  | lsClear (p : Path) (txn : BitVec 16) (data : List Byte)
  /-- LOCKSTEP_SIGNATURES: R421. -/
  | lockstepSignatures (port : PortId) (payload : List Byte)
  /-- HOST_BAR2_READ: R371; R406. -/
  | hostBar2Read (f : FunctionId) (off : BitVec 41) (bytes : Fin 4097) (ecc : List EccFinding)
  /-- HOST_BAR2_WRITE: R371. -/
  | hostBar2Write (f : FunctionId) (off : BitVec 41) (data : List Byte)
  /-- FUNCTION_LEVEL_RESET: R373. -/
  | functionLevelReset (f : FunctionId)
  /-- HOT_RESET: R373. -/
  | hotReset
  /-- PCIE_LINK_LOSS: R373. -/
  | pcieLinkLoss
  /-- PERST_N: R444. -/
  | perstN (level : Bool)
  /-- POWER_ON: R382, R426. -/
  | powerOn (volts : F32)
  /-- MODULE_RESET_N: R444: false once the land has been low for 10 µs, true when it rises. -/
  | moduleResetN (level : Bool)
  /-- DEVICE_RESET: R382. -/
  | deviceReset (p : Path) (txn : BitVec 16) (data : List Byte)
  /-- FULL_RESET: R383. -/
  | fullReset
  /-- RESET_RELEASE: R382. -/
  | resetRelease (straps : Fin 8)
  /-- BOOT_ROM: R391. -/
  | bootRom (readErrorA readErrorB : Bool)
  /-- PRIMING_COMPLETE: R384. -/
  | primingComplete (fn : PrimeFn) (ok : Bool)
  /-- FLASH_READ: R395. -/
  | flashRead (p : Path) (txn : BitVec 16) (data : List Byte)
  /-- FLASH_PROGRAM: R395. -/
  | flashProgram (p : Path) (txn : BitVec 16) (data : List Byte)
  /-- FLASH_ERASE: R395. -/
  | flashErase (p : Path) (txn : BitVec 16) (data : List Byte)
  /-- FLASH_OP_DONE: R395. -/
  | flashOpDone (ok : Bool)
  /-- SVN_ADVANCE: R393. -/
  | svnAdvance (p : Path) (txn : BitVec 16) (data : List Byte)
  /-- KEY_REVOKE: R393. -/
  | keyRevoke (p : Path) (txn : BitVec 16) (data : List Byte)
  /-- BOOT_PREFERENCE: R394. -/
  | bootPreference (p : Path) (txn : BitVec 16) (data : List Byte)
  /-- ATTEST_NONCE: R398. -/
  | attestNonce (p : Path) (txn : BitVec 16) (data : List Byte)
  /-- ATTEST_REPORT_READY: R398. -/
  | attestReportReady
  /-- HEARTBEAT_TIMEOUT: R414. -/
  | heartbeatTimeout (cp : Fin 8)
  /-- POWER_CONTROL_TICK: R430. -/
  | powerControlTick (m : PowerIn)
  /-- SUPPLY_WARNING_EXIT: R426. -/
  | supplyWarningExit
  /-- UNDERVOLTAGE_LOCKOUT: R426. -/
  | undervoltageLockout
  /-- OVERVOLTAGE_LOCKOUT: R426. -/
  | overvoltageLockout
  /-- THERMAL_SAMPLE: R438. -/
  | thermalSample (t : Thermal)
  /-- THERMAL_LIMIT_STEP: R438. -/
  | thermalLimitStep
  /-- COOLANT_SAMPLE: R437. -/
  | coolantSample (inlet outlet flow : F32)
  /-- IDCODE: R450. -/
  | idcode
  /-- SAMPLE_PRELOAD: R450: the lands as sampled and the values shifted in. -/
  | samplePreload (pins preload : List Bool)
  /-- EXTEST: R451. -/
  | extest
  /-- EXTEST_PULSE: R451. -/
  | extestPulse
  /-- EXTEST_TRAIN: R451. -/
  | extestTrain
  /-- CLAMP: R451. -/
  | clamp
  /-- HIGHZ: R451. -/
  | highz
  /-- BYPASS: R450. -/
  | bypass
  /-- MBX_DOORBELL: R363. -/
  | mbxDoorbell (f : FunctionId) (v : BitVec 32)
  /-- PORT_SIGNAL_RETURN: R296. -/
  | portSignalReturn (port : PortId)
  /-- BRIDGE_FLIT_REPLAY: R414: replays of this flit that have failed. -/
  | bridgeFlitReplay (bridge : Fin 14) (failedReplays : Nat)
  /-- UNIT_RESET_DONE: R413. -/
  | unitResetDone (u : UnitName) (cleared : Bool)
  /-- TRST_N: R444. -/
  | trstN (level : Bool)
deriving DecidableEq, Repr

end Sys2Proof
end

