-- ==== Sys2Proof/Decode.lean ====
section
/-! DEFINITION. The word decoder that the host asks for. No row of spec/opcode_table.json carries bits: commands reach the
block as commands, so no word spells one. The envelopes, plan instructions and packet headers that the block itself reads
are decoded where their units read them. -/

namespace Sys2Proof

/-- The command that a word spells by the table's bits: none, as no row has bits. -/
def decodeTableWord (_nbits _w : Nat) : Option Instr := none

end Sys2Proof
end

