-- ==== Sys2Proof/Machine/Bits.lean ====
section
/-! DEFINITION. Bit fields, little-endian bytes and the small list helpers every other file uses
(spec/00_scope.md R3: bit 0 is the least significant bit, multi-byte values are little-endian). -/

namespace Sys2Proof.Machine

/-- NAME[hi:lo] of a word, both bounds inclusive (R3). -/
def fld (w hi lo : Nat) : Nat := (w >>> lo) % 2 ^ (hi + 1 - lo)

/-- One bit of a word. -/
def bit (w n : Nat) : Bool := (w >>> n) % 2 = 1

/-- A Bool as a bit. -/
def b2n (b : Bool) : Nat := if b then 1 else 0

/-- A list of bytes as a little-endian number (R3). -/
def leNat : List Byte → Nat
  | [] => 0
  | b :: bs => b.toNat + 256 * leNat bs

/-- The `n` low bytes of a number, least significant first (R3). -/
def natLe : Nat → Nat → List Byte
  | 0, _ => []
  | n + 1, w => BitVec.ofNat 8 w :: natLe n (w / 256)

/-- A list of bytes as a big-endian number (the key and signature fields of R390 and R400). -/
def beNat (bs : List Byte) : Nat := leNat bs.reverse

/-- Two's complement: the low `n` bits of `w` read as signed. -/
def signed (n w : Nat) : Int :=
  let v := w % 2 ^ n
  if v < 2 ^ (n - 1) then (v : Int) else (v : Int) - (2 ^ n : Nat)

/-- An integer as `n` two's complement bits. -/
def wrapInt (n : Nat) (i : Int) : Nat := (i % ((2 ^ n : Nat) : Int)).toNat

/-- ⌈a ÷ b⌉. -/
def ceilDiv (a b : Nat) : Nat := (a + b - 1) / b

/-- Round up to a multiple of `b`. -/
def alignUp (a b : Nat) : Nat := ceilDiv a b * b

/-- Replace bits hi..lo of a word. -/
def putFld (w hi lo v : Nat) : Nat := w - fld w hi lo * 2 ^ lo + v % 2 ^ (hi + 1 - lo) * 2 ^ lo

/-- `w` with bit `n` set. -/
def setBit (w n : Nat) : Nat := if bit w n then w else w + 2 ^ n

/-- Bitwise or. -/
def lor (a b : Nat) : Nat := a ||| b

/-- The numbers of the set bits of a 32-bit map, lowest first. -/
def bitsOf (n w : Nat) : List Nat := (List.range n).filter fun i => bit w i

/-- Element `i` of a list, or a default. -/
def nth {α : Type} (d : α) (l : List α) (i : Nat) : α := l.getD i d

/-- Replace element `i` of a list. -/
def setNth {α : Type} (l : List α) (i : Nat) (v : α) : List α := l.set i v

/-- Cut a list into pieces of `n` elements (`fuel` bounds the number of pieces). -/
def chunksAux {α : Type} (n : Nat) : Nat → List α → List (List α)
  | 0, _ => []
  | _ + 1, [] => []
  | f + 1, l => l.take n :: chunksAux n f (l.drop n)

/-- Cut a list into pieces of `n` elements, the last one possibly shorter. -/
def chunks {α : Type} (n : Nat) (l : List α) : List (List α) := chunksAux n l.length l

/-- Insert into a list sorted by `lt`, before the first element that `x` is ahead of (R146). -/
def insertBy {α : Type} (ahead : α → α → Bool) (x : α) : List α → List α
  | [] => [x]
  | y :: ys => if ahead x y then x :: y :: ys else y :: insertBy ahead x ys

/-- Sort by insertion. -/
def sortBy {α : Type} (ahead : α → α → Bool) (l : List α) : List α := l.foldl (fun acc x => insertBy ahead x acc) []

/-- No element occurs twice. -/
def nodup {α : Type} [DecidableEq α] : List α → Bool
  | [] => true
  | x :: xs => !(xs.contains x) && nodup xs

/-- Each element once, in order of first occurrence. -/
def dedupe {α : Type} [DecidableEq α] (l : List α) : List α :=
  l.foldl (fun acc x => if acc.contains x then acc else acc ++ [x]) []

/-- The smallest power of two at or above `n`, at most 2^40. -/
def pow2AtLeast (n : Nat) : Nat := ((List.range 41).find? fun k => n ≤ 2 ^ k).elim (2 ^ 40) (2 ^ ·)

/-- Do the byte ranges [a, a+n) and [b, b+m) meet? -/
def overlaps (a n b m : Nat) : Bool := decide (0 < n) && decide (0 < m) && decide (a < b + m) && decide (b < a + n)

end Sys2Proof.Machine
end

