-- ==== Sys2Proof/Machine/Crypto.lean ====
section
/-! DEFINITION. The digest SM3 and the verification of SM2 signatures, which spec/17_priming_security.md R390, R399 and
R400 and spec/18_faults.md R420 use by name. The algorithms are those of GB/T 32905 and GB/T 32918.2 and .5 (PRESUMED,
log entry 10: the spec names the standards and does not repeat them). -/

namespace Sys2Proof.Machine

/-! ### SM3 -/

/-- Rotate a 32-bit word left. -/
def rotl32 (x n : Nat) : Nat := ((x <<< (n % 32)) ||| (x >>> (32 - n % 32))) % 2 ^ 32

def sm3P0 (x : Nat) : Nat := x ^^^ rotl32 x 9 ^^^ rotl32 x 17
def sm3P1 (x : Nat) : Nat := x ^^^ rotl32 x 15 ^^^ rotl32 x 23

/-- The message words, most recent first: `n` more words. -/
def sm3Expand : Nat → List Nat → List Nat
  | 0, w => w
  | n + 1, w =>
    let g := fun i => w.getD (i - 1) 0
    let x := sm3P1 (g 16 ^^^ g 9 ^^^ rotl32 (g 3) 15) ^^^ rotl32 (g 13) 7 ^^^ g 6
    sm3Expand n (x :: w)

/-- The eight working registers A to H. -/
structure Sm3Reg where
  a : Nat
  b : Nat
  c : Nat
  d : Nat
  e : Nat
  f : Nat
  g : Nat
  h : Nat
deriving DecidableEq, Repr

def sm3Iv : Sm3Reg :=
  ⟨0x7380166f, 0x4914b2b9, 0x172442d7, 0xda8a0600, 0xa96f30bc, 0x163138aa, 0xe38dee4d, 0xb0fb0e4e⟩

/-- Round `j` with words W_j and W_(j+4). -/
def sm3Round (j : Nat) (r : Sm3Reg) (w w4 : Nat) : Sm3Reg :=
  let t := if j < 16 then 0x79cc4519 else 0x7a879d8a
  let ss1 := rotl32 ((rotl32 r.a 12 + r.e + rotl32 t j) % 2 ^ 32) 7
  let ss2 := ss1 ^^^ rotl32 r.a 12
  let ff := if j < 16 then r.a ^^^ r.b ^^^ r.c else (r.a &&& r.b) ||| (r.a &&& r.c) ||| (r.b &&& r.c)
  let gg := if j < 16 then r.e ^^^ r.f ^^^ r.g else (r.e &&& r.f) ||| ((0xFFFFFFFF - r.e) &&& r.g)
  let tt1 := (ff + r.d + ss2 + (w ^^^ w4)) % 2 ^ 32
  let tt2 := (gg + r.h + ss1 + w) % 2 ^ 32
  ⟨tt1, r.a, rotl32 r.b 9, r.c, sm3P0 tt2, r.e, rotl32 r.f 19, r.g⟩

/-- The rounds from `j` on over the words that remain. -/
def sm3Rounds : Nat → Nat → Sm3Reg → List Nat → Sm3Reg
  | 0, _, r, _ => r
  | n + 1, j, r, ws => sm3Rounds n (j + 1) (sm3Round j r (ws.getD 0 0) (ws.getD 4 0)) (ws.drop 1)

/-- One 64-byte block. -/
def sm3Block (v : Sm3Reg) (block : List Byte) : Sm3Reg :=
  let w := (chunks 4 block).map beNat
  let ws := (sm3Expand 52 w.reverse).reverse
  let r := sm3Rounds 64 0 v ws
  ⟨r.a ^^^ v.a, r.b ^^^ v.b, r.c ^^^ v.c, r.d ^^^ v.d, r.e ^^^ v.e, r.f ^^^ v.f, r.g ^^^ v.g, r.h ^^^ v.h⟩

/-- A big-endian number of `n` bytes. -/
def natBe (n w : Nat) : List Byte := (natLe n w).reverse

/-- SM3 of a byte string: 32 bytes. -/
def sm3 (m : List Byte) : List Byte :=
  let pad := (119 - m.length % 64) % 64
  let p := m ++ [0x80#8] ++ List.replicate pad 0#8 ++ natBe 8 (8 * m.length)
  let r := (chunks 64 p).foldl sm3Block sm3Iv
  ([r.a, r.b, r.c, r.d, r.e, r.f, r.g, r.h].map (natBe 4)).flatten

/-! ### SM2 -/

def sm2P : Nat := 0xFFFFFFFEFFFFFFFFFFFFFFFFFFFFFFFFFFFFFFFF00000000FFFFFFFFFFFFFFFF
def sm2B : Nat := 0x28E9FA9E9D9F5E344D5A9E4BCF6509A7F39789F515AB8F92DDBCBD414D940E93
def sm2N : Nat := 0xFFFFFFFEFFFFFFFFFFFFFFFFFFFFFFFF7203DF6B21C6052B53BBF40939D54123
def sm2Gx : Nat := 0x32C4AE2C1F1981195F9904466A39C9948FE30BBFF2660BE1715A4589334C74C7
def sm2Gy : Nat := 0xBC3736A2F4F6779C59BDCEE36B692153D0A9877CC62A474002DF32E52139F0A0

/-- x^e mod p by squaring, `n` bits of the exponent. -/
def powMod (p x : Nat) : Nat → Nat → Nat
  | 0, _ => 1
  | n + 1, e =>
    let h := powMod p x n (e / 2)
    let h2 := h * h % p
    if e % 2 = 1 then h2 * x % p else h2

/-- a − b modulo p, for a, b below p. -/
def subMod (p a b : Nat) : Nat := (a + p - b) % p

/-- A point in Jacobian coordinates; z = 0 is the point at infinity. -/
structure EcPoint where
  x : Nat
  y : Nat
  z : Nat
deriving DecidableEq, Repr

def ecDouble (q : EcPoint) : EcPoint :=
  let p := sm2P
  let z2 := q.z * q.z % p
  let m := 3 * (subMod p q.x z2) * ((q.x + z2) % p) % p
  let y2 := q.y * q.y % p
  let s := 4 * q.x * y2 % p
  let x' := subMod p (m * m % p) (2 * s % p)
  let y' := subMod p (m * subMod p s x' % p) (8 * y2 * y2 % p)
  ⟨x', y', 2 * q.y * q.z % p⟩

def ecAdd (q r : EcPoint) : EcPoint :=
  let p := sm2P
  if q.z = 0 then r else if r.z = 0 then q
  else
    let z1 := q.z * q.z % p
    let z2 := r.z * r.z % p
    let u1 := q.x * z2 % p
    let u2 := r.x * z1 % p
    let s1 := q.y * z2 % p * r.z % p
    let s2 := r.y * z1 % p * q.z % p
    if u1 = u2 then (if s1 = s2 then ecDouble q else ⟨1, 1, 0⟩)
    else
      let h := subMod p u2 u1
      let rr := subMod p s2 s1
      let h2 := h * h % p
      let h3 := h2 * h % p
      let x' := subMod p (subMod p (rr * rr % p) h3) (2 * u1 * h2 % p)
      let y' := subMod p (rr * subMod p (u1 * h2 % p) x' % p) (s1 * h3 % p)
      ⟨x', y', h * q.z % p * r.z % p⟩

/-- k × q, `n` bits of k. -/
def ecMul (q : EcPoint) : Nat → Nat → EcPoint
  | 0, _ => ⟨1, 1, 0⟩
  | n + 1, k =>
    let h := ecDouble (ecMul q n (k / 2))
    if k % 2 = 1 then ecAdd h q else h

/-- The affine x coordinate. -/
def ecX (q : EcPoint) : Nat :=
  let i := powMod sm2P q.z 256 (sm2P - 2)
  q.x * (i * i % sm2P) % sm2P

/-- Is (x, y) a point of the curve y² = x³ − 3x + b? -/
def onCurve (x y : Nat) : Bool :=
  decide (x < sm2P) && decide (y < sm2P) && decide (y * y % sm2P = (x * x * x + (sm2P - 3) * x + sm2B) % sm2P)

/-- The digest e of a message under an identifier and a public key. -/
def sm2Digest (ident : List Byte) (x y : Nat) (msg : List Byte) : Nat :=
  let z := sm3 (natBe 2 (8 * ident.length) ++ ident ++ natBe 32 (sm2P - 3) ++ natBe 32 sm2B ++ natBe 32 sm2Gx
    ++ natBe 32 sm2Gy ++ natBe 32 x ++ natBe 32 y)
  beNat (sm3 (z ++ msg))

/-- SM2 verification of a 64-byte signature under a 64-byte public key, both big-endian. -/
def sm2Verify (key ident msg sig : List Byte) : Bool :=
  let x := beNat (key.take 32)
  let y := beNat (key.drop 32)
  let r := beNat (sig.take 32)
  let s := beNat (sig.drop 32)
  let t := (r + s) % sm2N
  let q := ecAdd (ecMul ⟨sm2Gx, sm2Gy, 1⟩ 256 s) (ecMul ⟨x, y, 1⟩ 256 t)
  onCurve x y && decide (1 ≤ r) && decide (r < sm2N) && decide (1 ≤ s) && decide (s < sm2N) && decide (t ≠ 0)
    && decide (q.z ≠ 0) && decide ((sm2Digest ident x y msg + ecX q) % sm2N = r)

end Sys2Proof.Machine
end

