-- ==== Sys2Proof/Machine/Float.lean ====
section
/-! DEFINITION. Number formats and the rounding of every result: spec/03_numerics.md R44 to R57, R64, R66.
A value is held exactly as ± m × 2^e until the one rounding the manual allows. -/

namespace Sys2Proof.Machine

/-! ### Flags (R66) -/

/-- Bits of NUMERIC_FLAGS (R66). -/
def flagNan : Nat := 1
def flagOverflow : Nat := 2
def flagSaturated : Nat := 4
def flagScaleNan : Nat := 8
def flagInvalidConv : Nat := 16
def flagAccTrunc : Nat := 32
def flagResidue : Nat := 64

/-! ### Exact values -/

/-- A number of a floating-point format, exactly: NaN, an infinity, or (−1)^neg × m × 2^e. -/
inductive Fp where
  | nan
  | inf (neg : Bool)
  | fin (neg : Bool) (m : Nat) (e : Int)
deriving DecidableEq, Repr

/-- A floating-point format: exponent and mantissa widths, bias, the largest finite code without its sign (R45), and
the codes of infinity and of the canonical NaN where it has them (R54, R55). -/
structure FFmt where
  expBits : Nat
  manBits : Nat
  bias : Nat
  maxCode : Nat
  infCode : Option Nat
  nanCode : Option Nat
deriving DecidableEq, Repr

def fp32 : FFmt := ⟨8, 23, 127, 0x7F7FFFFF, some 0x7F800000, some 0x7FC00000⟩
def bf16 : FFmt := ⟨8, 7, 127, 0x7F7F, some 0x7F80, some 0x7FC0⟩
def fp16 : FFmt := ⟨5, 10, 15, 0x7BFF, some 0x7C00, some 0x7E00⟩
def e4m3 : FFmt := ⟨4, 3, 7, 0x7E, none, some 0x7F⟩
def e5m2 : FFmt := ⟨5, 2, 15, 0x7B, some 0x7C, some 0x7E⟩
def e3m2 : FFmt := ⟨3, 2, 3, 0x1F, none, none⟩
def e2m3 : FFmt := ⟨2, 3, 1, 0x1F, none, none⟩
def e2m1 : FFmt := ⟨2, 1, 1, 0x7, none, none⟩

/-- Element format codes (R44): the floating-point format of codes 0x0 to 0x7. -/
def ffmtOf (code : Nat) : Option FFmt :=
  match code with
  | 0 => some fp32 | 1 => some bf16 | 2 => some fp16 | 3 => some e4m3
  | 4 => some e5m2 | 5 => some e3m2 | 6 => some e2m3 | 7 => some e2m1
  | _ => none

/-- Bits per element of a format code (R44). -/
def fmtBits (code : Nat) : Nat :=
  match code with
  | 0 => 32 | 1 => 16 | 2 => 16 | 3 => 8 | 4 => 8 | 5 => 6 | 6 => 6 | 7 => 4 | 8 => 8 | 9 => 4 | 10 => 32 | _ => 0

/-- Sign bit of a code of format `f`. -/
def ffSign (f : FFmt) (c : Nat) : Bool := bit c (f.expBits + f.manBits)

/-- A code without its sign. -/
def ffMag (f : FFmt) (c : Nat) : Nat := c % 2 ^ (f.expBits + f.manBits)

/-- Decode a floating-point code (R45). -/
def ffDecode (f : FFmt) (c : Nat) : Fp :=
  let mag := ffMag f c
  let e := mag / 2 ^ f.manBits
  let m := mag % 2 ^ f.manBits
  if mag > f.maxCode then
    (if f.infCode = some mag then .inf (ffSign f c) else .nan)
  else if e = 0 then .fin (ffSign f c) m (1 - f.bias - f.manBits : Int)
  else .fin (ffSign f c) (2 ^ f.manBits + m) ((e : Int) - f.bias - f.manBits)

/-- Attach a sign to a magnitude code. -/
def ffWithSign (f : FFmt) (neg : Bool) (mag : Nat) : Nat := mag + b2n neg * 2 ^ (f.expBits + f.manBits)

/-- How a rounding is made (R53): to nearest even, or stochastically with the 16 random bits `u` (R56). -/
inductive Rounding where
  | nearest
  | stochastic (u : Nat)
deriving DecidableEq, Repr

/-- Does the discarded part `rem` of 2^s, above a kept integer `q`, round away from zero (R53, R56)? -/
def roundsUp (r : Rounding) (q rem s : Nat) : Bool :=
  match r with
  | .nearest => decide (2 * rem > 2 ^ s) || (decide (2 * rem = 2 ^ s) && decide (q % 2 = 1))
  | .stochastic u => decide (u < rem * 2 ^ 16 / 2 ^ s)

/-- m × 2^e as an integer multiple of 2^q, rounded. -/
def quantise (r : Rounding) (m : Nat) (e q : Int) : Nat :=
  if q ≤ e then m * 2 ^ (e - q).toNat
  else
    let s := (q - e).toNat
    let k := m / 2 ^ s
    k + b2n (roundsUp r k (m % 2 ^ s) s)

/-- The exponent of the unit in the last place that m × 2^e has in format `f` (R45: no flush of subnormals, R53). -/
def ulpExp (f : FFmt) (m : Nat) (e : Int) : Int :=
  max (e + Nat.log2 m - f.manBits) (1 - f.bias - f.manBits : Int)

/-- Round a finite value m × 2^e to a magnitude code of `f`, not yet limited to the largest finite code. -/
def roundMag (f : FFmt) (r : Rounding) (m : Nat) (e : Int) : Nat :=
  if m = 0 then 0
  else
    let q := ulpExp f m e
    (q - (1 - f.bias - f.manBits : Int)).toNat * 2 ^ f.manBits + quantise r m e q

/-- Convert an exact value into format `f` (R53, R54, R55): the code and the flags raised. -/
def ffEncode (f : FFmt) (r : Rounding) (v : Fp) : Nat × Nat :=
  match v with
  | .nan =>
    match f.nanCode with
    | some c => (c, flagNan)
    | none => (0, flagInvalidConv + flagNan)
  | .inf neg =>
    match f.infCode with
    | some c => (ffWithSign f neg c, 0)
    | none => (ffWithSign f neg f.maxCode, flagSaturated)
  | .fin neg m e =>
    let c := roundMag f r m e
    if c ≤ f.maxCode then (ffWithSign f neg c, 0)
    else
      match f.infCode with
      | some i => (ffWithSign f neg i, flagOverflow)
      | none => (ffWithSign f neg f.maxCode, flagSaturated)

/-- Range of the integer formats (R46): bits of INT8, INT4, INT32. -/
def intBits (code : Nat) : Option Nat :=
  match code with
  | 8 => some 8 | 9 => some 4 | 10 => some 32 | _ => none

/-- Convert an exact value into a two's complement integer of `n` bits (R54). -/
def intEncode (n : Nat) (r : Rounding) (v : Fp) : Nat × Nat :=
  match v with
  | .nan => (0, flagInvalidConv + flagNan)
  | .inf neg => (wrapInt n (if neg then -(2 ^ (n - 1) : Nat) else (2 ^ (n - 1) : Nat) - 1), flagSaturated)
  | .fin neg m e =>
    let k := quantise r m e 0
    let i : Int := if neg then -(k : Int) else k
    if i < -((2 ^ (n - 1) : Nat) : Int) then (wrapInt n (-((2 ^ (n - 1) : Nat) : Int)), flagSaturated)
    else if ((2 ^ (n - 1) : Nat) : Int) - 1 < i then (wrapInt n (((2 ^ (n - 1) : Nat) : Int) - 1), flagSaturated)
    else (wrapInt n i, 0)

/-- Convert into any format code (R54). -/
def fmtEncode (code : Nat) (r : Rounding) (v : Fp) : Nat × Nat :=
  match ffmtOf code with
  | some f => ffEncode f r v
  | none => match intBits code with
    | some n => intEncode n r v
    | none => (0, 0)

/-- An integer as an exact value. -/
def fpOfInt (i : Int) : Fp := .fin (decide (i < 0)) i.natAbs 0

/-- The exact value of an element code without block scaling (R45, R46). `mx` selects the implicit factor 2^−6 of
an INT8 element under OCP scaling. -/
def fmtDecode (code : Nat) (mx : Bool) (c : Nat) : Fp :=
  match ffmtOf code with
  | some f => ffDecode f c
  | none =>
    match intBits code with
    | some n =>
      let i := signed n c
      .fin (decide (i < 0)) i.natAbs (if mx && code = 8 then -6 else 0)
    | none => .fin false 0 0

/-! ### Exact arithmetic -/

def Fp.isNan : Fp → Bool
  | .nan => true
  | _ => false

def Fp.isInf : Fp → Bool
  | .inf _ => true
  | _ => false

def Fp.isZero : Fp → Bool
  | .fin _ m _ => decide (m = 0)
  | _ => false

def Fp.neg : Fp → Fp
  | .nan => .nan
  | .inf s => .inf (!s)
  | .fin s m e => .fin (!s) m e

/-- Sign of a value; NaN counts as positive. -/
def Fp.sign : Fp → Bool
  | .nan => false
  | .inf s => s
  | .fin s _ _ => s

/-- The signed significand of a finite value at exponent `q ≤ e`. -/
def sigAt (neg : Bool) (m : Nat) (e q : Int) : Int :=
  let k : Int := (m * 2 ^ (e - q).toNat : Nat)
  if neg then -k else k

/-- Exact sum, with the sign of a zero sum of IEEE 754 (R64). -/
def Fp.add : Fp → Fp → Fp
  | .nan, _ => .nan
  | _, .nan => .nan
  | .inf a, .inf b => if a = b then .inf a else .nan
  | .inf a, _ => .inf a
  | _, .inf b => .inf b
  | .fin sa ma ea, .fin sb mb eb =>
    let q := min ea eb
    let t := sigAt sa ma ea q + sigAt sb mb eb q
    if t = 0 then .fin (sa && sb && decide (ma = 0) && decide (mb = 0)) 0 q
    else .fin (decide (t < 0)) t.natAbs q

/-- Exact product. -/
def Fp.mul : Fp → Fp → Fp
  | .nan, _ => .nan
  | _, .nan => .nan
  | .inf a, .inf b => .inf (xor a b)
  | .inf a, .fin b m _ => if m = 0 then .nan else .inf (xor a b)
  | .fin a m _, .inf b => if m = 0 then .nan else .inf (xor a b)
  | .fin sa ma ea, .fin sb mb eb => .fin (xor sa sb) (ma * mb) (ea + eb)

/-- Is `a` less than `b`, with −0 equal to +0; false where either is NaN. -/
def Fp.lt : Fp → Fp → Bool
  | .nan, _ => false
  | _, .nan => false
  | .inf a, .inf b => a && !b
  | .inf a, _ => a
  | _, .inf b => !b
  | .fin sa ma ea, .fin sb mb eb =>
    let q := min ea eb
    decide (sigAt sa ma ea q < sigAt sb mb eb q)

/-- Are two values equal, with −0 equal to +0; false where either is NaN. -/
def Fp.eq (a b : Fp) : Bool := !a.isNan && !b.isNan && !Fp.lt a b && !Fp.lt b a

/-- a ÷ b for finite operands, to far more bits than any format holds; the last bit is sticky. -/
def divFin (sa : Bool) (ma : Nat) (ea : Int) (sb : Bool) (mb : Nat) (eb : Int) : Fp :=
  let n := ma * 2 ^ 256
  let q := n / mb
  .fin (xor sa sb) (2 * q + b2n (decide (n % mb ≠ 0))) (ea - eb - 257)

/-- The quotient, exactly as far as one correct rounding can tell (R64). Division by zero gives an exact infinity. -/
def Fp.div : Fp → Fp → Fp
  | .nan, _ => .nan
  | _, .nan => .nan
  | .inf _, .inf _ => .nan
  | .inf a, .fin b _ _ => .inf (xor a b)
  | .fin a _ _, .inf b => .fin (xor a b) 0 0
  | .fin sa ma ea, .fin sb mb eb =>
    if mb = 0 then (if ma = 0 then .nan else .inf (xor sa sb))
    else divFin sa ma ea sb mb eb

/-- Integer square root by bisection: `fuel` bits of the result. -/
def isqrtAux (n : Nat) : Nat → Nat → Nat
  | 0, r => r
  | b + 1, r => if (r + 2 ^ b) * (r + 2 ^ b) ≤ n then isqrtAux n b (r + 2 ^ b) else isqrtAux n b r

/-- ⌊√n⌋. -/
def isqrt (n : Nat) : Nat := isqrtAux n (Nat.log2 n / 2 + 1) 0

/-- The square root, exactly as far as one correct rounding can tell (R64). -/
def Fp.sqrt : Fp → Fp
  | .nan => .nan
  | .inf s => if s then .nan else .inf false
  | .fin s m e =>
    if m = 0 then .fin s 0 0
    else if s then .nan
    else
      let e' := if e % 2 = 0 then e else e - 1
      let m' := (if e % 2 = 0 then m else 2 * m) * 2 ^ 128
      let r := isqrt m'
      .fin false (2 * r + b2n (decide (r * r ≠ m'))) ((e' - 128) / 2 - 1)

/-! ### FP32 operations: exact operation, one rounding (R53, R64) -/

/-- Decode an FP32 pattern. -/
def f32 (w : Nat) : Fp := ffDecode fp32 w

/-- Round to FP32, to nearest even, with the flags of R66. A NaN result sets NAN_PRODUCED. -/
def toF32 (v : Fp) : Nat × Nat := ffEncode fp32 .nearest v

/-- FP32 addition. -/
def f32Add (a b : Nat) : Nat × Nat := toF32 (Fp.add (f32 a) (f32 b))
def f32Sub (a b : Nat) : Nat × Nat := toF32 (Fp.add (f32 a) (f32 b).neg)
def f32Mul (a b : Nat) : Nat × Nat := toF32 (Fp.mul (f32 a) (f32 b))
/-- Fused multiply-add a × b + c with one rounding. -/
def f32Fma (a b c : Nat) : Nat × Nat := toF32 (Fp.add (Fp.mul (f32 a) (f32 b)) (f32 c))
def f32Div (a b : Nat) : Nat × Nat := toF32 (Fp.div (f32 a) (f32 b))
def f32Sqrt (a : Nat) : Nat × Nat := toF32 (Fp.sqrt (f32 a))

/-- IEEE 754-2019 minimum: −0 below +0, NaN gives the canonical NaN (R64). -/
def f32Min (a b : Nat) : Nat × Nat :=
  let x := f32 a
  let y := f32 b
  if x.isNan || y.isNan then (0x7FC00000, flagNan)
  else if Fp.lt x y then (a, 0) else if Fp.lt y x then (b, 0)
  else if x.sign then (a, 0) else (b, 0)

/-- IEEE 754-2019 maximum. -/
def f32Max (a b : Nat) : Nat × Nat :=
  let x := f32 a
  let y := f32 b
  if x.isNan || y.isNan then (0x7FC00000, flagNan)
  else if Fp.lt y x then (a, 0) else if Fp.lt x y then (b, 0)
  else if x.sign then (b, 0) else (a, 0)

/-- Widen an element of any format exactly to FP32, INT32 to nearest even (R105). A code of a narrow format is
exactly representable. A NaN widens to the canonical NaN and counts as a NaN consumed (R66). -/
def widen (code : Nat) (c : Nat) : Nat × Nat := toF32 (fmtDecode code false c)

/-- The exact FP32 1.0. -/
def f32One : Nat := 0x3F800000

/-- An FP32 value read as an operand and passed on unchanged: a NaN becomes canonical and counts as consumed (R54, R55,
R66). -/
def f32Pass (w : Nat) : Nat × Nat := toF32 (f32 w)

/-- Is an FP32 pattern a positive finite number (R51)? -/
def f32PosFinite (w : Nat) : Bool :=
  match f32 w with
  | .fin s m _ => !s && decide (m ≠ 0)
  | _ => false

/-- The fixed pairwise tree over a list of a power-of-two length (R60, R65): adjacent pairs, level by level. -/
def pairUp : List (Nat × Nat) → List (Nat × Nat)
  | (a, fa) :: (b, fb) :: rest =>
    let r := f32Add a b
    (r.1, lor (lor fa fb) r.2) :: pairUp rest
  | l => l

/-- `n` levels of the tree. -/
def treeLevels : Nat → List (Nat × Nat) → List (Nat × Nat)
  | 0, l => l
  | n + 1, l => treeLevels n (pairUp l)

/-- Pad with exact zeros to the next power of two and sum by the tree (R65): the sum and the flags. -/
def treeSum (l : List Nat) : Nat × Nat :=
  let n := pow2AtLeast (max l.length 1)
  match treeLevels (Nat.log2 n) ((l ++ List.replicate (n - l.length) 0).map fun x => (x, 0)) with
  | r :: _ => r
  | [] => (0, 0)

/-! ### Stochastic rounding bits (R56) -/

/-- `sr_bits(seed, stream, index)` of R56. -/
def srBits (seed stream index : Nat) : Nat :=
  let M := 2 ^ 64
  let z := (seed + 0x9E3779B97F4A7C15 * (stream * 2 ^ 40 + index + 1)) % M
  let z := ((z ^^^ (z >>> 30)) * 0xBF58476D1CE4E5B9) % M
  let z := ((z ^^^ (z >>> 27)) * 0x94D049BB133111EB) % M
  let z := z ^^^ (z >>> 31)
  z >>> 48

/-- The rounding in force for a request: stochastic only where it is asked for and the seed is not zero (R53, R57). -/
def roundingOf (sr : Bool) (seed stream index : Nat) : Rounding :=
  if sr && decide (seed ≠ 0) then .stochastic (srBits seed stream index) else .nearest

end Sys2Proof.Machine
end

