-- ==== Sys2Proof/Machine/CollParts.lean ====
section
/-! DEFINITION. The parts of the state that belong to the sum over all, and the fields of its descriptors and packets:
spec/14_collectives.md R316 to R331. -/

namespace Sys2Proof.Machine

/-- A member of the tree as its neighbours keep it (R317): member index, GEID, H-die of its node. -/
structure Member where
  index : Nat
  geid : Nat
  hdie : Nat
deriving DecidableEq, Repr

/-- A group slot's life (R318). -/
inductive GroupState where
  | pendingCreate | inForce | pendingDestroy
deriving DecidableEq, Repr

/-- A collective group slot in use (R316 to R318). -/
structure CollGroup where
  state : GroupState
  groupId : Nat
  ctx : Nat
  partition : Nat
  m : Nat
  f : Nat
  self : Member
  parent : Option Member
  children : List Member
  used : List Nat := []                  -- R321: COLL_SEQs used in the stroke
deriving DecidableEq, Repr

/-- A collective packet with what its node finds while it works on it: a step of its adders (R67), an uncorrectable error in
its buffer (R329). -/
structure CollSeen where
  m : CollIn
  seen : Option ArithStep := none
  bufferError : Bool := false
deriving DecidableEq, Repr

/-- One chunk at a node (R323, R329, R330). -/
structure Chunk where
  c : Nat
  /-- UP contributions received: the child's index, its elements as FP32 patterns. -/
  ups : List (Nat × List Nat) := []
  down : Option (List Nat) := none       -- result codes of FMT_OUT received or formed
  poisoned : Bool := false
  upSent : Bool := false
  written : Bool := false
  mark : Nat := 0                        -- R328: requests numbered below it carry the chunk's stores, or earlier ones
  flags : Nat := 0
  /-- R330: the notice for the chunk has been sent or forwarded. -/
  noticed : Bool := false
deriving DecidableEq, Repr

/-- An ALLSUM running or waiting on this member (R320 to R328). -/
structure Allsum where
  cmd : Nat
  ctx : Nat
  slot : Nat
  seq : Nat
  n : Nat
  fmtIn : Nat
  fmtOut : Nat
  src : Nat
  dst : Nat
  chunkValve : Option Nat
  known : Bool := true                   -- R320: its descriptor has been read
  started : Bool := false                -- R322: at most 8 run per H-die
  chunks : List Chunk := []
  next : Nat := 0                        -- R324: next chunk to sum
  valves : Nat := 0                      -- R328: chunk signals made
  confirms : List (Nat × Bool × Nat) := []   -- R327: child, POISON, FLAGS
  confirmed : Bool := false              -- CONFIRM sent, or the root's own confirmation
  verdict : Option (Bool × Nat × Nat) := none   -- POISON, FLAGS, poisoned chunks
  halted : Bool := false                 -- R324: on an absent page
  stopped : Bool := false
deriving DecidableEq, Repr

/-! Fields of the collective header (R326). -/
def chOp (h : Nat) : Nat := fld h 127 124
def chGroup (h : Nat) : Nat := fld h 123 108
def chSeq (h : Nat) : Nat := fld h 107 100
def chSender (h : Nat) : Nat := fld h 99 86
def chChunk (h : Nat) : Nat := fld h 85 62
def chCount (h : Nat) : Nat := fld h 61 51
def chFmt (h : Nat) : Nat := fld h 50 47
def chPoison (h : Nat) : Bool := bit h 46
def chFlags (h : Nat) : Nat := fld h 45 40
def chN (h : Nat) : Nat := fld h 39 12

/-- Compose a collective header (R326). -/
def chMake (op group seq sender chunk count fmt : Nat) (poison : Bool) (flags n : Nat) : Nat :=
  op * 2 ^ 124 + group * 2 ^ 108 + seq * 2 ^ 100 + sender * 2 ^ 86 + chunk * 2 ^ 62 + count * 2 ^ 51 + fmt * 2 ^ 47
    + b2n poison * 2 ^ 46 + flags % 64 * 2 ^ 40 + n * 2 ^ 12

/-- Elements of chunk `c` of a vector of `n` (R322). -/
def chunkCount (n c : Nat) : Nat := min 1024 (n - 1024 * c)

/-- Chunks of a vector of `n` elements. -/
def chunkTotal (n : Nat) : Nat := ceilDiv n 1024

/-- Bytes per element of FP32 (0) and BF16 (1). -/
def collBytes (fmt : Nat) : Nat := if fmt = 0 then 4 else 2

/-- Element codes of a packed vector. -/
def collCodes (fmt count : Nat) (bs : List Byte) : List Nat :=
  ((chunks (collBytes fmt) bs).take count).map leNat

/-- A packed vector of element codes. -/
def collPack (fmt : Nat) (codes : List Nat) : List Byte := (codes.map (natLe (collBytes fmt))).flatten

/-- Widen to FP32 patterns (R323: exact). -/
def collWiden (fmt : Nat) (codes : List Nat) : List Nat := if fmt = 0 then codes else codes.map (· * 65536)

/-- s = s + x, element by element, with flags (R323). -/
def collAdd (s x : List Nat) : List Nat × Nat :=
  let r := (List.zip s x).map fun p => f32Add p.1 p.2
  (r.map (·.1), r.foldl (fun f v => lor f v.2) 0)

/-- convert(s, FMT_OUT) (R323): to BF16, or to FP32, where only a NaN changes (R54, R55). -/
def collConvert (fmt : Nat) (s : List Nat) : List Nat × Nat :=
  let r := s.map fun v => if fmt = 0 then f32Pass v else ffEncode bf16 .nearest (f32 v)
  (r.map (·.1), r.foldl (fun f v => lor f v.2) 0)

end Sys2Proof.Machine
end

