-- ==== Sys2Proof/Config.lean ====
section
/-! DEFINITION. What one module fixes for its life, and the values the manual leaves open. Every `opaque`
constant here has no body: no proof can learn its value, so a claim holds whatever the value is. -/

namespace Sys2Proof

/-- FREE VALUE (log entry 2). The byte a memory location holds where the manual calls the contents undefined
(R33, R36, R203, R248, R383, R395): `n` counts the occasions, `a` is the address. -/
opaque Config.freeByte : Nat → Nat → Byte

/-- FREE VALUE (log entry 3). A choice the manual leaves to the hardware, by occasion. -/
opaque Config.freeChoice : Nat → Nat

/-- Per module (R2): the 16 ASCII characters of SERIAL. -/
opaque Config.serial : Fin 16 → Fin 36

/-- Per module (R2): the fused numbers of the six dies. -/
opaque Config.dieFuse : Fin 6 → BitVec 64

/-- Per module (R456, R457): the four ASCII digits of MARK_DATE. -/
opaque Config.markDate : Fin 4 → Byte

/-- Per module (R397): the identity public key, x then y, big-endian, as the PUF regenerates it. -/
opaque Config.identityKey : Fin 64 → Byte

/-- FREE VALUE (log entry 4). The SM2 signature (r then s) the security engine makes for one report: the occasion
and the 24 words of the message (R400). The private key and the per-signature random number are never visible. -/
opaque Config.sm2Signature : Nat → List Byte → Fin 64 → Byte

/-- Per module (R393): the four SM3 key digests fused at manufacture. -/
opaque Config.keyDigest : Fin 4 → Fin 32 → Byte

/-- Per module (R371): the size of BAR2 that the host has chosen is 2 ^ (30 + this) bytes. -/
opaque Config.bar2Log : Fin 12

/-- FREE VALUE (log entry 45). The reading that the module takes from a sensor whose FP32 word is a NaN or an infinity. -/
opaque Config.oddReading : Nat → Rat

/-- FREE VALUE (log entry 45). The current that R430's quotient P ÷ V asks for at a measured voltage of zero. -/
opaque Config.currentAtNoVoltage : Rat → Rat

/-- FREE VALUE (log entry 12). The CRC-32 of a frame sent, by occasion: its polynomial is not given (R291). -/
opaque Config.frameCrc : Nat → BitVec 32

/-- FREE VALUE (log entry 31). The draw of work that would take `w` watts at full duty, gated to a duty of `d` in 64. -/
opaque Config.gatedDraw : Nat → Nat → Rat

end Sys2Proof
end

