-- ==== Sys2Proof/Machine/SMap.lean ====
section
/-! DEFINITION. Sparse maps as plain data: a list of (key, value) pairs in ONE canonical form. Keys rise strictly,
and no entry equals what an unlisted key reads as (`d k`), so equal maps are equal lists. Memory, register files and
tables of the S480 are held this way. -/

namespace Sys2Proof.Machine

/-- A sparse map with keys in `Nat`. What an unlisted key reads as is given to each operation. -/
abbrev SMap (α : Type) := List (Nat × α)

/-- The value at key `k`; `d k` where nothing is listed. -/
def SMap.get {α : Type} (d : Nat → α) : SMap α → Nat → α
  | [], k => d k
  | (k', v) :: m, k => if k = k' then v else SMap.get d m k

/-- List `v` at key `k`: in its place among rising keys. -/
def SMap.insert {α : Type} : SMap α → Nat → α → SMap α
  | [], k, v => [(k, v)]
  | (k', v') :: m, k, v =>
    if k < k' then (k, v) :: (k', v') :: m
    else if k = k' then (k, v) :: m
    else (k', v') :: SMap.insert m k v

/-- Write `v` at key `k`, keeping the canonical form: what an unlisted key reads as is not listed. -/
def SMap.put {α : Type} [DecidableEq α] (d : Nat → α) (m : SMap α) (k : Nat) (v : α) : SMap α :=
  if v = d k then m.filter fun kv => decide (kv.1 ≠ k) else SMap.insert m k v

/-- Every key of the map is above `b`, keys rise, and no entry equals its default. -/
def SMap.wfFrom {α : Type} [DecidableEq α] (d : Nat → α) : Option Nat → SMap α → Bool
  | _, [] => true
  | b, (k, v) :: m => (match b with | none => true | some j => decide (j < k)) && decide (v ≠ d k) && SMap.wfFrom d (some k) m

/-- The canonical form. -/
def SMap.wf {α : Type} [DecidableEq α] (d : Nat → α) (m : SMap α) : Bool := SMap.wfFrom d none m

/-- Drop every entry whose key `p` selects: those keys read as the default again. -/
def SMap.clear {α : Type} (p : Nat → Bool) (m : SMap α) : SMap α := m.filter fun kv => !(p kv.1)

/-- Apply `f` at one key. -/
def SMap.modify {α : Type} [DecidableEq α] (d : Nat → α) (m : SMap α) (k : Nat) (f : α → α) : SMap α :=
  SMap.put d m k (f (SMap.get d m k))

/-- Apply `f` to every listed value; entries that become the default are no longer listed. -/
def SMap.mapVals {α : Type} [DecidableEq α] (d : Nat → α) (f : α → α) (m : SMap α) : SMap α :=
  (m.map fun kv => (kv.1, f kv.2)).filter fun kv => decide (kv.2 ≠ d kv.1)

end Sys2Proof.Machine
end

