-- ==== Sys2Proof/Machine/Memory.lean ====
section
/-! DEFINITION. Memory as the device addresses it (spec/11_memory_fabric.md R240 to R243, spec/05_core.md R102, R104):
cistern memory below 0x180_0000_0000 and the wells behind their apertures, in one canonical list of listed bytes, and
one poison bit for each 64-byte line. -/

namespace Sys2Proof.Machine

/-- The first address above cistern memory (R243): 1,536 GiB. -/
def cisternEnd : Nat := 0x18000000000

/-- Bytes of one well (R12, R102). -/
def wellBytes : Nat := 0x600000

/-- The device address of byte 0 of a core's well: its aperture (R243). -/
def wellBase (core : Nat) : Nat := 0x18000000000 + core * 0x800000

/-- Is an address one of the module's memory: cistern memory, or a byte of a well? -/
def memExists (a : Nat) : Bool :=
  decide (a < cisternEnd) ||
    (decide (a < 0x18000000000 + 256 * 0x800000) && decide ((a - 0x18000000000) % 0x800000 < wellBytes))

/-- The interleave region of a cistern address (R246): three regions of 512 GiB. -/
def memRegion (a : Nat) : Nat := a / 0x8000000000

/-- The module's memory: listed bytes, line poison bits, and for each interleave region how often its split has
changed, after which its contents are undefined (R248). -/
structure Memory where
  cells : List Host.Cell
  poison : SMap Bool
  gen : List Nat
deriving DecidableEq, Repr

/-- What an unlisted address reads as. Cisterns are filled with zeros by priming (R383). Wells are zero too, DESIGN
CHOICE (log entry 1). A region whose split has changed holds undefined contents (R248, log entry 2). -/
def memDflt (gen : List Nat) (a : Nat) : Byte :=
  match gen.getD (memRegion a) 0 with
  | 0 => 0
  | n + 1 => Config.freeByte n a

/-- No line is poisoned until a write or a check poisons it. -/
def poisonDflt (_ : Nat) : Bool := false

/-- Memory after reset (R383): nothing listed, nothing poisoned. -/
def Memory.reset : Memory := ⟨[], [], [0, 0, 0]⟩

/-- The canonical form: addresses rise strictly, and nothing is listed that an unlisted address would read as. -/
def Memory.wf (m : Memory) : Bool := SMap.wf (memDflt m.gen) m.cells && SMap.wf poisonDflt m.poison

/-- Read one byte. -/
def Memory.byte (m : Memory) (a : Nat) : Byte := SMap.get (memDflt m.gen) m.cells a

/-- Write one byte. -/
def Memory.setByte (m : Memory) (a : Nat) (b : Byte) : Memory := { m with cells := SMap.put (memDflt m.gen) m.cells a b }

/-- Is the line of address `a` poisoned? -/
def Memory.poisoned (m : Memory) (a : Nat) : Bool := SMap.get poisonDflt m.poison (a / 64)

/-- Set or clear the poison bit of line `l`. -/
def Memory.setPoison (m : Memory) (l : Nat) (p : Bool) : Memory := { m with poison := SMap.put poisonDflt m.poison l p }

/-- Read `n` bytes from `a`. -/
def Memory.read (m : Memory) : Nat → Nat → List Byte
  | _, 0 => []
  | a, n + 1 => m.byte a :: Memory.read m (a + 1) n

/-- Write bytes from `a` on. -/
def Memory.writeBytes (m : Memory) : Nat → List Byte → Memory
  | _, [] => m
  | a, b :: bs => Memory.writeBytes (m.setByte a b) (a + 1) bs

/-- The lines that the bytes [a, a + n) touch. -/
def linesOf (a n : Nat) : List Nat := if n = 0 then [] else (List.range ((a + n - 1) / 64 - a / 64 + 1)).map (· + a / 64)

/-- Is any line of [a, a + n) poisoned? -/
def Memory.anyPoison (m : Memory) (a n : Nat) : Bool := (linesOf a n).any fun l => SMap.get poisonDflt m.poison l

/-- The poison bit of one line after a write of [a, a + n) (R104, R241): set by poisoned data, cleared by clean data
that covers the whole line, kept otherwise. -/
def linePoison (m : Memory) (a n : Nat) (p : Bool) (l : Nat) : Memory :=
  if p then m.setPoison l true
  else if decide (a ≤ l * 64) && decide (l * 64 + 64 ≤ a + n) then m.setPoison l false
  else m

/-- Write data, with its poison, from `a` on (R241). -/
def Memory.write (m : Memory) (a : Nat) (bs : List Byte) (p : Bool) : Memory :=
  (linesOf a bs.length).foldl (fun m l => linePoison m a bs.length p l) (m.writeBytes a bs)

/-- Replace [a, a + n) by undefined contents of occasion `k` (R33, R36). -/
def Memory.scramble (m : Memory) (k a n : Nat) : Memory :=
  m.writeBytes a ((List.range n).map fun i => Config.freeByte k (a + i))

/-- The contents of region `r` become undefined: its split has changed at occasion `k` (R248). -/
def Memory.forget (m : Memory) (r k : Nat) : Memory :=
  ⟨SMap.clear (fun a => decide (memRegion a = r)) m.cells, m.poison, m.gen.set r (k + 1)⟩

/-- Do the unlisted bytes of [a, a + n) read as zero? -/
def Memory.plain (m : Memory) (a n : Nat) : Bool :=
  (List.range (memRegion (a + n - 1) - memRegion a + 1)).all fun i => m.gen.getD (memRegion a + i) 0 = 0

/-- Does [a, a + n) hold address `k`? -/
def inSpan (a n k : Nat) : Bool := decide (a ≤ k) && decide (k < a + n)

/-- Fill [a, a + n), whole lines, with zeros that are not poisoned (R344, R253). -/
def Memory.zero (m : Memory) (a n : Nat) : Memory :=
  let m1 := if m.plain a n then { m with cells := SMap.clear (inSpan a n) m.cells } else m.writeBytes a (List.replicate n 0)
  { m1 with poison := SMap.clear (inSpan (a / 64) (n / 64)) m1.poison }

/-- Copy whole lines, with their poison, from `src` to `dst` (R344). -/
def Memory.copy (m : Memory) (src dst n : Nat) : Memory :=
  let m1 := m.zero dst n
  let m2 := if m.plain src n then
      (m.cells.filter fun x => inSpan src n x.1).foldl (fun y x => y.setByte (dst + (x.1 - src)) x.2) m1
    else m1.writeBytes dst (m.read src n)
  (m.poison.filter fun x => inSpan (src / 64) (n / 64) x.1).foldl (fun y x => y.setPoison (dst / 64 + (x.1 - src / 64)) x.2) m2

/-- Is address [a, a+n) wholly inside the memory below `cisternEnd`? -/
def inCistern (a n : Nat) : Bool := decide (a + n ≤ cisternEnd)

/-- A little-endian value of `n` bytes at `a` (R3). -/
def Memory.le (m : Memory) (a n : Nat) : Nat := leNat (m.read a n)

end Sys2Proof.Machine
end

