-- ==== Sys2Proof/Machine/Dot.lean ====
section
/-! DEFINITION. Packed elements (R47), block scaling (R48 to R52, R458) and dot products (R58 to R63) of
spec/03_numerics.md. -/

namespace Sys2Proof.Machine

/-! ### Packed elements (R47): element i occupies bits [bits·i + bits − 1 : bits·i] of the little-endian run -/

/-- Bytes that `n` packed elements of a format occupy. -/
def packedBytes (fmt n : Nat) : Nat := ceilDiv (n * fmtBits fmt) 8

/-- Element `i` of a packed run that starts at byte address `a`. -/
def elemAt (m : Memory) (a fmt i : Nat) : Nat :=
  let b := fmtBits fmt
  let o := b * i
  fld (m.le (a + o / 8) (ceilDiv (o % 8 + b) 8)) (o % 8 + b - 1) (o % 8)

/-- The first `n` elements of a packed run. -/
def elems (m : Memory) (a fmt n : Nat) : List Nat := (List.range n).map fun i => elemAt m a fmt i

/-- Elements that share whole bytes: FP6 in fours, four-bit formats in pairs. -/
def packGroup (fmt : Nat) : Nat :=
  match fmtBits fmt with
  | 6 => 4 | 4 => 2 | _ => 1

/-- One group of elements as bytes. Bits of the last byte past the elements keep what `old` holds (log entry 5). -/
def packOne (fmt : Nat) (old : Byte) (g : List Nat) : List Byte :=
  let b := fmtBits fmt
  let n := g.length
  let bytes := ceilDiv (n * b) 8
  let v := (g.foldl (fun (p : Nat × Nat) c => (p.1 + c * 2 ^ p.2, p.2 + b)) (0, 0)).1
  let spare := n * b % 8
  natLe bytes (if spare = 0 then v else v + old.toNat / 2 ^ spare * 2 ^ (spare + 8 * (bytes - 1)))

/-- Pack elements; `old` is the byte that holds the last group's spare bits now. -/
def packElems (fmt : Nat) (old : Byte) (codes : List Nat) : List Byte :=
  ((chunks (packGroup fmt) codes).map (packOne fmt old)).flatten

/-! ### Scaling (R48 to R51) -/

/-- Block size of a scaling code (R44); 0 without scaling. -/
def blockSize (scaling : Nat) : Nat :=
  match scaling with
  | 1 => 32 | 2 => 16 | _ => 0

/-- The valid format and scaling pairs (R49). -/
def pairOk (fmt scaling : Nat) : Bool :=
  match scaling with
  | 0 => decide (fmt ≤ 9)
  | 1 => [3, 4, 5, 6, 7, 8].contains fmt
  | 2 => [3, 5, 6, 7].contains fmt
  | _ => false

/-- What a block scale makes of its block (R50, R51). -/
inductive BlockScale where
  | plain (sig : Nat) (exp : Int)   -- the scale is sig × 2^exp
  | zero                            -- every element is +0
  | nan                             -- every element is NaN
deriving DecidableEq, Repr

/-- Read a scale byte under a scaling code; `t` is the FP32 tensor scale of a fine-block operand. R51 makes a block with a
zero scale under a tensor scale that is no positive finite number both a NaN block and a block of +0: the NaN block is
taken (DESIGN CHOICE, log entry 93). -/
def blockScale (scaling t x : Nat) : BlockScale :=
  match scaling with
  | 1 => if x = 0xFF then .nan else .plain 1 ((x : Int) - 127)
  | 2 =>
    if !f32PosFinite t then .nan
    else if x = 0 || x = 0x80 then .zero
    else if x % 128 = 127 || x ≥ 128 then .nan
    else if x / 8 = 0 then .plain (x % 8) (-9) else .plain (8 + x % 8) ((x / 8 : Nat) - 10 : Int)
  | _ => .plain 1 0

/-- The exponent a block gives to the largest exponent G of R58: scales are taken as stored (R126). -/
def scaleExp (scaling x : Nat) : Int :=
  match scaling with
  | 1 => (x : Int) - 127
  | 2 => let y := x % 128; if y / 8 = 0 then -9 else ((y / 8 : Nat) - 10 : Int)
  | _ => 0

/-- The value of an element before its block's scale, with the NaN and zero blocks of R50 and R51. -/
def elemVal (fmt scaling : Nat) (s : BlockScale) (code : Nat) : Fp :=
  match s with
  | .nan => .nan
  | .zero => .fin false 0 0
  | .plain _ _ => fmtDecode fmt (decide (scaling = 1)) code

/-- A block-scaled element read into an FP32 value (R458): exact, rounded once. SCALE_NAN for a NaN block. -/
def scaledToF32 (fmt scaling t x code : Nat) : Nat × Nat :=
  match blockScale scaling t x with
  | .nan => (0x7FC00000, flagScaleNan + flagNan)
  | .zero => (0, 0)
  | .plain sig e =>
    let v := Fp.mul (fmtDecode fmt (decide (scaling = 1)) code) (.fin false sig e)
    toF32 (if scaling = 2 then Fp.mul v (f32 t) else v)

/-! ### Quantising into a block-scaled format (R52) -/

/-- Element format's emax of the OCP scale rule (R52); 127 for the BF16 elements of SBF16 (R275). -/
def ocpEmax (fmt : Nat) : Nat :=
  match fmt with
  | 1 => 127 | 3 => 8 | 4 => 15 | 5 => 4 | 6 => 2 | 7 => 2 | _ => 0

/-- Largest of the magnitudes of FP32 values, as an exact value; NaNs count as zero. -/
def amaxOf (vals : List Nat) : Fp :=
  vals.foldl (fun a v => let x := f32 (v % 2 ^ 31); if Fp.lt a x then x else a) (.fin false 0 0)

/-- ⌊log2⌋ of a finite non-zero value. -/
def floorLog2 : Fp → Int
  | .fin _ m e => (Nat.log2 m : Int) + e
  | _ => 0

/-- Saturate to the largest finite value of the format: no infinity in a block-scaled result (R52). -/
def encodeSat (fmt : Nat) (r : Rounding) (v : Fp) : Nat × Nat :=
  match ffmtOf fmt with
  | some f =>
    match v with
    | .fin neg m e => let c := roundMag f r m e
                      if c ≤ f.maxCode then (ffWithSign f neg c, 0) else (ffWithSign f neg f.maxCode, flagSaturated)
    | _ => ffEncode { f with infCode := none } r v
  | none => fmtEncode fmt r v

/-- An element of a NaN block (R52). -/
def nanBlockElem (fmt : Nat) : Nat :=
  match fmt with
  | 1 => 0x7FC0 | 3 => 0x7F | 4 => 0x7E | _ => 0

/-- Does a list of FP32 values hold a NaN; a NaN or an infinity? -/
def anyNan (vals : List Nat) : Bool := vals.any fun v => (f32 v).isNan
def anyNonFinite (vals : List Nat) : Bool := vals.any fun v => (f32 v).isNan || (f32 v).isInf

/-- A NaN block: its scale byte, its elements, its flags (R52). -/
def nanBlock (fmt scaleByte : Nat) (vals : List Nat) : Nat × List Nat × Nat :=
  (scaleByte, vals.map fun _ => nanBlockElem fmt, flagScaleNan + (if anyNan vals then flagNan else 0))

/-- Quantise a run of values by a full scale: element i is rounded from source ÷ scale, with rounding `r i`. -/
def quantElems (fmt : Nat) (mx : Bool) (scale : Fp) (r : Nat → Rounding) (i0 : Nat) : List Nat → List Nat × Nat
  | [] => ([], 0)
  | v :: vs =>
    let q := Fp.div (f32 v) scale
    let q := if mx && fmt = 8 then Fp.mul q (.fin false 1 6) else q
    let c := encodeSat fmt (r i0) q
    let rest := quantElems fmt mx scale r (i0 + 1) vs
    (c.1 :: rest.1, lor c.2 rest.2)

/-- One OCP block (R52): scale byte, element codes, flags. -/
def quantOcp (fmt : Nat) (r : Nat → Rounding) (i0 : Nat) (vals : List Nat) : Nat × List Nat × Nat :=
  if anyNonFinite vals then nanBlock fmt 0xFF vals
  else
    let a := amaxOf vals
    let x : Int := if a.isZero then 0 else max 0 (min 254 (floorLog2 a - ocpEmax fmt + 127))
    let q := quantElems fmt true (.fin false 1 (x - 127)) r i0 vals
    (x.toNat, q.1, q.2)

/-- Largest finite value of an element format (R45). -/
def fmtMax (fmt : Nat) : Fp :=
  match ffmtOf fmt with
  | some f => ffDecode f f.maxCode
  | none => .fin false 127 0

/-- The smallest positive E4M3 scale code whose value is at least `v`, clamped to 2^−9 to 448 (R52). -/
def e4m3Ceil (v : Fp) : Nat :=
  ((List.range 127).find? fun c => decide (1 ≤ c) && !(Fp.lt (ffDecode e4m3 c) v)).getD 0x7E

/-- Element `i` of a block whose fine scale is 0x00: its quotient is 0 ÷ 0, taken as a zero of free sign (log entry 40). -/
def zeroBlockElem (fmt k i : Nat) : Nat :=
  match ffmtOf fmt with
  | some f => ffWithSign f (decide ((Config.freeByte k i).toNat % 2 = 1)) 0
  | none => 0

/-- One fine block (R52) under tensor scale `t`, on occasion `k`. -/
def quantFine (fmt t k : Nat) (r : Nat → Rounding) (i0 : Nat) (vals : List Nat) : Nat × List Nat × Nat :=
  if anyNonFinite vals || !f32PosFinite t then nanBlock fmt 0x7F vals
  else
    let a := amaxOf vals
    if a.isZero then (0, (List.range vals.length).map fun i => zeroBlockElem fmt k (i0 + i), 0)
    else
      let s := e4m3Ceil (Fp.div a (Fp.mul (fmtMax fmt) (f32 t)))
      let q := quantElems fmt false (Fp.mul (ffDecode e4m3 s) (f32 t)) r i0 vals
      (s, q.1, q.2)

/-! ### Dot products -/

/-- One operand vector of a dot product: element codes, its scale bytes in block order, its FP32 tensor scale. -/
structure DotVec where
  fmt : Nat
  codes : List Nat
  scales : List Nat
  tensor : Nat
deriving DecidableEq, Repr

/-- The class of a format in a dot product: narrow, BF16, FP16 or FP32 (R58, R60, R61); none for INT32 and reserved. -/
def dotClass (fmt : Nat) : Option Nat :=
  match fmt with
  | 0 => some 0 | 1 => some 1 | 2 => some 2
  | _ => if fmt ≤ 9 then some 3 else none

/-- May two operands with one scaling code form a dot product (R58, R60, R61, R49)? -/
def dotPairOk (fa fb scaling : Nat) : Bool :=
  decide (dotClass fa = dotClass fb) && (dotClass fa).isSome && pairOk fa scaling && pairOk fb scaling

/-- Do two operands give an INT32 result: INT8 or INT4 without scaling (R58)? -/
def intResult (fa fb scaling : Nat) : Bool :=
  (fa = 8 || fa = 9) && (fb = 8 || fb = 9) && scaling = 0

/-- The three special-value trackers of R63. -/
structure Special where
  nan : Bool
  pos : Bool
  neg : Bool
deriving DecidableEq, Repr

def Special.start : Special := ⟨false, false, false⟩

/-- Track one exact product (R63). -/
def Special.track (t : Special) : Fp → Special
  | .nan => { t with nan := true }
  | .inf n => if n then { t with neg := true } else { t with pos := true }
  | .fin _ _ _ => t

/-- The trackers of several parts of a dot product, joined (R63). -/
def joinSpecials (l : List Special) : Special :=
  l.foldl (fun t r => ⟨t.nan || r.nan, t.pos || r.pos, t.neg || r.neg⟩) Special.start

/-- The result a special product forces, with its flags; none where every product is finite (R63). -/
def Special.result (t : Special) : Option (Nat × Nat) :=
  if t.nan || (t.pos && t.neg) then some (0x7FC00000, flagNan)
  else if t.pos then some (0x7F800000, 0)
  else if t.neg then some (0xFF800000, 0)
  else none

/-- A finite product as an integer multiple of 2^q. -/
def finAt (q : Int) : Fp → Int
  | .fin s m e => sigAt s m e q
  | _ => 0

/-- One block of a narrow dot product (R58 step 2): its terms are pairs of element codes; `none` is a skipped term,
an exact zero (R62). Answers N_b, g_b (none for a NaN block, whose scale has no exponent), the trackers and the
flags. -/
def narrowBlock (fa fb scaling ta tb xa xb : Nat) (terms : List (Option (Nat × Nat))) :
    Int × Option Int × Special × Nat :=
  let sa := blockScale scaling ta xa
  let sb := blockScale scaling tb xb
  let prods := terms.filterMap fun t => t.map fun p => Fp.mul (elemVal fa scaling sa p.1) (elemVal fb scaling sb p.2)
  let sum := prods.foldl (fun acc p => acc + finAt (-32) p) (0 : Int)
  let sp := prods.foldl Special.track Special.start
  let fl := if terms.any Option.isSome && (sa = .nan || sb = .nan) then flagScaleNan else 0
  let k : Int := match sa, sb with
    | .plain x _, .plain y _ => ((x * y : Nat) : Int)
    | _, _ => 0
  (sum * k, if sa = .nan || sb = .nan then none else some (scaleExp scaling xa + scaleExp scaling xb), sp, fl)

/-- Arithmetic shift right: toward negative infinity. -/
def shiftFloor (i : Int) (n : Nat) : Int := i / ((2 ^ n : Nat) : Int)

/-- Place N_b × 2^(g_b − 32) into the accumulator whose least significant bit weighs 2^(G − 144) (R58 step 3). -/
def placeTerm (g : Int) (n gb : Int) : Int :=
  let d := (g - gb).toNat
  if d ≤ 112 then n * ((2 ^ (112 - d) : Nat) : Int) else shiftFloor n (d - 112)

/-- What one chunk of a narrow dot product gives: the accumulator's integer and G, trackers, flags, truncated. -/
structure ChunkSum where
  acc : Int
  g : Int
  sp : Special
  flags : Nat
  trunc : Bool
deriving DecidableEq, Repr

/-- Blocks of one chunk: (scale byte A, scale byte B, terms). -/
def narrowChunk (fa fb scaling ta tb : Nat) (blocks : List (Nat × Nat × List (Option (Nat × Nat)))) : ChunkSum :=
  let rs := blocks.map fun b => narrowBlock fa fb scaling ta tb b.1 b.2.1 b.2.2
  let g := match rs.filterMap fun r => r.2.1 with
    | [] => 0
    | e :: es => es.foldl max e
  let trunc := rs.any fun r => decide (112 < g - r.2.1.getD g)
  { acc := rs.foldl (fun a r => a + placeTerm g r.1 (r.2.1.getD g)) 0
    g := g
    sp := joinSpecials (rs.map fun r => r.2.2.1)
    flags := lor (rs.foldl (fun f r => lor f r.2.2.2) 0) (if trunc then flagAccTrunc else 0)
    trunc := trunc }

/-- The FP32 value of one chunk's finite sum, with flags (R58 step 4). -/
def chunkF32 (scaling ta tb : Nat) (c : ChunkSum) : Nat × Nat :=
  let v := fpOfInt c.acc
  let v := match v with
    | .fin s m e => Fp.fin s m (e + c.g - 144)
    | x => x
  let v := if scaling = 2 then Fp.mul (Fp.mul v (f32 ta)) (f32 tb) else v
  let r := toF32 v
  (r.1, lor r.2 c.flags)

/-- A zero result is +0 (R62). -/
def plusZero (v : Nat) : Nat := if v % 2 ^ 31 = 0 then 0 else v

/-- Add chunk results in ascending order in FP32 (R59, R60). Chunks whose finite sums overflow with opposite signs are
infinities here and add to NaN (DESIGN CHOICE, log entry 94). -/
def addChunks : List (Nat × Nat) → Nat × Nat
  | [] => (0, 0)
  | c :: cs => cs.foldl (fun a c => let r := f32Add a.1 c.1; (r.1, lor (lor a.2 c.2) r.2)) c

/-- What a dot product gives: an FP32 pattern or an INT32 pattern, flags, and whether it was truncated. -/
structure DotResult where
  val : Nat
  flags : Nat
  trunc : Bool
deriving DecidableEq, Repr

/-- Pair the elements of two vectors under a mask of kept positions (R62, R124); `none` for a skipped term. -/
def termsOf (a b : List Nat) (keep : List Bool) : List (Option (Nat × Nat)) :=
  (List.zip (List.zip a b) keep).map fun t => if t.2 then some t.1 else none

/-- Cut a chunk's terms into blocks with their scale bytes. -/
def blocksOf (scaling : Nat) (sa sb : List Nat) (terms : List (Option (Nat × Nat))) :
    List (Nat × Nat × List (Option (Nat × Nat))) :=
  if scaling = 0 then [(0, 0, terms)]
  else
    (List.zip (List.range terms.length) (chunks (blockSize scaling) terms)).map fun (i, ts) =>
      (sa.getD i 0, sb.getD i 0, ts)

/-- A dot product of narrow operands (R58, R59, R63). An INT32 result over several chunks is summed exactly, as R58 has it,
with no rounding of R59 (DESIGN CHOICE, log entry 95). -/
def dotNarrow (scaling : Nat) (a b : DotVec) (keep : List Bool) : DotResult :=
  let per := if scaling = 0 then 0 else 4096 / blockSize scaling
  let cs := (chunks 4096 (termsOf a.codes b.codes keep))
  let sums := (List.zip (List.range cs.length) cs).map fun (i, ts) =>
    narrowChunk a.fmt b.fmt scaling a.tensor b.tensor (blocksOf scaling (a.scales.drop (i * per)) (b.scales.drop (i * per)) ts)
  let trunc := sums.any (·.trunc)
  if intResult a.fmt b.fmt scaling then
    let t := sums.foldl (fun x c => x + shiftFloor c.acc 144) (0 : Int)
    let r := intEncode 32 .nearest (fpOfInt t)
    ⟨r.1, r.2, trunc⟩
  else
    match (joinSpecials (sums.map (·.sp))).result with
    | some (v, f) => ⟨v, sums.foldl (fun f c => lor f c.flags) f, trunc⟩
    | none =>
      let r := addChunks (sums.map (chunkF32 scaling a.tensor b.tensor))
      ⟨plusZero r.1, r.2, trunc⟩

/-- A dot product of BF16, FP16 or FP32 operands: products rounded once to FP32, a seven-level tree for each chunk of
128, chunk sums added in order (R60, R61), specials beside the sum (R63). -/
def dotTree (a b : DotVec) (keep : List Bool) : DotResult :=
  let terms := termsOf a.codes b.codes keep
  let exact := terms.map fun t => match t with
    | some p => Fp.mul (fmtDecode a.fmt false p.1) (fmtDecode b.fmt false p.2)
    | none => .fin false 0 0
  match (exact.foldl Special.track Special.start).result with
  | some (v, f) => ⟨v, f, false⟩
  | none =>
    let prods := exact.map toF32
    let cs := (chunks 128 prods).map fun c =>
      match treeLevels 7 (c ++ List.replicate (128 - c.length) (0, 0)) with
      | r :: _ => r
      | [] => (0, 0)
    let r := addChunks cs
    ⟨plusZero r.1, r.2, false⟩

/-- The dot product of two vectors of one scaling scheme (R58 to R63). -/
def dot (scaling : Nat) (a b : DotVec) (keep : List Bool) : DotResult :=
  if dotClass a.fmt = some 3 then dotNarrow scaling a b keep else dotTree a b keep

end Sys2Proof.Machine
end

