-- ==== Sys2Proof/Machine/Residue.lean ====
section
/-! DEFINITION. The residue checks of adders and multipliers: spec/03_numerics.md R67. -/

namespace Sys2Proof.Machine

/-- Sum of the low `n` 3-bit digits of `x`, least significant first. -/
def digitSum : Nat → Nat → Nat
  | 0, _ => 0
  | n + 1, x => x % 8 + digitSum n (x / 8)

/-- The loop of `res7`: fold the digits above the lowest into it until 3 bits are left; `fuel` bounds the rounds. -/
def foldDigits : Nat → Nat → Nat
  | 0, r => r
  | n + 1, r => if r > 7 then foldDigits n (r / 8 + r % 8) else r

/-- `res7` of R67: the residue of an unsigned number modulo 7. -/
def res7 (x : Nat) : Nat :=
  let sum := digitSum (Nat.log2 x / 3 + 1) x
  let r := foldDigits sum sum
  if r = 7 then 0 else r

/-- `check_add` of R67 with a carry-in: do the residues of both sides of a + b + cin = s + carry × 2^w agree? -/
def checkAdd (w a b s : Nat) (cin carry : Bool) : Bool :=
  (res7 a + res7 b + b2n cin) % 7 = (res7 s + b2n carry * 2 ^ (w % 3)) % 7

/-- The check of a subtraction: the addition of the complemented operand with a carry-in of 1. -/
def checkSub (w a b s : Nat) (carry : Bool) : Bool := checkAdd w a (2 ^ w - 1 - b % 2 ^ w) s true carry

/-- The check of a multiplier over its full-width product. -/
def checkMul (a b p : Nat) : Bool := res7 a * res7 b % 7 = res7 p % 7

/-- Does the checker find a mismatch in a step? -/
def stepMismatch : ArithStep → Bool
  | .add w a b s carry => !checkAdd w a b s false carry
  | .sub w a b s carry => !checkSub w a b s carry
  | .mul a b p => !checkMul a b p

/-- The items in whose work a mismatch was found. -/
def mismatches (seen : List StepSeen) : List Nat := (seen.filter fun x => stepMismatch x.step).map (·.item)

end Sys2Proof.Machine
end

