-- ==== Sys2Proof/Machine/Status.lean ====
section
/-! DEFINITION. Every status the manual names, with its 16-bit code (spec/16_control.md R380 and the status tables of
the chapters R380 lists). Whether a status is a fault or non-fatal is decided where it is raised. -/

namespace Sys2Proof.Machine

/-- The statuses of R380, group by group. -/
inductive Status where
  /-- STROKE_UNLOCKED, 0x0101. -/
  | strokeUnlocked
  /-- PERIOD_INVALID, 0x0102. -/
  | periodInvalid
  /-- PERIOD_CHANGE_LATE, 0x0103. -/
  | periodChangeLate
  /-- STROKE_OVERRUN, 0x0104. -/
  | strokeOverrun
  /-- START_MISSED, 0x0105. -/
  | startMissed
  /-- DOMAIN_MISMATCH, 0x0106. -/
  | domainMismatch
  /-- FORMAT_INVALID, 0x0201. -/
  | formatInvalid
  /-- VERSION_UNSUPPORTED, 0x0202. -/
  | versionUnsupported
  /-- NUMERICS_CHANGED, 0x0203. -/
  | numericsChanged
  /-- RESIDUE_ERROR, 0x0204. -/
  | residueError
  /-- ARRAY_OP_INVALID, 0x0301. -/
  | arrayOpInvalid
  /-- ARRAY_LAYOUT_CONFLICT, 0x0302. -/
  | arrayLayoutConflict
  /-- ARRAY_PASS_ORDER, 0x0303. -/
  | arrayPassOrder
  /-- ARRAY_BANK_EMPTY, 0x0304. -/
  | arrayBankEmpty
  /-- PLAN_INVALID, 0x0401. -/
  | planInvalid
  /-- WELL_NOT_OWNED, 0x0402. -/
  | wellNotOwned
  /-- VECTOR_OP_INVALID, 0x0403. -/
  | vectorOpInvalid
  /-- SPARSE_OP_INVALID, 0x0501. -/
  | sparseOpInvalid
  /-- SPARSE_FORMAT_INVALID, 0x0502. -/
  | sparseFormatInvalid
  /-- STRUCT_VIOLATION, 0x0503. -/
  | structViolation
  /-- MASK_NOT_TRANSPOSABLE, 0x0504. -/
  | maskNotTransposable
  /-- SUMP_OVERFLOW, 0x0505. -/
  | sumpOverflow
  /-- ACC_OUT_OVERFLOW, 0x0506. -/
  | accOutOverflow
  /-- INDEX_OUT_OF_RANGE, 0x0507. -/
  | indexOutOfRange
  /-- SELECT_INVALID, 0x0601. -/
  | selectInvalid
  /-- SORTER_CHECK, 0x0602. -/
  | sorterCheck
  /-- ROUND_INVALID, 0x0701. -/
  | roundInvalid
  /-- SLOT_MISMATCH, 0x0702. -/
  | slotMismatch
  /-- LEDGER_CHECK, 0x0703. -/
  | ledgerCheck
  /-- ROW_UNEXPECTED, 0x0704. -/
  | rowUnexpected
  /-- RETURN_INVALID, 0x0705. -/
  | returnInvalid
  /-- COMBINE_INVALID, 0x0706. -/
  | combineInvalid
  /-- STREAM_INVALID, 0x0801. -/
  | streamInvalid
  /-- STREAM_ACCESS_FAULT, 0x0802. -/
  | streamAccessFault
  /-- DESC_OVERRUN, 0x0803. -/
  | descOverrun
  /-- POOL_EMPTY, 0x0901. -/
  | poolEmpty
  /-- BUCKET_TOO_LARGE, 0x0902. -/
  | bucketTooLarge
  /-- HANDLE_INVALID, 0x0903. -/
  | handleInvalid
  /-- REFCOUNT_OVERFLOW, 0x0904. -/
  | refcountOverflow
  /-- VALVE_OVERFLOW, 0x0905. -/
  | valveOverflow
  /-- VALVE_ACCESS_FAULT, 0x0906. -/
  | valveAccessFault
  /-- VALVE_CHECK, 0x0907. -/
  | valveCheck
  /-- POOL_CHECK, 0x0908. -/
  | poolCheck
  /-- VALVE_OP_INVALID, 0x0909. -/
  | valveOpInvalid
  /-- MEMORY_ACCESS_FAULT, 0x0A01. -/
  | memoryAccessFault
  /-- REMOTE_ACCESS_DENIED, 0x0A02. -/
  | remoteAccessDenied
  /-- TARGET_UNREACHABLE, 0x0A03. -/
  | targetUnreachable
  /-- ATOMIC_INVALID, 0x0A04. -/
  | atomicInvalid
  /-- ATOMIC_REFUSED, 0x0A05. -/
  | atomicRefused
  /-- INDETERMINATE, 0x0A06. -/
  | indeterminate
  /-- UPDATE_INVALID, 0x0B01. -/
  | updateInvalid
  /-- SCHEDULE_INVALID, 0x0B02. -/
  | scheduleInvalid
  /-- EPOCH_CHANGE_LATE, 0x0C01. -/
  | epochChangeLate
  /-- GEID_CHANGED, 0x0C02. -/
  | geidChanged
  /-- COLL_INVALID, 0x0D01. -/
  | collInvalid
  /-- COLL_MISMATCH, 0x0D02. -/
  | collMismatch
  /-- COLL_POISONED, 0x0D03. -/
  | collPoisoned
  /-- FLAG_FAULT, 0x0E01. -/
  | flagFault
  /-- CONTEXT_ABORTED, 0x0E02. -/
  | contextAborted
  /-- JOB_ACTIVE, 0x0E03. -/
  | jobActive
  /-- COMMAND_INVALID, 0x0F01. -/
  | commandInvalid
  /-- NO_ENTRY, 0x0F02. -/
  | noEntry
  /-- NO_SUBINDEX, 0x0F03. -/
  | noSubindex
  /-- NOT_WRITABLE, 0x0F04. -/
  | notWritable
  /-- NOT_READABLE, 0x0F05. -/
  | notReadable
  /-- VALUE_INVALID, 0x0F06. -/
  | valueInvalid
  /-- RANGE_INVALID, 0x0F07. -/
  | rangeInvalid
  /-- ACCESS_DENIED, 0x0F08. -/
  | accessDenied
  /-- OP_INVALID, 0x0F09. -/
  | opInvalid
  /-- VALUE_POISONED, 0x0F0A. -/
  | valuePoisoned
  /-- TIMEOUT, 0x0F0B. -/
  | timeout
  /-- NOT_PRIMED, 0x1001. -/
  | notPrimed
  /-- FUNCTION_FAULTED, 0x1002. -/
  | functionFaulted
  /-- SECURITY_REFUSED, 0x1003. -/
  | securityRefused
  /-- POISON_WRITTEN, 0x1101. -/
  | poisonWritten
  /-- CONTROL_CHECK, 0x1102. -/
  | controlCheck
  /-- HUNG_UNIT, 0x1103. -/
  | hungUnit
  /-- ERROR_ESCALATED, 0x1104. -/
  | errorEscalated
  /-- DEVICE_FATAL, 0x1105. -/
  | deviceFatal
  /-- LOCKSTEP_DIVERGED, 0x1106. -/
  | lockstepDiverged
  /-- LOCKSTEP_LOST, 0x1107. -/
  | lockstepLost
deriving DecidableEq, Repr, Inhabited

/-- FREE VALUE (log entry 7). The status code of a record to which the spec gives none (R407, R417), by occasion. -/
opaque freeStatus : Nat → Status

/-- The status code of R380. -/
def Status.code : Status → Nat
  | .strokeUnlocked => 0x0101
  | .periodInvalid => 0x0102
  | .periodChangeLate => 0x0103
  | .strokeOverrun => 0x0104
  | .startMissed => 0x0105
  | .domainMismatch => 0x0106
  | .formatInvalid => 0x0201
  | .versionUnsupported => 0x0202
  | .numericsChanged => 0x0203
  | .residueError => 0x0204
  | .arrayOpInvalid => 0x0301
  | .arrayLayoutConflict => 0x0302
  | .arrayPassOrder => 0x0303
  | .arrayBankEmpty => 0x0304
  | .planInvalid => 0x0401
  | .wellNotOwned => 0x0402
  | .vectorOpInvalid => 0x0403
  | .sparseOpInvalid => 0x0501
  | .sparseFormatInvalid => 0x0502
  | .structViolation => 0x0503
  | .maskNotTransposable => 0x0504
  | .sumpOverflow => 0x0505
  | .accOutOverflow => 0x0506
  | .indexOutOfRange => 0x0507
  | .selectInvalid => 0x0601
  | .sorterCheck => 0x0602
  | .roundInvalid => 0x0701
  | .slotMismatch => 0x0702
  | .ledgerCheck => 0x0703
  | .rowUnexpected => 0x0704
  | .returnInvalid => 0x0705
  | .combineInvalid => 0x0706
  | .streamInvalid => 0x0801
  | .streamAccessFault => 0x0802
  | .descOverrun => 0x0803
  | .poolEmpty => 0x0901
  | .bucketTooLarge => 0x0902
  | .handleInvalid => 0x0903
  | .refcountOverflow => 0x0904
  | .valveOverflow => 0x0905
  | .valveAccessFault => 0x0906
  | .valveCheck => 0x0907
  | .poolCheck => 0x0908
  | .valveOpInvalid => 0x0909
  | .memoryAccessFault => 0x0A01
  | .remoteAccessDenied => 0x0A02
  | .targetUnreachable => 0x0A03
  | .atomicInvalid => 0x0A04
  | .atomicRefused => 0x0A05
  | .indeterminate => 0x0A06
  | .updateInvalid => 0x0B01
  | .scheduleInvalid => 0x0B02
  | .epochChangeLate => 0x0C01
  | .geidChanged => 0x0C02
  | .collInvalid => 0x0D01
  | .collMismatch => 0x0D02
  | .collPoisoned => 0x0D03
  | .flagFault => 0x0E01
  | .contextAborted => 0x0E02
  | .jobActive => 0x0E03
  | .commandInvalid => 0x0F01
  | .noEntry => 0x0F02
  | .noSubindex => 0x0F03
  | .notWritable => 0x0F04
  | .notReadable => 0x0F05
  | .valueInvalid => 0x0F06
  | .rangeInvalid => 0x0F07
  | .accessDenied => 0x0F08
  | .opInvalid => 0x0F09
  | .valuePoisoned => 0x0F0A
  | .timeout => 0x0F0B
  | .notPrimed => 0x1001
  | .functionFaulted => 0x1002
  | .securityRefused => 0x1003
  | .poisonWritten => 0x1101
  | .controlCheck => 0x1102
  | .hungUnit => 0x1103
  | .errorEscalated => 0x1104
  | .deviceFatal => 0x1105
  | .lockstepDiverged => 0x1106
  | .lockstepLost => 0x1107

/-- The code of a status that may be absent: 0x0000 means no status (R380). -/
def statusCode : Option Status → Nat
  | none => 0
  | some s => s.code

end Sys2Proof.Machine
end

