-- ==== Sys2Proof/Machine/Engine.lean ====
section
/-! DEFINITION. What every engine operation of a core amounts to when it issues: the well ranges it reads and writes
(spec/05_core.md R97), and the bytes, flags, statuses and counts that it delivers when it has finished. -/

namespace Sys2Proof.Machine

/-- Bytes that an operation writes to the well when it has finished, with their poison (R104). -/
structure WellWrite where
  addr : Nat
  data : List Byte
  poison : Bool
deriving DecidableEq, Repr

/-- A counter of the dictionary: index, subindex and element number in one key. -/
def ctr (idx sub el : Nat) : Nat := (idx * 256 + sub) * 65536 + el

/-- A sparse operation's part in a session (R128): none, it opens or contributes to it, or it drains and closes it. -/
inductive SessionUse where
  | none | adds | closes
deriving DecidableEq, Repr

/-- The outcome of one engine operation, formed at its issue. -/
structure EngOut where
  /-- R97: lowest byte read and the bytes up to the highest. -/
  rd : Nat × Nat
  wr : Nat × Nat
  writes : List WellWrite
  nflags : Nat
  sflags : Nat
  statuses : List Status
  counts : List (Nat × Nat)
  /-- The array rectangle the operation works on (R78): row band, column band, height and width in bands. -/
  rect : Option (Nat × Nat × Nat × Nat)
  /-- Does the operation drain that rectangle's accumulation (R83)? -/
  drains : Bool
  /-- What the operation does with the open session of the hash accumulator (R128). -/
  session : SessionUse
deriving DecidableEq, Repr

def EngOut.start : EngOut := ⟨(0, 0), (0, 0), [], 0, 0, [], [], none, false, .none⟩

/-- The bounding range of byte ranges (R97); empty ranges do not count. -/
def boundRange (rs : List (Nat × Nat)) : Nat × Nat :=
  match rs.filter fun r => decide (0 < r.2) with
  | [] => (0, 0)
  | r :: rest =>
    let lo := rest.foldl (fun a x => min a x.1) r.1
    let hi := rest.foldl (fun a x => max a (x.1 + x.2)) (r.1 + r.2)
    (lo, hi - lo)

/-- Does a byte range lie in the well (R102)? An empty range at or beyond the end does not. -/
def inWell (a n : Nat) : Bool := decide (a < wellBytes) && decide (a + n ≤ wellBytes)

/-- Bytes that no rule gives: undefined contents at occasion `k` (log entry 2). -/
def freeBytes (k a n : Nat) : List Byte := (List.range n).map fun i => Config.freeByte k (a + i)

/-- Cut a write at line boundaries, so that each line carries its own poison: element `i` of `bits` bits starts at bit
i × bits of the run, and `pz i` says whether element i is poisoned (R104). -/
def writeByLine (addr : Nat) (data : List Byte) (bits count : Nat) (pz : Nat → Bool) : List WellWrite :=
  (linesOf addr data.length).map fun l =>
    let lo := max addr (l * 64)
    let hi := min (addr + data.length) (l * 64 + 64)
    let i0 := (lo - addr) * 8 / bits
    let i1 := min count (ceilDiv ((hi - addr) * 8) bits)
    ⟨lo, (data.drop (lo - addr)).take (hi - lo), (List.range (i1 - i0)).any fun j => pz (i0 + j)⟩

end Sys2Proof.Machine
end

