-- ==== Sys2Proof/Machine/Array.lean ====
section
/-! DEFINITION. The matrix array of a core: spec/04_matrix_array.md R75 to R91. -/

namespace Sys2Proof.Machine

/-- An ARRAY_OP (R89). Shapes and origins are in bands of 32 cells. -/
structure ArrayOp where
  outMx : Bool
  cols : Nat
  co : Nat
  rows : Nat
  ro : Nat
  reuse : Bool
  pass : Nat
  scaling : Nat
  fmtOut : Nat
  fmtB : Nat
  fmtA : Nat
  m : Nat
  outStride : Nat
  aStride : Nat
  outAddr : Nat
  aScaleAddr : Nat
  aAddr : Nat
  bScaleAddr : Nat
  bAddr : Nat
  tB : Nat
  tA : Nat
deriving DecidableEq, Repr

/-- The fields of R89. -/
def ArrayOp.ofBody (w : Nat) : ArrayOp :=
  { outMx := bit w 245, cols := fld w 244 243, co := fld w 242 241, rows := fld w 240 239, ro := fld w 238 237,
    reuse := bit w 236, pass := fld w 235 234, scaling := fld w 233 232, fmtOut := fld w 231 228, fmtB := fld w 227 224,
    fmtA := fld w 223 220, m := fld w 219 211, outStride := fld w 210 195, aStride := fld w 194 179,
    outAddr := fld w 178 156, aScaleAddr := fld w 155 133, aAddr := fld w 132 110, bScaleAddr := fld w 109 87,
    bAddr := fld w 86 64, tB := fld w 63 32, tA := fld w 31 0 }

/-- Bands of a ROWS or COLS code: 1, 2 or 4 (R89). -/
def bandsOf (code : Nat) : Nat := 2 ^ code

/-- Elements per cell and cycle of a format (R75). FP32 counts as 1 here; its width is halved instead. -/
def cellElems (fmt : Nat) : Nat :=
  match fmt with
  | 3 => 2 | 4 => 2 | 8 => 2 | 5 => 4 | 6 => 4 | 7 => 4 | 9 => 4 | _ => 1

/-- e of a pair of formats (R76). -/
def pairElems (fa fb : Nat) : Nat := min (cellElems fa) (cellElems fb)

/-- K_pass of a rectangle of `hb` bands (R75, R76). -/
def kPassOf (fa fb hb : Nat) : Nat := 32 * hb * pairElems fa fb

/-- N_op of a rectangle `wb` bands wide (R75). -/
def nOpOf (fa wb : Nat) : Nat := if fa = 0 then 16 * wb else 32 * wb

/-- A stationary bank: B elements by row of k, scale bytes by block row (R80, R81). `known` is false where a later
operation would read it under another format or geometry than it was loaded with. -/
structure Bank where
  fmt : Nat
  scaling : Nat
  kPass : Nat
  nOp : Nat
  rows : List (List Nat)
  scales : List (List Nat)
  poison : Bool
  known : Bool
deriving DecidableEq, Repr

/-- The operands of one pass of an accumulation. -/
structure ArrayPass where
  fa : Nat
  fb : Nat
  scaling : Nat
  ta : Nat
  tb : Nat
  a : List (List Nat)
  aScales : List (List Nat)
  bank : Bank
  poison : Bool
deriving DecidableEq, Repr

/-- A rectangle of the array in use (R77, R78): place and shape in bands, the open accumulation (M and its passes so
far), operations still draining, and the active and the shadow bank (R80). -/
structure Rect where
  ro : Nat
  co : Nat
  h : Nat
  w : Nat
  openM : Option Nat
  passes : List ArrayPass
  draining : Nat
  bank : Option Bank
  shadow : Option Bank
deriving DecidableEq, Repr

/-- A rectangle that nothing has used yet. -/
def Rect.empty (key : Nat × Nat × Nat × Nat) : Rect := ⟨key.1, key.2.1, key.2.2.1, key.2.2.2, none, [], 0, none, none⟩

/-- A tile is loaded into the shadow bank, and the banks exchange roles at its operation's first row (R80). -/
def Rect.load (r : Rect) (tile : Bank) : Rect := { r with bank := some tile, shadow := r.bank }

def Rect.key (r : Rect) : Nat × Nat × Nat × Nat := (r.ro, r.co, r.h, r.w)

/-- Claimed: from FIRST or ONLY until the last row of LAST or ONLY has drained (R78). -/
def Rect.claimed (r : Rect) : Bool := r.openM.isSome || decide (0 < r.draining)

/-- Do two rectangles share a region? -/
def rectMeets (a b : Nat × Nat × Nat × Nat) : Bool :=
  overlaps a.1 a.2.2.1 b.1 b.2.2.1 && overlaps a.2.1 a.2.2.2 b.2.1 b.2.2.2

/-- Origin a multiple of the size, within the grid (R77). -/
def rectOk (ro co h w : Nat) : Bool :=
  decide (h ≤ 4) && decide (w ≤ 4) && decide (ro % h = 0) && decide (co % w = 0) && decide (ro + h ≤ 4) && decide (co + w ≤ 4)

/-- The output format rule of R85. -/
def outFmtOk (op : ArrayOp) : Bool :=
  if intResult op.fmtA op.fmtB op.scaling then (op.fmtOut = 10 || op.fmtOut = 8) && !op.outMx
  else if op.outMx then decide (3 ≤ op.fmtOut) && decide (op.fmtOut ≤ 7) && decide (nOpOf op.fmtA (bandsOf op.cols) % 32 = 0)
  else decide (op.fmtOut ≤ 7)

/-- Bytes of one output row: elements, then scale bytes (R85). -/
def outRowBytes (op : ArrayOp) : Nat :=
  let n := nOpOf op.fmtA (bandsOf op.cols)
  packedBytes op.fmtOut n + (if op.outMx then n / 32 else 0)

/-- Rows of `n` bytes at `a`, `m` of them a stride apart, lie within the well (R82). -/
def rowsInWell (a stride n m : Nat) : Bool := inWell a n && decide (a + (m - 1) * stride + n ≤ wellBytes)

/-- Rows of an A operand, or their scale bytes: within their stride too (R82). Elements and scales each fit the stride by
themselves: the two planes have their own first row (DESIGN CHOICE, log entry 96). -/
def rowsOk (a stride n m : Nat) : Bool := decide (n ≤ stride) && rowsInWell a stride n m

/-- Does an operation write results: PASS ONLY or LAST (R83)? -/
def ArrayOp.writes (op : ArrayOp) : Bool := op.pass = 0 || op.pass = 3

/-- The well ranges of an operation with K_pass `k` (R81, R82, R85): reads, then the output. -/
def arrayRanges (op : ArrayOp) (k : Nat) (loadsB : Bool) : List (Nat × Nat) × (Nat × Nat) :=
  let n := nOpOf op.fmtA (bandsOf op.cols)
  let bs := blockSize op.scaling
  let span := (op.m - 1) * op.aStride
  let rd := (op.aAddr, span + packedBytes op.fmtA k)
    :: (if bs = 0 then [] else [(op.aScaleAddr, span + k / bs)])
    ++ (if loadsB then (op.bAddr, k * packedBytes op.fmtB n) :: (if bs = 0 then [] else [(op.bScaleAddr, k / bs * n)]) else [])
  (rd, if op.writes then (op.outAddr, (op.m - 1) * op.outStride + outRowBytes op) else (0, 0))

/-- Checks of R77, R82 and R89 that concern shape, M, addresses and strides. Addresses that the operation does not use are
not checked: scale planes without block scaling, the output of an operation that writes none (DESIGN CHOICE, log entry
96). -/
def arrayShapeOk (op : ArrayOp) (k : Nat) (loadsB : Bool) : Bool :=
  let n := nOpOf op.fmtA (bandsOf op.cols)
  let bs := blockSize op.scaling
  decide (op.cols ≠ 3) && decide (op.rows ≠ 3) && rectOk op.ro op.co (bandsOf op.rows) (bandsOf op.cols)
    && decide (1 ≤ op.m) && decide (op.m ≤ 256)
    && rowsOk op.aAddr op.aStride (packedBytes op.fmtA k) op.m
    && (bs = 0 || rowsOk op.aScaleAddr op.aStride (k / bs) op.m)
    && (!op.writes || rowsInWell op.outAddr op.outStride (outRowBytes op) op.m)
    && (!loadsB || (inWell op.bAddr (k * packedBytes op.fmtB n) && (bs = 0 || inWell op.bScaleAddr (k / bs * n))))

/-- The A rows of an operation: element codes and scale bytes (R82). -/
def readARows (mem : Memory) (base : Nat) (op : ArrayOp) (k : Nat) : List (List Nat) × List (List Nat) :=
  let bs := blockSize op.scaling
  ((List.range op.m).map fun r => elems mem (base + op.aAddr + r * op.aStride) op.fmtA k,
   (List.range op.m).map fun r => if bs = 0 then [] else (mem.read (base + op.aScaleAddr + r * op.aStride) (k / bs)).map (·.toNat))

/-- A dense B tile of `k` rows (R81). -/
def readBTile (mem : Memory) (base : Nat) (op : ArrayOp) (k : Nat) : Bank :=
  let n := nOpOf op.fmtA (bandsOf op.cols)
  let bs := blockSize op.scaling
  { fmt := op.fmtB, scaling := op.scaling, kPass := k, nOp := n, known := true
    rows := (List.range k).map fun j => elems mem (base + op.bAddr + j * packedBytes op.fmtB n) op.fmtB n
    scales := if bs = 0 then [] else
      (List.range (k / bs)).map fun j => (mem.read (base + op.bScaleAddr + j * n) n).map (·.toNat)
    poison := mem.anyPoison (base + op.bAddr) (k * packedBytes op.fmtB n)
      || (bs != 0 && mem.anyPoison (base + op.bScaleAddr) (k / bs * n)) }

/-- Is any A element or scale of the operation read poisoned? -/
def aPoison (mem : Memory) (base : Nat) (op : ArrayOp) (k : Nat) : Bool :=
  let bs := blockSize op.scaling
  (List.range op.m).any fun r =>
    mem.anyPoison (base + op.aAddr + r * op.aStride) (packedBytes op.fmtA k)
      || (bs != 0 && mem.anyPoison (base + op.aScaleAddr + r * op.aStride) (k / bs))

/-- One drained row (R85): results as FP32 or INT32 patterns into the output format, with OCP scales after the
elements where OUT_MX asks for them. -/
def drainRow (op : ArrayOp) (isInt : Bool) (old : Byte) (vals : List Nat) : List Byte × Nat :=
  if op.outMx then
    let bl := (chunks 32 vals).map fun b => quantOcp op.fmtOut (fun _ => .nearest) 0 b
    (packElems op.fmtOut old (bl.map fun b => b.2.1).flatten ++ bl.map (fun b => BitVec.ofNat 8 b.1),
     bl.foldl (fun f b => lor f b.2.2) 0)
  else
    let cs := vals.map fun v =>
      if isInt then (if op.fmtOut = 10 then (v, 0) else intEncode 8 .nearest (fpOfInt (signed 32 v)))
      else if op.fmtOut = 0 then (v, 0) else fmtEncode op.fmtOut .nearest (f32 v)
    (packElems op.fmtOut old (cs.map (·.1)), cs.foldl (fun f c => lor f c.2) 0)

/-- Write row `r` of results (R85): the bytes, the flags, and how many of its dot products were truncated. -/
def drainOne (mem : Memory) (base : Nat) (op : ArrayOp) (poison : Bool) (r : Nat) (vs : List DotResult) :
    WellWrite × Nat × Nat :=
  let a := op.outAddr + r * op.outStride
  let old := mem.byte (base + a + packedBytes op.fmtOut vs.length - 1)
  let d := drainRow op (intResult op.fmtA op.fmtB op.scaling) old (vs.map DotResult.val)
  (⟨a, d.1, poison⟩, vs.foldl (fun f v => lor f v.flags) d.2, (vs.filter DotResult.trunc).length)

/-- Write rows of results from OUT_ADDR on (R85). -/
def drainRows (mem : Memory) (base : Nat) (op : ArrayOp) (poison : Bool) (rows : List (List DotResult)) :
    List WellWrite × Nat × Nat :=
  let out := (List.zip (List.range rows.length) rows).map fun x => drainOne mem base op poison x.1 x.2
  (out.map (·.1), out.foldl (fun f o => lor f o.2.1) 0, out.foldl (fun n o => n + o.2.2) 0)

/-- Output rows whose value no rule gives (log entry 6): undefined bytes. -/
def freeRows (k base : Nat) (op : ArrayOp) (poison : Bool) : List WellWrite :=
  (List.range op.m).map fun r =>
    let a := op.outAddr + r * op.outStride
    ⟨a, freeBytes k (base + a) (outRowBytes op), poison⟩

/-- Column `n` of a list of rows. -/
def column (n : Nat) (rows : List (List Nat)) : List Nat := rows.map fun r => r.getD n 0

/-- The whole accumulation: the dot product over every pass, row by row and column by column (R83, R84). -/
def accumulate (ps : List ArrayPass) (m n : Nat) : List (List DotResult) :=
  match ps with
  | [] => []
  | p :: _ =>
    (List.range m).map fun r =>
      let a : DotVec := ⟨p.fa, (ps.map fun q => q.a.getD r []).flatten, (ps.map fun q => q.aScales.getD r []).flatten, p.ta⟩
      (List.range n).map fun c =>
        let b : DotVec := ⟨p.fb, (ps.map fun q => column c q.bank.rows).flatten, (ps.map fun q => column c q.bank.scales).flatten, p.tb⟩
        dot p.scaling a b (a.codes.map fun _ => true)

/-- Do the passes of one accumulation agree in formats, scaling and tensor scales, so that R84 gives its value? -/
def passesAgree (ps : List ArrayPass) : Bool :=
  match ps with
  | [] => true
  | p :: rest => ps.all (·.bank.known) && rest.all fun q =>
      q.fa = p.fa && q.fb = p.fb && q.scaling = p.scaling && (p.scaling != 2 || (q.ta = p.ta && q.tb = p.tb))

/-- Look up the rectangle with exactly this place and shape. -/
def findRect (rs : List Rect) (k : Nat × Nat × Nat × Nat) : Option Rect := rs.find? fun r => decide (r.key = k)

/-- Replace or add a rectangle; rectangles of another layout that it meets are gone, with their banks (R80). -/
def putRect (rs : List Rect) (r : Rect) : List Rect := r :: rs.filter fun x => !rectMeets x.key r.key

/-- Counter key of the core's ARRAY_ROWS_ISSUED (R92). -/
def ctrRowsIssued (core : Nat) : Nat := ctr 0x8020 2 core

/-- The pass order rule of R83. -/
def passOrderOk (r : Rect) (op : ArrayOp) : Bool :=
  match r.openM with
  | none => decide (op.pass ≤ 1)
  | some m => decide (2 ≤ op.pass) && decide (m = op.m)

/-- The rectangle that an operation names (R77). -/
def ArrayOp.rect (op : ArrayOp) : Nat × Nat × Nat × Nat := (op.ro, op.co, bandsOf op.rows, bandsOf op.cols)

/-- K_pass of an operation (R75, R76). -/
def ArrayOp.kPass (op : ArrayOp) : Nat := kPassOf op.fmtA op.fmtB (bandsOf op.rows)

/-- The status that an operation's own fields give it, if any (R76, R77, R82, R85, R89). FMT_OUT and OUT_MX are checked in
every operation, and of several broken rules a reserved shape code comes first, then the formats, then origin, M,
addresses and strides (DESIGN CHOICE, log entry 56). -/
def arrayReject (op : ArrayOp) : Option Status :=
  if op.cols = 3 || op.rows = 3 then some .arrayOpInvalid
  else if !dotPairOk op.fmtA op.fmtB op.scaling || !outFmtOk op then some .formatInvalid
  else if !arrayShapeOk op op.kPass (!op.reuse) then some .arrayOpInvalid
  else none

/-- Does a claimed rectangle of another shape or origin stand in the way (R78)? -/
def layoutMeets (rs : List Rect) (key : Nat × Nat × Nat × Nat) : Bool :=
  rs.any fun r => r.claimed && rectMeets r.key key && decide (r.key ≠ key)

/-- Issue an ARRAY_OP whose own fields are in order (R78 to R85, R90): a status that rejects it, or the rectangles after
it and its outcome. `k` is the occasion of any undefined result. -/
def arrayIssue (mem : Memory) (core k : Nat) (rs : List Rect) (op : ArrayOp) : Except Status (List Rect × EngOut) :=
  let base := wellBase core
  let wb := bandsOf op.cols
  let kp := op.kPass
  let key := op.rect
  if layoutMeets rs key then .error .arrayLayoutConflict
  else
    let r := (findRect rs key).getD (Rect.empty key)
    if !passOrderOk r op then .error .arrayPassOrder
    else if op.reuse && r.bank.isNone then .error .arrayBankEmpty
    else
      let r1 := if op.reuse then r else r.load (readBTile mem base op kp)
      let bank0 := r1.bank.getD (readBTile mem base op kp)
      let bank := { bank0 with known := bank0.known && bank0.fmt = op.fmtB && bank0.scaling = op.scaling && bank0.kPass = kp && bank0.nOp = nOpOf op.fmtA wb }
      let a := readARows mem base op kp
      let p : ArrayPass := ⟨op.fmtA, op.fmtB, op.scaling, op.tA, op.tB, a.1, a.2, bank, aPoison mem base op kp || bank.poison⟩
      let ps := r.passes ++ [p]
      let rg := arrayRanges op kp (!op.reuse)
      let out := { EngOut.start with
        rd := boundRange rg.1, wr := rg.2, counts := [(ctrRowsIssued core, op.m)], rect := some key, drains := op.writes }
      if !op.writes then .ok (putRect rs { r1 with openM := some op.m, passes := ps }, out)
      else
        let poison := ps.any (·.poison)
        let rs' := putRect rs { r1 with openM := none, passes := [], draining := r.draining + 1 }
        if passesAgree ps then
          let d := drainRows mem base op poison (accumulate ps op.m (nOpOf op.fmtA wb))
          .ok (rs', { out with writes := d.1, nflags := d.2.1, counts := (ctr 0x8010 6 0, d.2.2) :: out.counts })
        else .ok (rs', { out with writes := freeRows k base op poison })

/-- An operation of a rectangle has finished: one that drains releases its claim (R78). -/
def rectDrained (rs : List Rect) (out : EngOut) : List Rect :=
  if out.drains then rs.map fun r => if some r.key = out.rect then { r with draining := r.draining - 1 } else r else rs

/-- An error in an operation of a rectangle whose accumulation is still open poisons that accumulation (R68, R86). -/
def rectPoisoned (rs : List Rect) (out : EngOut) : List Rect :=
  rs.map fun r => if some r.key = out.rect then { r with passes := r.passes.map fun p => { p with poison := true } } else r

end Sys2Proof.Machine
end

