-- ==== Sys2Proof/Machine/Sparse.lean ====
section
/-! DEFINITION. The sparse unit of a core: spec/06_sparsity.md R112 to R136. -/

namespace Sys2Proof.Machine

/-- A SPARSE_OP (R117). -/
structure SparseOp where
  sop : Nat
  addr0 : Nat
  addr1 : Nat
  addr2 : Nat
  arg32 : Nat
  count : Nat
  fmt : Nat
  compact : Bool
  bKind : Nat
  strict : Bool
  transposable : Bool
deriving DecidableEq, Repr

/-- The fields of R117. -/
def SparseOp.ofBody (w : Nat) : SparseOp :=
  { sop := fld w 255 248, addr0 := fld w 239 217, addr1 := fld w 216 194,
    addr2 := fld w 193 171, arg32 := fld w 170 139, count := fld w 138 122, fmt := fld w 121 118,
    compact := bit w 117, bKind := fld w 116 115, strict := bit w 114, transposable := bit w 113 }

/-- A BITMAP_REF (R115). -/
structure BitmapRef where
  fmt : Nat
  scaling : Nat
  l : Nat
  rows : Nat
  scaleAddr : Nat
  valueAddr : Nat
  maskAddr : Nat
  indexAddr : Nat
deriving DecidableEq, Repr

def BitmapRef.ofWord (w : Nat) : BitmapRef :=
  { fmt := fld w 199 196, scaling := fld w 195 194, l := fld w 193 170, rows := fld w 169 146,
    scaleAddr := fld w 145 123, valueAddr := fld w 122 100, maskAddr := fld w 99 77, indexAddr := fld w 76 54 }

/-- One stored group of 16 elements: its row, its first logical position, its ELEMENT_MASK, the ordinal of its first
stored element (R116), and the well address and index of that element in its superblock's value run (R114). -/
structure Group where
  row : Nat
  pos : Nat
  mask : Nat
  ordinal : Nat
  run : Nat
  idx : Nat
deriving DecidableEq, Repr

/-- Number of set bits of a 16-bit mask. -/
def popcount16 (w : Nat) : Nat := (bitsOf 16 w).length

/-- Superblock records per row (R113). -/
def superblocksOf (r : BitmapRef) : Nat := ceilDiv r.l 4096

/-- Bytes of a superblock's value run of `k` elements, padded to a whole byte, and for FP6 to a whole group of four
(R114). -/
def runBytes (fmt k : Nat) : Nat := if fmtBits fmt = 6 then 3 * ceilDiv k 4 else packedBytes fmt k

/-- One superblock as its record and masks give it (R113, R114): its mask offset and mask bytes, its value offset, its
groups, and whether its masks keep R115. -/
structure Superblock where
  moff : Nat
  mbytes : Nat
  voff : Nat
  count : Nat
  groups : List Group
  ok : Bool
deriving DecidableEq, Repr

/-- Walk the masks of superblock `sb` of a row; its first stored element has ordinal `ord`. -/
def superblockAt (mem : Memory) (base : Nat) (r : BitmapRef) (row sb ord : Nat) : Superblock :=
  let rec16 := mem.le (base + r.indexAddr + 16 * (row * superblocksOf r + sb)) 16
  let moff := fld rec16 79 40
  let voff := fld rec16 39 0
  let group := fun (b : Nat) (s : Superblock) (g : Nat) =>
    let em := mem.le (base + r.maskAddr + moff + s.mbytes) 2
    { s with
      mbytes := s.mbytes + 2
      count := s.count + popcount16 em
      groups := s.groups ++ [⟨row, sb * 4096 + b * 256 + g * 16, em, ord + s.count, r.valueAddr + voff, s.count⟩]
      ok := s.ok && em != 0 }
  let block := fun (s : Superblock) (b : Nat) =>
    let gm := mem.le (base + r.maskAddr + moff + s.mbytes) 2
    (bitsOf 16 gm).foldl (group b) { s with mbytes := s.mbytes + 2, ok := s.ok && gm != 0 }
  let s := (bitsOf 16 (fld rec16 95 80)).foldl block ⟨moff, 0, voff, 0, [], true⟩
  { s with ok := s.ok && s.count = fld rec16 108 96 && moff % 2 = 0 && (s.mbytes = 0 || inWell (r.maskAddr + moff) s.mbytes)
                 && (s.count = 0 || inWell (r.valueAddr + voff) (runBytes r.fmt s.count)) }

/-- Every superblock of a bitmap operand in row-major order (R113, R116). -/
def superblocks (mem : Memory) (base : Nat) (r : BitmapRef) : List Superblock :=
  ((List.range (r.rows * superblocksOf r)).foldl (fun (st : List Superblock × Nat) i =>
    let s := superblockAt mem base r (i / superblocksOf r) (i % superblocksOf r) st.2
    (st.1 ++ [s], st.2 + s.count)) ([], 0)).1

/-- The index plane, and the scale plane of a block-scaled operand (R48, R113). -/
def indexRange (r : BitmapRef) : Nat × Nat := (r.indexAddr, 16 * r.rows * superblocksOf r)
def scaleRange (r : BitmapRef) : Nat × Nat :=
  if r.scaling = 0 then (0, 0) else (r.scaleAddr, r.rows * (r.l / blockSize r.scaling))

/-- Does a range that may be empty lie in the well? -/
def rangeOk (x : Nat × Nat) : Bool := x.2 = 0 || inWell x.1 x.2

/-- Every group of a bitmap operand in row-major order with its ordinals (R114, R116); `none` is SPARSE_FORMAT_INVALID
(R115). -/
def bitmapGroups (mem : Memory) (base : Nat) (r : BitmapRef) : Option (List Group) :=
  if !rangeOk (indexRange r) || !rangeOk (scaleRange r) then none
  else
    let ss := superblocks mem base r
    if ss.all (·.ok) then some (ss.flatMap (·.groups)) else none

/-- Stored elements of a list of groups. -/
def groupsNnz (gs : List Group) : Nat := gs.foldl (fun c x => c + popcount16 x.mask) 0

/-- The code of stored element `j` (counted within the group). -/
def groupCode (mem : Memory) (base : Nat) (fmt : Nat) (g : Group) (j : Nat) : Nat := elemAt mem (base + g.run) fmt (g.idx + j)

/-- The mask and value runs of superblocks. -/
def maskRanges (r : BitmapRef) (ss : List Superblock) : List (Nat × Nat) := ss.map fun s => (r.maskAddr + s.moff, s.mbytes)
def valueRanges (r : BitmapRef) (ss : List Superblock) : List (Nat × Nat) :=
  ss.map fun s => (r.valueAddr + s.voff, runBytes r.fmt s.count)

/-- The well ranges of a bitmap operand's planes. -/
def bitmapRanges (mem : Memory) (base : Nat) (r : BitmapRef) : List (Nat × Nat) :=
  let ss := superblocks mem base r
  indexRange r :: scaleRange r :: (maskRanges r ss ++ valueRanges r ss)

/-- Is any line of well ranges poisoned? -/
def poisonIn (mem : Memory) (base : Nat) (rs : List (Nat × Nat)) : Bool := rs.any fun x => mem.anyPoison (base + x.1) x.2

/-- The bytes that hold stored elements j0 to j0 + n − 1 of a group. -/
def groupBytes (fmt : Nat) (g : Group) (j0 n : Nat) : Nat × Nat :=
  let b := fmtBits fmt * (g.idx + j0)
  (g.run + b / 8, ceilDiv (b % 8 + fmtBits fmt * n) 8)

/-- The stored elements of a group whose ordinals lie in [lo, hi): the first, counted in the group, and their number. -/
def groupPart (g : Group) (lo hi : Nat) : Nat × Nat :=
  let a := max lo g.ordinal
  (a - g.ordinal, min hi (g.ordinal + popcount16 g.mask) - a)

/-- Read a BITMAP_REF at a well address: a status where it is refused (R44, R48, R49, R461), else its fields. -/
def readRef (mem : Memory) (base a : Nat) : Except Status BitmapRef :=
  if !inWell a 32 then .error .sparseOpInvalid
  else if mem.anyPoison (base + a) 32 then .error .sparseOpInvalid
  else
    let r := BitmapRef.ofWord (mem.le (base + a) 32)
    if !pairOk r.fmt r.scaling then .error .formatInvalid
    else if r.l = 0 || r.rows = 0 then .error .sparseOpInvalid
    else if r.scaling != 0 && r.l % blockSize r.scaling != 0 then .error .formatInvalid
    else .ok r

/-! ### GEMM (R118 to R127) -/

/-- The compaction unit (R124). -/
def compactUnit (op : SparseOp) (fmtA : Nat) : Nat :=
  if fmtA ≤ 2 then 32 else if 2 ≤ op.bKind then 4 else 1

/-- Is an A element zero for compaction (R124)? -/
def aZero (t : ArrayOp) (codes scales : List Nat) (k : Nat) : Bool :=
  let bs := blockSize t.scaling
  let s := if bs = 0 then .plain 1 0 else blockScale t.scaling t.tA (scales.getD (k / bs) 0)
  (elemVal t.fmtA t.scaling s (codes.getD k 0)).isZero

/-- The kept units of an operation (R124): all of them without COMPACT. -/
def keptUnits (op : SparseOp) (t : ArrayOp) (a : List (List Nat)) (sc : List (List Nat)) (kAll : Nat) : List Bool :=
  let u := compactUnit op t.fmtA
  (List.range (kAll / u)).map fun i =>
    !op.compact || (List.zip a sc).any fun (row, s) => (List.range u).any fun j => !aZero t row s (i * u + j)

/-- The pass forming of R125: for each pass the units it takes. `fuel` bounds the passes. -/
def formPasses (u kp kd kAll : Nat) (narrow : Bool) (kept : List Bool) : Nat → Nat → List (List Nat)
  | 0, _ => []
  | fuel + 1, k =>
    if kAll ≤ k then []
    else
      let stop := min (k + 8 * kd) kAll
      let stop := if narrow then min stop ((k / 4096 + 1) * 4096) else stop
      let units := (List.range (ceilDiv (stop - k) u)).map (· + k / u)
      let taken := (units.filter fun i => kept.getD i false).take (kp / u)
      let full := decide (taken.length = kp / u)
      let next := if full then (taken.getLastD 0 + 1) * u else stop
      let rest := formPasses u kp kd kAll narrow kept fuel (max next (k + u))
      if taken.isEmpty then rest else taken :: rest

/-- The B operand of a GEMM expanded to K rows of N_op codes with its scale rows (R119), the indices beyond the operand and
the planes read. -/
structure GemmB where
  rows : List (List Nat)
  scales : List (List Nat)
  /-- Poison of what is read whatever units are kept: index, masks, scales (R126). -/
  poison : Bool
  /-- Poison of each k row's stored elements: rows of dropped units are not loaded (R124). -/
  rowPoison : List Bool
  beyond : Nat
  ranges : List (Nat × Nat)
  /-- Mask positions: for each k row, whether column n holds a mask position (2-of-4 kinds). -/
  masks : List (List Bool)
deriving DecidableEq, Repr

/-- Is an element of a B operand non-zero? One in a block of zero scale is an exact +0 whatever its code (R51). -/
def bNonZero (t : ArrayOp) (scales : List (List Nat)) (k c code : Nat) : Bool :=
  let bs := blockSize t.scaling
  let s := if bs = 0 then .plain 1 0 else blockScale t.scaling t.tB ((scales.getD (k / bs) []).getD c 0)
  !(elemVal t.fmtB t.scaling s code).isZero

/-- `l` with each element's place. -/
def placed {α : Type} (l : List α) : List (Nat × α) := List.zip (List.range l.length) l

/-- B stored dense (kinds 0b00 and 0b11, R119). -/
def gemmDense (mem : Memory) (base : Nat) (t : ArrayOp) (kAll : Nat) : Except Status GemmB :=
  let n := nOpOf t.fmtA (bandsOf t.cols)
  let bs := blockSize t.scaling
  let nb := packedBytes t.fmtB n
  let sc := (t.bScaleAddr, if bs = 0 then 0 else kAll / bs * n)
  if !inWell t.bAddr (kAll * nb) || !rangeOk sc then .error .arrayOpInvalid
  else
    let b := readBTile mem base t kAll
    .ok ⟨b.rows, b.scales, poisonIn mem base [sc], (List.range kAll).map fun k => mem.anyPoison (base + t.bAddr + k * nb) nb,
      0, [(t.bAddr, kAll * nb), sc],
      (placed b.rows).map fun r => (placed r.2).map fun x => bNonZero t b.scales r.1 x.1 x.2⟩

/-- B as a bitmap operand, row n the output column n (kind 0b01, R119). -/
def gemmBitmap (mem : Memory) (base : Nat) (t : ArrayOp) (kAll : Nat) (r : BitmapRef) : Except Status GemmB :=
  let n := nOpOf t.fmtA (bandsOf t.cols)
  let bs := blockSize t.scaling
  if r.rows != n || r.l != kAll || r.fmt != t.fmtB || r.scaling != t.scaling then .error .sparseOpInvalid
  else match bitmapGroups mem base r with
    | none => .error .sparseFormatInvalid
    | some gs =>
      let find := fun (c k : Nat) => gs.find? fun g => g.row = c && decide (g.pos ≤ k) && decide (k < g.pos + 16) && bit g.mask (k - g.pos)
      let place := fun (g : Group) (k : Nat) => popcount16 (g.mask % 2 ^ (k - g.pos))
      let code := fun (c k : Nat) => ((find c k).map fun g => groupCode mem base r.fmt g (place g k)).getD 0
      let beyond := gs.foldl (fun c g => c + ((bitsOf 16 g.mask).filter fun j => decide (r.l ≤ g.pos + j)).length) 0
      .ok ⟨(List.range kAll).map fun k => (List.range n).map fun c => code c k,
        if bs = 0 then [] else (List.range (kAll / bs)).map fun j =>
          (List.range n).map fun c => (mem.byte (base + r.scaleAddr + c * (kAll / bs) + j)).toNat,
        poisonIn mem base (indexRange r :: scaleRange r :: maskRanges r (superblocks mem base r)),
        (List.range kAll).map fun k => (List.range n).any fun c =>
          (find c k).any fun g => poisonIn mem base [groupBytes r.fmt g (place g k) 1],
        beyond, bitmapRanges mem base r, []⟩

/-- B as 2-of-4 compressed (kind 0b10, R119). -/
def gemmCompressed (mem : Memory) (base : Nat) (t : ArrayOp) (kAll : Nat) (r : BitmapRef) : Except Status GemmB :=
  let n := nOpOf t.fmtA (bandsOf t.cols)
  let bs := blockSize t.scaling
  let vb := packedBytes t.fmtB n
  let mb := packedBytes 7 n
  let vals := (r.valueAddr, kAll / 2 * vb)
  let masks := (r.maskAddr, kAll / 4 * mb)
  let sc := (r.scaleAddr, if bs = 0 then 0 else kAll / bs * n)
  let slots := (List.range (kAll / 4)).map fun q => elems mem (base + r.maskAddr + q * mb) 7 n
  let slot := fun (k c : Nat) => (slots.getD (k / 4) []).getD c 0
  if !inWell vals.1 vals.2 || !inWell masks.1 masks.2 || !rangeOk sc then .error .sparseOpInvalid
  else if slots.any fun row => row.any fun x => decide (x / 4 ≤ x % 4) then .error .sparseFormatInvalid
  else
    let stored := (List.range (kAll / 2)).map fun j => elems mem (base + r.valueAddr + j * vb) t.fmtB n
    let code := fun (k c : Nat) =>
      if slot k c % 4 = k % 4 then (stored.getD (k / 4 * 2) []).getD c 0
      else if slot k c / 4 = k % 4 then (stored.getD (k / 4 * 2 + 1) []).getD c 0 else 0
    .ok ⟨(List.range kAll).map fun k => (List.range n).map fun c => code k c,
      if bs = 0 then [] else (List.range (kAll / bs)).map fun j => (mem.read (base + r.scaleAddr + j * n) n).map (·.toNat),
      poisonIn mem base [sc],
      (List.range kAll).map fun k =>
        poisonIn mem base [(r.valueAddr + k / 4 * 2 * vb, 2 * vb), (r.maskAddr + k / 4 * mb, mb)],
      0, [vals, masks, sc],
      (List.range kAll).map fun k => (List.range n).map fun c =>
        decide (slot k c % 4 = k % 4) || decide (slot k c / 4 = k % 4)⟩

/-- Structured violations among k-groups (R122): groups with three or four mask positions in some column. -/
def structViolations (b : GemmB) (groups : List Nat) (n : Nat) : Nat :=
  (groups.filter fun q => (List.range n).any fun c =>
    decide (2 < ((List.range 4).filter fun j => (b.masks.getD (4 * q + j) []).getD c false).length)).length

/-- Does every 4 × 4 tile of the kept k-groups hold at most two mask positions in each k row, and each group at most
two (R123)? -/
def transposeOk (b : GemmB) (groups : List Nat) (n : Nat) : Bool :=
  structViolations b groups n = 0 && groups.all fun q => (List.range 4).all fun j => (List.range (n / 4)).all fun c4 =>
    decide (((List.range 4).filter fun c => (b.masks.getD (4 * q + j) []).getD (4 * c4 + c) false).length ≤ 2)

/-- The k-groups of four that a pass's units touch. -/
def groupsOfUnits (u : Nat) (units : List Nat) : List Nat :=
  dedupe (units.flatMap fun i => (List.range u).map fun j => (i * u + j) / 4)

/-- Which B operand a kind names, with its BITMAP_REF where it has one (R119, R121). -/
def gemmB (mem : Memory) (base : Nat) (op : SparseOp) (t : ArrayOp) (kAll : Nat) : Except Status GemmB :=
  let w := mem.le (base + op.addr0 + 32) 32
  let r := BitmapRef.ofWord w
  if op.bKind = 1 then
    (if !pairOk r.fmt r.scaling || (r.scaling != 0 && r.l % blockSize r.scaling != 0) then .error .formatInvalid
     else gemmBitmap mem base t kAll r)
  else if op.bKind = 2 then
    (if r.fmt != 0 || r.scaling != 0 || r.l != 0 || r.rows != 0 || r.indexAddr != 0 then .error .sparseOpInvalid
     else gemmCompressed mem base t kAll r)
  else gemmDense mem base t kAll

/-- The tile that a pass of a GEMM leaves in a bank: the rows of its units, then zeros. A tile of a 2-of-4 kind or with block
scales is one that no later REUSE reads as it stands (log entry 51). -/
def gemmTile (op : SparseOp) (t : ArrayOp) (u kd n : Nat) (b : GemmB) (units : List Nat) : Bank :=
  let ks := units.flatMap fun i => (List.range u).map (· + i * u)
  ⟨t.fmtB, t.scaling, kd, n, (ks.map fun k => b.rows.getD k []) ++ List.replicate (kd - ks.length) (List.replicate n 0), [],
    b.poison || ks.any fun k => b.rowPoison.getD k false, decide (op.bKind ≤ 1) && t.scaling = 0⟩

/-- The outcome of a GEMM whose operands have been read (R122 to R126). -/
def gemmRun (mem : Memory) (core : Nat) (rs : List Rect) (op : SparseOp) (t : ArrayOp) (kAll : Nat)
    (b : GemmB) : Except Status (List Rect × EngOut) :=
  let base := wellBase core
  let n := nOpOf t.fmtA (bandsOf t.cols)
  let kd := t.kPass
  let kp := if 2 ≤ op.bKind then 2 * kd else kd
  let u := compactUnit op t.fmtA
  let a := readARows mem base t kAll
  let kept := keptUnits op t a.1 a.2 kAll
  let passes := formPasses u kp kd kAll (decide (3 ≤ t.fmtA)) kept kAll 0
  let keep := (List.range kAll).map fun k => kept.getD (k / u) false
  let groups := (List.range (kAll / 4)).filter fun q => (List.range 4).any fun j => keep.getD (4 * q + j) false
  let viol := if op.bKind = 3 then structViolations b groups n else 0
  let rows := passes.foldl (fun c p =>
    c + (if op.bKind = 3 && structViolations b (groupsOfUnits u p) n != 0 then 2 * t.m else t.m)) 0
  if 2 ≤ op.bKind && op.transposable && !transposeOk b groups n then .error .maskNotTransposable
  else if op.strict && viol != 0 then .error .structViolation
  else
    let poison := aPoison mem base t kAll || b.poison || (List.zip keep b.rowPoison).any fun x => x.1 && x.2
    let rg := arrayRanges t kAll false
    let res := (List.range t.m).map fun r => (List.range n).map fun c =>
      dot t.scaling ⟨t.fmtA, a.1.getD r [], a.2.getD r [], t.tA⟩ ⟨t.fmtB, column c b.rows, column c b.scales, t.tB⟩ keep
    let d := drainRows mem base t poison res
    let r0 := (findRect rs t.rect).getD (Rect.empty t.rect)
    let r1 := passes.foldl (fun r p => r.load (gemmTile op t u kd n b p)) r0
    let scans := if op.compact then [(ctr 0x8040 1 core, kAll / u), (ctr 0x8040 2 core, (kept.filter id).length)] else []
    .ok (putRect rs { r1 with draining := r1.draining + 1 },
      { EngOut.start with
        rd := boundRange ((op.addr0, 64) :: rg.1 ++ b.ranges), wr := rg.2, writes := d.1, nflags := d.2.1
        sflags := (if b.beyond = 0 then 0 else 1) + (if viol = 0 then 0 else 2)
        counts := [(ctrRowsIssued core, rows), (ctr 0x8010 6 0, d.2.2), (ctr 0x8040 3 core, viol), (ctr 0x8040 6 core, b.beyond)] ++ scans
        rect := some t.rect, drains := true })

/-- The template of a GEMM (R118). -/
def gemmTemplate (mem : Memory) (base : Nat) (op : SparseOp) : ArrayOp := ArrayOp.ofBody (mem.le (base + op.addr0) 32)

/-- K of a GEMM: the elements of an A row (R119, log entry 52). -/
def gemmK (t : ArrayOp) : Nat := t.aStride * 8 / fmtBits t.fmtA

/-- GEMM (R118 to R127). -/
def gemmIssue (mem : Memory) (core : Nat) (rs : List Rect) (op : SparseOp) : Except Status (List Rect × EngOut) :=
  let base := wellBase core
  if !inWell op.addr0 64 || mem.anyPoison (base + op.addr0) 64 then .error .sparseOpInvalid
  else
    let t := gemmTemplate mem base op
    if t.pass != 0 || t.reuse then .error .sparseOpInvalid
    else if t.cols = 3 || t.rows = 3 then .error .arrayOpInvalid
    else if !dotPairOk t.fmtA t.fmtB t.scaling || !outFmtOk t then .error .formatInvalid
    else
      let kAll := gemmK t
      let bs := blockSize t.scaling
      if !arrayShapeOk t kAll false || kAll = 0 then .error .arrayOpInvalid
      else if kAll % compactUnit op t.fmtA != 0 || (2 ≤ op.bKind && (kAll % 4 != 0 || t.fmtA = 0)) then .error .sparseOpInvalid
      else if bs != 0 && kAll % bs != 0 then .error .formatInvalid
      else if layoutMeets rs t.rect then .error .arrayLayoutConflict
      else if ((findRect rs t.rect).bind (·.openM)).isSome then .error .arrayPassOrder
      else match gemmB mem base op t kAll with
        | .error e => .error e
        | .ok b => gemmRun mem core rs op t kAll b

/-! ### The hash accumulator (R128 to R132) -/

/-- An open session (R128): its limits, its sump, the table entries in order of creation as (key, FP32 value), the
sump records written so far, and whether a poisoned operand has reached it (R136). -/
structure AccSession where
  keyLimit : Nat
  sumpBase : Nat
  sumpBytes : Nat
  records : Nat
  entries : List (Nat × Nat)
  poison : Bool
deriving DecidableEq, Repr

/-- The set of a key (R129). -/
def accSet (key : Nat) : Nat := (key * 0x9E3779B1) % 2 ^ 32 / 2 ^ 22

/-- What contributions leave: the session, sump records spilled as (slot, key, value), flags, records lost. -/
structure AccRun where
  ses : AccSession
  spills : List (Nat × Nat × Nat)
  nflags : Nat
  lost : Nat
  beyond : Nat
deriving DecidableEq, Repr

/-- One contribution (R129, R131, R132). -/
def accAdd (limit : Bool) (st : AccRun) (key val : Nat) : AccRun :=
  if limit && decide (st.ses.keyLimit ≤ key) then { st with beyond := st.beyond + 1 }
  else
    match st.ses.entries.find? fun e => e.1 = key with
    | some e =>
      let r := f32Add e.2 val
      { st with nflags := lor st.nflags r.2
                ses := { st.ses with entries := st.ses.entries.map fun x => if x.1 = key then (key, r.1) else x } }
    | none =>
      let same := st.ses.entries.filter fun e => accSet e.1 = accSet key
      if same.length < 8 then { st with ses := { st.ses with entries := st.ses.entries ++ [(key, val)] } }
      else
        let old := same.headD (0, 0)
        let kept := (st.ses.entries.filter fun e => e.1 != old.1) ++ [(key, val)]
        if (st.ses.records + 1) * 8 ≤ st.ses.sumpBytes then
          { st with spills := st.spills ++ [(st.ses.records, old.1, old.2)]
                    ses := { st.ses with entries := kept, records := st.ses.records + 1 } }
        else { st with lost := st.lost + 1, ses := { st.ses with entries := kept } }

/-- The outcome of an operation that contributes (SCATTER, ROWDOT). However many spills of one operation are lost,
SUMP_OVERFLOW is raised once (DESIGN CHOICE, log entry 97). -/
def accOut (core : Nat) (rd : List (Nat × Nat)) (nflags : Nat) (st : AccRun) : EngOut :=
  { EngOut.start with
    rd := boundRange rd, wr := boundRange [(st.ses.sumpBase, st.ses.sumpBytes)]
    writes := st.spills.map fun (i, k, v) => ⟨st.ses.sumpBase + 8 * i, natLe 4 k ++ natLe 4 v, st.ses.poison⟩
    nflags := lor nflags st.nflags
    sflags := (if st.beyond = 0 then 0 else 1) + (if st.spills.isEmpty && st.lost = 0 then 0 else 4)
    statuses := if st.lost = 0 then [] else [.sumpOverflow]
    counts := [(ctr 0x8040 5 core, st.spills.length), (ctr 0x8040 6 core, st.beyond)], session := .adds }

/-- ACC_OPEN (R128). -/
def accOpenIssue (op : SparseOp) (ses : Option AccSession) : Except Status (AccSession × EngOut) :=
  if ses.isSome || op.addr1 % 8 != 0 || !(op.addr1 = 0 || inWell op.addr0 op.addr1) || decide (wellBytes ≤ op.addr0) then
    .error .sparseOpInvalid
  else .ok (⟨op.arg32, op.addr0, op.addr1, 0, [], false⟩, { EngOut.start with session := .adds })

/-- SCATTER (R129): COUNT pairs of a U32 key and a value. -/
def scatterIssue (mem : Memory) (core : Nat) (op : SparseOp) (ses : Option AccSession) : Except Status (AccSession × EngOut) :=
  let base := wellBase core
  match ses with
  | none => .error .sparseOpInvalid
  | some s =>
    if 0xB ≤ op.fmt then .error .formatInvalid
    else if op.count = 0 || 3 ≤ op.fmt || !inWell op.addr0 (4 * op.count) || !inWell op.addr1 (packedBytes op.fmt op.count) then .error .sparseOpInvalid
    else
      let poison := mem.anyPoison (base + op.addr0) (4 * op.count) || mem.anyPoison (base + op.addr1) (packedBytes op.fmt op.count)
      let pairs := (List.range op.count).map fun i => (mem.le (base + op.addr0 + 4 * i) 4, widen op.fmt (elemAt mem (base + op.addr1) op.fmt i))
      let st := pairs.foldl (fun st p => accAdd true { st with nflags := lor st.nflags (if s.keyLimit ≤ p.1 then 0 else p.2.2) } p.1 p.2.1)
        ⟨{ s with poison := s.poison || poison }, [], 0, 0, 0⟩
      .ok (st.ses, accOut core [(op.addr0, 4 * op.count), (op.addr1, packedBytes op.fmt op.count)] 0 st)

/-- The contribution of one group of X (R134): ordinals [lo, hi) are in the part. -/
def rowdotGroup (mem : Memory) (base k : Nat) (r : BitmapRef) (vAddr vFmt lo hi : Nat) (g : Group) : Nat × Nat :=
  let terms := (List.range 16).map fun j =>
    let o := g.ordinal + popcount16 (g.mask % 2 ^ j)
    if bit g.mask j && decide (lo ≤ o) && decide (o < hi) && decide (g.pos + j < r.l) then
      let code := groupCode mem base r.fmt g (popcount16 (g.mask % 2 ^ j))
      let bs := blockSize r.scaling
      let t := Config.freeChoice k % 2 ^ 32
      let s := if bs = 0 then .plain 1 0 else blockScale r.scaling t (mem.byte (base + r.scaleAddr + g.row * (r.l / bs) + (g.pos + j) / bs)).toNat
      let x := match s with
        | .plain sig e => Fp.mul (elemVal r.fmt r.scaling s code) (.fin false sig e)
        | _ => elemVal r.fmt r.scaling s code
      let x := if r.scaling = 2 then Fp.mul x (f32 t) else x
      let v := fmtDecode vFmt false (elemAt mem (base + vAddr) vFmt (g.pos + j))
      let p := toF32 (Fp.mul x v)
      (p.1, lor p.2 (if s = .nan then flagScaleNan else 0))
    else (0, 0)
  match treeLevels 4 terms with
  | t :: _ => t
  | [] => (0, 0)

/-- The well ranges that a ROWDOT reads beside its reference: its split table entry, the vector, the index and mask planes,
which the checks of R115 read whole, and of the value and scale planes what its part needs (log entry 98). -/
def rowdotRanges (mem : Memory) (base : Nat) (op : SparseOp) (r : BitmapRef) (mine : List Group) (lo hi : Nat) : List (Nat × Nat) :=
  let bs := blockSize r.scaling
  (op.addr1, 16) :: (op.addr2, packedBytes op.fmt r.l) :: indexRange r :: maskRanges r (superblocks mem base r)
    ++ (mine.map fun g => groupBytes r.fmt g (groupPart g lo hi).1 (groupPart g lo hi).2)
    ++ (if bs = 0 then [] else (mine.filter fun g => decide (g.pos < r.l)).map fun g => (r.scaleAddr + g.row * (r.l / bs) + g.pos / bs, 1))

/-- ROWDOT (R134). -/
def rowdotIssue (mem : Memory) (core k : Nat) (op : SparseOp) (ses : Option AccSession) : Except Status (AccSession × EngOut) :=
  let base := wellBase core
  match ses with
  | none => .error .sparseOpInvalid
  | some s =>
    if 0xB ≤ op.fmt then .error .formatInvalid
    else if 8 ≤ op.fmt || !inWell op.addr1 16 then .error .sparseOpInvalid
    else match readRef mem base op.addr0 with
      | .error e => .error e
      | .ok r =>
        if !inWell op.addr2 (packedBytes op.fmt r.l) then .error .sparseOpInvalid
        else match bitmapGroups mem base r with
          | none => .error .sparseFormatInvalid
          | some gs =>
            let e := mem.le (base + op.addr1) 16
            let lo := fld e 127 88
            let hi := lo + fld e 87 48
            let mine := gs.filter fun g => decide (0 < (groupPart g lo hi).2)
            let ranges := rowdotRanges mem base op r mine lo hi
            let poison := poisonIn mem base ranges
            let beyond := mine.foldl (fun c g => c + ((bitsOf 16 g.mask).filter fun j =>
              let o := g.ordinal + popcount16 (g.mask % 2 ^ j)
              decide (r.l ≤ g.pos + j) && decide (lo ≤ o) && decide (o < hi)).length) 0
            let st := mine.foldl (fun st g =>
              let c := rowdotGroup mem base k r op.addr2 op.fmt lo hi g
              let st := accAdd false st g.row c.1
              { st with nflags := lor st.nflags c.2 }) ⟨{ s with poison := s.poison || poison }, [], 0, 0, 0⟩
            .ok (st.ses, accOut core ((op.addr0, 32) :: ranges) 0 { st with beyond := beyond })

/-- A list in the format of R130 as bytes, cut to `room` bytes: the count, then whole records that fit (R131). Where not even
the count fits, nothing is written (DESIGN CHOICE, log entry 97). -/
def listBytes (recs : List (Nat × Nat)) (room : Nat) : List Byte :=
  if room < 8 then [] else natLe 8 recs.length ++ (((recs.take (room / 8 - 1)).map fun r => natLe 4 r.1 ++ natLe 4 r.2)).flatten

/-- Does the list fit in `room` bytes? -/
def listFits (recs : List (Nat × Nat)) (room : Nat) : Bool := decide (8 + 8 * recs.length ≤ room)

/-- Sum a key's values in order in FP32 (R130, R135). A single value passes with its NaN made canonical (R55). -/
def sumInOrder : List Nat → Nat × Nat
  | [] => (0, 0)
  | v :: vs => vs.foldl (fun a x => let r := f32Add a.1 x; (r.1, lor a.2 r.2)) (f32Pass v)

/-- Sort keys ascending. -/
def sortKeys (l : List Nat) : List Nat := sortBy (fun a b => decide (a < b)) (dedupe l)

/-- ACC_DRAIN (R130, R131): the list written and its flags. The session closes. -/
def accDrainIssue (mem : Memory) (core : Nat) (op : SparseOp) (ses : Option AccSession) : Except Status EngOut :=
  let base := wellBase core
  match ses with
  | none => .error .sparseOpInvalid
  | some s =>
    if !inWell op.addr0 (max 1 op.addr1) then .error .sparseOpInvalid
    else
      let sump := (List.range s.records).map fun i => (mem.le (base + s.sumpBase + 8 * i) 4, mem.le (base + s.sumpBase + 8 * i + 4) 4)
      let keys := sortKeys ((sump ++ s.entries).map (·.1))
      let sums := keys.map fun k => (k, sumInOrder (((sump ++ s.entries).filter fun e => e.1 = k).map (·.2)))
      let recs := sums.map fun x => (x.1, plusZero x.2.1)
      let poison := s.poison || mem.anyPoison (base + s.sumpBase) (8 * s.records)
      .ok { EngOut.start with
            rd := boundRange [(s.sumpBase, 8 * s.records)], wr := boundRange [(op.addr0, op.addr1), (s.sumpBase, s.sumpBytes)]
            writes := [⟨op.addr0, listBytes recs op.addr1, poison⟩], nflags := sums.foldl (fun f x => lor f x.2.2) 0
            statuses := if listFits recs op.addr1 then [] else [.accOutOverflow], session := .closes }

/-- The planes that a SPLIT reads: the index plane, from which it finds every ordinal (R116), and the mask plane, which the
checks of R115 read (log entry 98). -/
def splitRanges (mem : Memory) (base : Nat) (r : BitmapRef) : List (Nat × Nat) := indexRange r :: maskRanges r (superblocks mem base r)

/-- SPLIT (R133). -/
def splitIssue (mem : Memory) (core k : Nat) (op : SparseOp) : Except Status EngOut :=
  let base := wellBase core
  if op.count = 0 || decide (256 < op.count) || !inWell op.addr1 (16 * op.count) then .error .sparseOpInvalid
  else match readRef mem base op.addr0 with
    | .error e => .error e
    | .ok r => match bitmapGroups mem base r with
      | none => .error .sparseFormatInvalid
      | some gs =>
        let nnz := groupsNnz gs
        let q := ceilDiv nnz op.count
        let entry := fun p =>
          let lo := p * q
          let n := min ((p + 1) * q) nnz - lo
          match gs.find? fun g => decide (g.ordinal ≤ lo) && decide (lo < g.ordinal + popcount16 g.mask) with
          | some g => lo * 2 ^ 88 + n * 2 ^ 48 + g.row * 2 ^ 24 + g.pos / 4096
          | none => lo % 2 ^ 40 * 2 ^ 88 + Config.freeChoice (k + p) % 2 ^ 48
        .ok { EngOut.start with
              rd := boundRange ((op.addr0, 32) :: splitRanges mem base r), wr := (op.addr1, 16 * op.count)
              writes := [⟨op.addr1, ((List.range op.count).map fun p => natLe 16 (entry p)).flatten,
                poisonIn mem base (splitRanges mem base r)⟩] }

/-- One list of MERGE (R135): its records, or none where it leaves the well; its bytes. -/
def readList (mem : Memory) (base a : Nat) : Option (List (Nat × Nat) × Nat) :=
  let n := mem.le (base + a) 8
  if !inWell a 8 || !inWell a (8 + 8 * n) then none
  else some ((List.range n).map fun i => (mem.le (base + a + 8 + 8 * i) 4, mem.le (base + a + 12 + 8 * i) 4), 8 + 8 * n)

/-- Keys strictly ascending? -/
def keysAscend : List (Nat × Nat) → Bool
  | a :: b :: rest => decide (a.1 < b.1) && keysAscend (b :: rest)
  | _ => true

/-- MERGE (R135). A zero sum keeps its sign: R130's +0 is a rule of ACC_DRAIN (DESIGN CHOICE, log entry 97). -/
def mergeIssue (mem : Memory) (core : Nat) (op : SparseOp) : Except Status EngOut :=
  let base := wellBase core
  if op.count = 0 || decide (256 < op.count) || !inWell op.addr0 (4 * op.count) || !inWell op.addr1 (max 1 op.addr2) then .error .sparseOpInvalid
  else
    let addrs := (List.range op.count).map fun i => mem.le (base + op.addr0 + 4 * i) 4
    let lists := addrs.map fun a => readList mem base a
    if lists.any Option.isNone then .error .sparseOpInvalid
    else
      let ls := lists.map fun l => l.getD ([], 0)
      if !(ls.all fun l => keysAscend l.1) then .error .sparseFormatInvalid
      else
        let all := (ls.map (·.1)).flatten
        let sums := (sortKeys (all.map (·.1))).map fun k => (k, sumInOrder ((all.filter fun e => e.1 = k).map (·.2)))
        let rg := List.zip addrs (ls.map (·.2))
        let poison := mem.anyPoison (base + op.addr0) (4 * op.count) || rg.any fun r => mem.anyPoison (base + r.1) r.2
        let recs := sums.map fun x => (x.1, x.2.1)
        .ok { EngOut.start with
              rd := boundRange ((op.addr0, 4 * op.count) :: rg), wr := (op.addr1, op.addr2)
              writes := [⟨op.addr1, listBytes recs op.addr2, poison⟩], nflags := sums.foldl (fun f x => lor f x.2.2) 0
              statuses := if listFits recs op.addr2 then [] else [.accOutOverflow] }

/-- Fields that an operation does not use must be zero (R117). Its reserved bits are ignored (R4): R117 rejects unused fields
alone. -/
def sparseUnusedOk (op : SparseOp) : Bool :=
  let gemm := op.sop = 1
  let uses := fun (l : List Nat) => l.contains op.sop
  (gemm || (!op.compact && op.bKind = 0 && !op.strict && !op.transposable))
    && (!gemm || (op.addr1 = 0 && op.addr2 = 0))
    && (op.addr2 = 0 || uses [0x12, 0x14]) && (op.arg32 = 0 || uses [0x10])
    && (op.count = 0 || uses [0x08, 0x11, 0x14]) && (op.fmt = 0 || uses [0x11, 0x12])

/-- The lists that a MERGE's table names, with the bytes that each seems to take. -/
def mergeRanges (mem : Memory) (base : Nat) (op : SparseOp) : List (Nat × Nat) :=
  (List.range op.count).map fun i =>
    let a := mem.le (base + op.addr0 + 4 * i) 4
    (a, min wellBytes (8 + 8 * mem.le (base + a) 8))

/-- The planes of the operand that the BITMAP_REF at `a` seems to name. -/
def refRanges (mem : Memory) (base a : Nat) : List (Nat × Nat) :=
  match readRef mem base a with
  | .error _ => []
  | .ok r => if rangeOk (indexRange r) then bitmapRanges mem base r else []

/-- What an operation reads beside its body, as far as the well's bytes tell (R117): a descriptor still being written is
itself among the ranges, so that what it names is looked at again when it has been written. -/
def sparseReads (mem : Memory) (core : Nat) (op : SparseOp) : List (Nat × Nat) :=
  let base := wellBase core
  let t := gemmTemplate mem base op
  match op.sop with
  | 0x01 => (op.addr0, 64) :: ((arrayRanges t (gemmK t) false).1
      ++ (if op.bKind = 1 then refRanges mem base (op.addr0 + 32)
          else match gemmB mem base op t (gemmK t) with
            | .ok b => b.ranges
            | .error _ => []))
  | 0x08 => (op.addr0, 32) :: refRanges mem base op.addr0
  | 0x12 => (op.addr0, 32) :: (op.addr1, 16) :: refRanges mem base op.addr0
  | 0x14 => (op.addr0, 4 * op.count) :: mergeRanges mem base op
  | _ => []

/-- The named sparse operations (R117). -/
def sopKnown (sop : Nat) : Bool := [0x01, 0x08, 0x10, 0x11, 0x12, 0x13, 0x14].contains sop

/-- Issue a SPARSE_OP (R117): rectangles, session and outcome, or the status that rejects it. -/
def sparseIssue (mem : Memory) (core k : Nat) (rs : List Rect) (ses : Option AccSession) (op : SparseOp) :
    Except Status (List Rect × Option AccSession × EngOut) :=
  if !sopKnown op.sop || !sparseUnusedOk op then .error .sparseOpInvalid
  else if op.sop = 0x01 then (gemmIssue mem core rs op).map fun r => (r.1, ses, r.2)
  else if op.sop = 0x08 then (splitIssue mem core k op).map fun o => (rs, ses, o)
  else if op.sop = 0x10 then (accOpenIssue op ses).map fun r => (rs, some r.1, r.2)
  else if op.sop = 0x11 then (scatterIssue mem core op ses).map fun r => (rs, some r.1, r.2)
  else if op.sop = 0x12 then (rowdotIssue mem core k op ses).map fun r => (rs, some r.1, r.2)
  else if op.sop = 0x13 then (accDrainIssue mem core op ses).map fun o => (rs, none, o)
  else (mergeIssue mem core op).map fun o => (rs, ses, o)

end Sys2Proof.Machine
end

