-- ==== Sys2Proof/Machine/Parts.lean ====
section
/-! DEFINITION. The parts of the state, chapter by chapter: the stroke, contexts and their jobs, commands in force, cores
with their pumps, pools and valves. Each field's comment names the rule that gives it and its value at reset. -/

namespace Sys2Proof.Machine

/-! ### The stroke (spec/02_stroke.md) -/

/-- Where a stroke stands: its work window, or the last event of R35 its turnover has had. -/
inductive Stage where
  | work | deadline | closed | judged | hangChecked | changed | burstEnded | valvesReset
deriving DecidableEq, Repr

/-- SYNC_STATE (R26, R43): codes 0 to 3. -/
inductive Sync where
  | priming | locked | holdover | unlocked
deriving DecidableEq, Repr

/-- A timing marker's content as last received on a port (R24, R302). -/
structure Marker where
  rootGeid : Nat
  hops : Nat
  stroke : Nat
  phase : Nat
  period : Nat
  pending : Option (Nat × Nat)   -- a pending period change: new period, stroke E (R29)
deriving DecidableEq, Repr

/-- The stroke counter and what keeps it in step (R21 to R31, R460). -/
structure Clock where
  stroke : Nat := 0                    -- R22; reset 0
  phase : Nat := 0                     -- R22: ns; reset 0
  period : Nat := 1000000              -- R43: STROKE_PERIOD_NS; reset 1,000,000
  stage : Stage := .work               -- R35
  /-- Phase at which this stroke's turnover begins: its period less 1,500 (R22). -/
  turnStart : Nat := 998500
  held : Bool := false                 -- R460: held at phase 0 until the upstream gets there
  sync : Sync := .priming              -- R43: reset 0
  rootGeid : Option Nat := none        -- R43: ROOT_GEID; none = own GEID
  upstream : Option PortId := none     -- R43: reset 0xFF
  upGeid : Nat := 0                    -- GEID of the upstream's device
  hops : Nat := 0                      -- R43: reset 0
  offset : Int := 0                    -- R43: OFFSET_ESTIMATE_NS; reset 0
  slewed : Nat := 0                    -- R24: ns slewed in this stroke, at most 20
  /-- R29: period change waiting for the turnover of stroke E − 1: new period, E. -/
  pendingPeriod : Option (Nat × Nat) := none
  slotsDone : Nat := 0                 -- R30: slots of this stroke that have begun
  extended : Bool := false             -- R43: REFRESH_MODE_ACTIVE; reset 0
  /-- R460: the upstream's counter is to be taken at the end of this turnover. -/
  stepDue : Option Nat := none         -- the stroke whose turnover makes it
deriving DecidableEq, Repr

/-! ### Contexts (spec/15_contexts.md) -/

/-- An armed slot (R212): a checked descriptor waiting for promotion. -/
structure Armed where
  ctx : Nat
  desc : Nat
  descAddr : Nat
  prev : Option Nat
  next : Option Nat
  valve : Option Nat
  promoted : Bool := false             -- promoted, to start at phase 0
  late : Bool := false                 -- R345: read back after the deadline of the stroke in which the switch-over began
deriving DecidableEq, Repr

/-- CTX_STATE (R341): codes 0 to 8. -/
inductive CtxState where
  | undefined | defined | resident | stalled | running | suspended | aborting | tornDown | aborted
deriving DecidableEq, Repr

/-- The unit an error record names (R418). -/
inductive UnitKind where
  | none | core | cluster | cistern | hdie | port | updateUnit | controlProcessor | securityEngine | bridge
deriving DecidableEq, Repr

/-- One fault status of a context in a stroke, with what its error record reports (R37, R418). -/
structure StatusRec where
  st : Status
  detail : Nat
  kind : UnitKind
  unit : Nat
deriving DecidableEq, Repr

/-- A running job (R351): its start stroke and whether it spans more than one device (R378). -/
structure Job where
  start : Nat
  multi : Bool
deriving DecidableEq, Repr

/-- One context: the values of its record (R337), where it stands, and what the stroke has gathered. -/
structure Ctx where
  state : CtxState := .undefined       -- R341; reset UNDEFINED
  client : Nat := 0                    -- R337
  flagFaults : Nat := 0
  srSeed : Nat := 0
  spillAddr : Nat := 0
  tableRoot : Nat := 0
  clusters : Nat := 0
  suspend : Bool := false              -- FAULT_ACTION
  loadBalance : Bool := false
  lc : Bool := false                   -- CLASS
  partition : Nat := 0
  numericsRec : Nat := 0               -- R72
  committed : Option Nat := none       -- R337: COMMITTED_STROKE; none before the first
  commitsNow : Bool := false           -- R36: the last verdict committed its stroke
  slot : Option Nat := none            -- R341: resident slot
  entering : Option Nat := none        -- R348: slot it enters at the next turnover
  spilled : Nat := 0                   -- R344: map of clusters marked spilled
  /-- R214, R339: armed slots in the spill area: core, channel, slot. -/
  keptArmed : List (Nat × Nat × Armed) := []
  runnable : Bool := false             -- R342: found at the last verdict
  blockedAge : Nat := 0                -- R342
  waitingAge : Nat := 0                -- R342
  runStrokes : Nat := 0                -- R343: strokes it has been RUNNING
  job : Option Job := none             -- R351
  nflags : Nat := 0                    -- R66: NUMERIC_FLAGS
  sflags : Nat := 0                    -- R138: SPARSE_FLAGS
  tflags : Nat := 0                    -- R160: TRIDAL_FLAGS
  uflags : Nat := 0                    -- R286: UPDATE_FLAGS
  statuses : List StatusRec := []      -- R37: fault statuses of the stroke so far
  poisonWritten : Bool := false        -- R409
  wrote : List (Nat × Nat) := []       -- R36: address ranges written in the stroke
  handling : Bool := false             -- R411: an uncorrected error is being handled
  escalated : Bool := false            -- R411: a second one has come
  inForce : Bool := false              -- R379: had a command in force in the stroke
  /-- R349, R373: stroke at whose turnover a REMOVE, or a Function Level Reset, tears it down. -/
  removeAt : Option Nat := none
  resumeAt : Option Nat := none        -- R349: stroke at whose turnover a RESUME takes effect
  condemned : Bool := false            -- R349, R411: its fault policy tears it down at this turnover
  switchLate : Option Nat := none      -- R345: the turnover in whose midst a switch-over of it completed last, by its stroke
  faultedNow : Bool := false           -- R37: it was suspended at this turnover's verdict, and yields nothing at it
  fresh : Bool := false                -- R348, R349: entered a slot or resumed at this turnover
deriving DecidableEq, Repr

/-- A DEFINE waiting for the next turnover (R337): the context and the client that wrote it. -/
structure DefineAsk where
  ctx : Nat
  client : Nat
  due : Nat                            -- stroke at whose turnover the record is read
  /-- PARTITION(p) right of the path that wrote it (R361). -/
  onlyPartition : Option Nat
  /-- R373: its client's function has been reset since: the context is torn down at the turnover that defines it. -/
  doomed : Bool := false
deriving DecidableEq, Repr

/-! ### Commands in force (spec/16_control.md R374 to R379) -/

/-- One command in force: its queue and ring index, its envelope (R377), its context and its progress. -/
structure QCmd where
  q : Nat
  index : Nat
  env : Nat
  poison : Bool                        -- R461: its envelope was read poisoned
  ctx : Nat
  stroke : Nat                         -- R379: the stroke in which it was in force
  waitDone : Bool := false             -- R376: its wait has been satisfied
  issued : Bool := false
  completed : Bool := false
  ran : Bool := false                  -- its unit has finished and waits for its stores to be acknowledged
  work : Bool := false                 -- R376: its unit has done its work; completion is due
  status : Option Status := none       -- R379: its own fault status
  note : Option Status := none
  detail : Nat := 0
  sigSent : Bool := false              -- R232: its remote signal has been sent
  /-- Tokens on which its unit's comparators disagree (R158). -/
  found : List Nat := []
  /-- Steps that the residue checkers of its unit see (R67), by token, record or block. -/
  steps : List StepSeen := []
  spoiled : Bool := false              -- R412: what its unit writes carries poison
deriving DecidableEq, Repr

/-- A queue command that waits on a valve (R230). -/
structure PendWait where
  cmd : Nat
  ctx : Nat
  valve : Nat
  count : Nat
  take : Bool
  seen : Bool
deriving DecidableEq, Repr

/-- A completion entry held or waiting to be posted (R379): the completion queue and the entry without its PHASE. -/
structure CqEntry where
  cq : Nat
  entry : Nat
  isCommand : Bool
deriving DecidableEq, Repr

/-! ### Cores (spec/05_core.md) and their pumps (spec/09_pumps.md) -/

/-- The engines whose operations take scoreboard entries (R97). -/
inductive EngineKind where
  | array | vector | sparse
deriving DecidableEq, Repr

/-- An unfinished engine operation in a scoreboard slot (R97). -/
structure BoardEntry where
  slot : Nat
  engine : EngineKind
  ctx : Nat
  out : EngOut
  body : Nat := 0                      -- its body (R94)
  occasion : Nat := 0                  -- MODEL'S OWN: the occasion of its undefined values (log entry 2)
deriving DecidableEq, Repr

/-- A stroke plan on a core (R93, R347): the command that handed it over, its context, its address and position. -/
structure PlanRun where
  cmd : Nat                            -- R377: queue × 65,536 + ring index of its PLAN command
  ctx : Nat
  va : Nat
  pc : Nat := 0                        -- instructions issued or skipped
  itemOpen : Bool := false             -- R101
  ended : Bool := false                -- R95: END_PLAN has issued
  /-- R347: items taken by other cores: the instruction at which each begins, and the one after its END_ITEM. -/
  taken : List (Nat × Nat) := []
  stopAt : Option Nat := none          -- R347: a taken item run here: the instruction after its END_ITEM
  /-- R347: taken items that have not finished. -/
  takenOut : Nat := 0
  /-- R347: a taken item run here: the core it was taken from. -/
  owner : Option Nat := none
deriving DecidableEq, Repr

/-- A stream in an active slot (R191 to R215). -/
structure Stream where
  ctx : Nat
  desc : Nat                           -- R193: the descriptor as read
  descAddr : Nat
  descRead : Bool := true              -- R197: false while the descriptor read is halted on an absent page
  relay : Bool := false                -- R202
  prev : Option Nat := none
  next : Option Nat := none
  valve : Option Nat := none           -- R199
  owner : Nat := 0                     -- R420: the core whose plan holds the item
  cmd : Option Nat := none             -- the PLAN command whose plan issued it; none for a promoted stream
  pos : Nat := 0                       -- elements moved
  halted : Bool := false               -- R210: on an absent page
  stopped : Bool := false              -- R210: on an access not permitted
  handle : Option Nat := none          -- R206, R207: its bucket
  pushed : Bool := false               -- R206: the handle has been pushed
  poolWait : Bool := false             -- R206: its bucket request was answered POOL_EMPTY
  inq : List (List Byte × Bool) := []  -- R200, R204: the staging buffer: elements read or received, not yet written
  asked : Option Nat := none           -- the remote load it waits for: number in the request table
  haltAt : Option Nat := none          -- R210: REMAINING of a halt that is still to be written back
  behind : List Nat := []              -- R198: channels whose descriptors were still to be read when it was issued
deriving DecidableEq, Repr

/-- A line that a cluster's caches hold (R108): its number, bytes and poison. -/
structure CacheLine where
  line : Nat
  data : List Byte
  poison : Bool
deriving DecidableEq, Repr

/-- What a sequencer's WAIT or WAIT_TAKE holds issue for (R230): whether it has been granted, and whether VALVE_CHECK has
been raised for it (R235). -/
structure ValveWait where
  valve : Nat
  count : Nat
  take : Bool
  granted : Bool
  seen : Bool
deriving DecidableEq, Repr

/-- A core (R93 to R101, R191, R236). -/
structure Core where
  compute : Bool := false              -- R98: phase; reset TRANSFER
  switchTo : Option Bool := none       -- R98: a phase switch is in progress; true towards COMPUTE
  run : Option PlanRun := none         -- R347: the plan that runs
  waiting : List PlanRun := []         -- R347: eligible plans behind it
  board : List BoardEntry := []        -- R97
  rects : List Rect := []              -- R77
  session : Option AccSession := none  -- R128
  active : SMap (Option Stream) := []  -- R191: channel -> active slot
  armed : SMap (Option Armed) := []    -- R191: channel -> armed slot
  hregs : SMap Nat := []               -- R236: handle registers that are not null
  signalAsked : Option Nat := none     -- R232: the remote SIGNAL it waits for
  poolWait : Bool := false             -- R236: its BUCKET_ALLOC was answered POOL_EMPTY
  seqDone : List Nat := []             -- R95: plans completed in the stroke, by command
  dcache : List Nat := []              -- R108: lines of the cluster cache that its data cache holds
  valveWait : Option ValveWait := none -- R230: its instruction waits on a valve
  queueWaits : Bool := false           -- R208: its QUEUE_PUSH or QUEUE_POP waits
  lastServed : Nat := 15               -- R201: channel last served by its pump
deriving DecidableEq, Repr

/-! ### Pools and valves (spec/10_buckets_valves.md) -/

/-- An allocated bucket (R223, R226). -/
structure Bucket where
  count : Nat
  owner : Nat
deriving DecidableEq, Repr

/-- One pool (R220, R224): buckets returned to it, last in first out, and the first never allocated. -/
structure Pool where
  freed : List Nat := []
  fresh : Nat := 0
  quarantined : List Nat := []         -- R235
deriving DecidableEq, Repr

/-- One handle queue (R205, R209). -/
structure HQueue where
  handles : List Nat := []
  bound : Option Nat := none
deriving DecidableEq, Repr

end Sys2Proof.Machine
end

