-- ==== Sys2Proof/Machine/FabricParts.lean ====
section
/-! DEFINITION. The parts of the state that belong to the memory fabric and to Rolkan: requests in flight, response
caches, gateways, ports, links, routing tables and rate entries (spec/11_memory_fabric.md, spec/13_rolkan.md). -/

namespace Sys2Proof.Machine

/-! ### Packets (R300) -/

/-- PTYPE (R300). -/
inductive PType where
  | memReq | memResp | bulk | bulkAck | tridal | collective | mgmt | congestion
deriving DecidableEq, Repr

def PType.code : PType → Nat
  | .memReq => 0 | .memResp => 1 | .bulk => 2 | .bulkAck => 3 | .tridal => 4 | .collective => 5 | .mgmt => 6 | .congestion => 7

/-- The content of a packet that this device originates: what its receiver's command carries. -/
inductive Content where
  | memReq (m : MemReq)
  | memResp (r : MemResp)
  | bulk (b : BulkIn)
  | bulkAck (seq : Nat) (denied : Bool)
  | tridal (m : TridalIn)
  | collective (m : CollIn)
  | mgmt (bytes : List Byte)
  | congestion
deriving DecidableEq, Repr

def Content.ptype : Content → PType
  | .memReq _ => .memReq | .memResp _ => .memResp | .bulk _ => .bulk | .bulkAck _ _ => .bulkAck
  | .tridal _ => .tridal | .collective _ => .collective | .mgmt _ => .mgmt | .congestion => .congestion

/-- Traffic class of R301. Tridal GRANT and GRANT_END (types 3 and 4 of R171) travel in class 1. -/
def classOf (t : PType) (tridalKind : Nat) : Nat :=
  match t with
  | .memReq => 0 | .bulk => 0
  | .memResp => 1 | .bulkAck => 1 | .mgmt => 1 | .congestion => 1
  | .tridal => if tridalKind = 3 || tridalKind = 4 then 1 else 2
  | .collective => 3

/-- What a packet carries behind its header: bytes that pass through, or content that this device formed. -/
inductive Body where
  | raw (bytes : List Byte)
  | own (c : Content)
deriving DecidableEq, Repr

/-- A packet on its way out of the device, and the context of this device whose it is, if any (R350). -/
structure Sent where
  header : Nat
  body : Body
  ctx : Option Nat := none
deriving DecidableEq, Repr

/-- A frame sent (R291): its number, the port it went out on, and the bytes of a packet that it carries. -/
structure FrameOut where
  seq : Nat
  port : Nat
  packet : Sent
  first : Nat
  bytes : Nat
deriving DecidableEq, Repr

/-! Fields of a packet header (R300). -/
def phType (h : Nat) : Nat := fld h 127 124
def phGeidRoute (h : Nat) : Bool := bit h 123
def phVc (h : Nat) : Nat := fld h 122 120
def phEpoch (h : Nat) : Nat := fld h 119 112
def phTagged (h : Nat) : Bool := bit h 111
def phTag (h : Nat) : Nat := fld h 110 107
def phEcn (h : Nat) : Nat := fld h 106 105
def phEcho (h : Nat) : Bool := bit h 104
def phDomain (h : Nat) : Nat := fld h 103 92
def phSrcPartition (h : Nat) : Nat := fld h 91 89
def phSrc (h : Nat) : Nat := fld h 88 69
def phDest (h : Nat) : Nat := fld h 68 49
def phHops (h : Nat) : Nat := fld h 48 43
def phE2e (h : Nat) : Nat := fld h 42 27

/-! ### Sources (R260, R268) -/

/-- A source of accesses (R260): stores of one source keep their order, and go through one gateway. -/
inductive Source where
  | core (c : Nat)
  | sorter (cl : Nat)
  | combine (cl : Nat)
  | packer (h : Nat)
  | update (ci : Nat)
  | command (id : Nat)
  /-- The collective node of an ALLSUM command, on its H-die. -/
  | node (id h : Nat)
  | control
deriving DecidableEq, Repr

/-- H-die of a cluster: 0 for C-dies 0 and 1, 1 for C-dies 2 and 3 (R19). -/
def clusterHdie (cl : Nat) : Nat := if cl < 16 then 0 else 1

/-- The gateway of a source (R268): its home H-die's. A cistern update unit's is that of its C-die, eight cisterns to
each. A queue command whose work no unit performs uses H-die 0's. -/
def Source.hdie : Source → Nat
  | .core c => clusterHdie (c / 8)
  | .sorter cl => clusterHdie cl
  | .combine cl => clusterHdie cl
  | .packer h => h
  | .update ci => clusterHdie ci
  | .command _ => 0
  | .node _ h => h
  | .control => 0

/-! ### Requests in flight (R262 to R268) -/

/-- Who waits for the answer of a remote request. -/
inductive ReqOwner where
  | streamLoad (core ch : Nat)
  | streamStore (core ch : Nat)
  | seqSignal (core : Nat)
  | unitLoad (cmd : Nat) (src : Source)  -- a unit at work for a queue command reads remote bytes
  | unitStore (cmd : Nat) (src : Source)
  | cmdSignal (cmd : Nat)                -- a queue command's remote signal
  | atomic (cmd : Nat)
deriving DecidableEq, Repr

/-- A remote request outstanding (R262): its content as sent, and what has happened to it. -/
structure Req where
  id : Nat
  owner : ReqOwner
  ctx : Nat
  dest : Nat                             -- GEID of the target
  e2e : Nat                              -- end-to-end number towards it
  byGateway : Bool                       -- R268: through a gateway, else over the board mesh
  slot : Nat                             -- board slot, for a board request
  content : Content
  retransmitted : Bool := false
  seq : Nat := 0                         -- R264: an atomic's sequence ID
deriving DecidableEq, Repr

/-- Remote bytes that have arrived for a unit: the far address and the data, kept as new as the source's own later
stores to them (R260, R261). -/
structure Fetched where
  cmd : Nat
  src : Source
  dest : Nat
  addr : Nat
  data : List Byte
  poison : Bool
deriving DecidableEq, Repr

/-- The response cache a target keeps for one source (R264): IDs with old values by ID mod 64. -/
structure RespCache where
  src : Nat
  entries : SMap (Option (Nat × Nat)) := []
deriving DecidableEq, Repr

/-- An open bulk transfer of a gateway (R268): contiguous stores gathered from one source to one destination. -/
structure OpenBulk where
  hdie : Nat
  src : Source
  dest : Nat
  ctx : Nat
  partition : Nat
  ranges : List BulkRange
  reqs : List Nat                        -- requests whose stores it carries
  closed : Bool := false                 -- closed, and held by the window of R309
deriving DecidableEq, Repr

/-- A bulk transfer sent and not yet acknowledged (R309). -/
structure SentBulk where
  hdie : Nat
  src : Source
  dest : Nat
  seq : Nat
  e2e : Nat
  ctx : Nat
  bytes : Nat
  reqs : List Nat
deriving DecidableEq, Repr

/-! ### Ports and links (R289 to R296, R308, R311) -/

/-- PORT_STATE (R296): codes 0 to 5. -/
inductive PortState where
  | disabled | down | training | joining | up | refused
deriving DecidableEq, Repr

/-- What a partner's link offer said (R292). -/
structure Offer where
  geid : Nat
  podBoard : Nat
  slot : Nat
  port : Nat
  hdie : Nat
deriving DecidableEq, Repr

structure Port where
  state : PortState := .down             -- R315: reset 1
  signal : Bool := false                 -- R296, R386: a partner's signal is there (log entry 39)
  refusal : Nat := 0                     -- R315
  partner : Option Offer := none         -- R315: PORT_PARTNER, reset 0
  link : Option Nat := none              -- R315: reset 0xFF
  version : Nat := 0                     -- R315
  rtt : Nat := 0                         -- R315
  domains : List Nat := []               -- R311: last 64 domains carried since the last drain
  replays : Nat := 0                     -- R296: replays of the frame now first unacknowledged
  marker : Option Marker := none         -- R24: last marker received
  markerAt : Nat × Nat := (0, 0)         -- own stroke and phase at which it was received
deriving DecidableEq, Repr

/-- A drain running on a link (R311): the domain and the domains admitted. -/
structure Drain where
  domain : Nat
  admitted : List Nat
deriving DecidableEq, Repr

/-- A neighbour link (R295): its ports, frame numbering, what waits on it. -/
structure Link where
  ports : List Nat := []
  long : Bool := false                   -- R308
  reserved : Nat := 0                    -- R308: bytes of the long-link store
  txSeq : Nat := 0                       -- R291
  turn : Nat := 0                        -- R295: where the rotation over its ports stands
  rxSeq : Nat := 0                       -- R291: next frame number expected
  rx : List Byte := []                   -- R291: bytes received of a packet that goes on in the next frame
  unacked : List FrameOut := []          -- frames sent and not acknowledged
  xoff : Nat := 0                        -- R308: channels the partner has stopped
  xoffSent : Nat := 0                    -- R308: channels this end has stopped
  queue : List (Nat × Sent) := []        -- R310: packets in the egress queues, with their ports
  drains : List Drain := []              -- R311: drains that run, oldest first
  keepDiscarding : List Nat := []        -- R311: domains discarded after a drain ended unilaterally
  partnerDrained : List Nat := []        -- R311: drain-complete signals received before this end began
deriving DecidableEq, Repr

/-- A rate entry of an H-die (R310): rate in MB/s; stroke and phase of its last cut; bytes sent ahead of its rate. -/
structure RateEntry where
  hdie : Nat
  dest : Option Nat                      -- none: the shared entry
  rate : Nat
  lastCut : Option (Nat × Nat)
  sent : Nat := 0
deriving DecidableEq, Repr

/-- A packet that waits for its destination's rate (R310). -/
structure Shaped where
  dest : Nat
  link : Nat
  packet : Sent
deriving DecidableEq, Repr

/-- Both tables of R304 as one route image: board entries 0 to 63 under keys 0 to 63, GEID entries from key 64 on. -/
abbrev RouteTable := SMap Nat

end Sys2Proof.Machine
end

