-- ==== Sys2Proof/Machine/SystemParts.lean ====
section
/-! DEFINITION. The parts of the state that belong to the interfaces and to the module as a whole: register blocks and
kept responses (spec/16_control.md), clusters and their switch-overs (spec/15_contexts.md), reset, boot and attestation
(spec/17_priming_security.md), error records and lock-step (spec/18_faults.md), supply (spec/19_power_cooling.md), the
test port (spec/20_module.md), and what the module sends out. -/

namespace Sys2Proof.Machine

/-! ### Reset and boot (R382 to R401) -/

/-- Why a full reset is made: codes of RESET_CAUSE (R382). -/
inductive ResetCause where
  | powerOn | resetPin | command | fatal
deriving DecidableEq, Repr

def ResetCause.code : ResetCause → Nat
  | .powerOn => 0 | .resetPin => 1 | .command => 2 | .fatal => 3

/-- What the module is doing: no power (R426), held in reset (R382), working, stopped by device fatal (R415). -/
inductive Life where
  | off | held (cause : ResetCause) | on | fatal
deriving DecidableEq, Repr

/-- Keys of the functions that prime by themselves (R384). -/
def primeKey : PrimeFn → Nat
  | .mgmt => 0 | .stroke => 1 | .security => 2 | .pcie => 3
  | .hdie h => 16 + h.val | .cluster c => 32 + c.val | .cistern c => 64 + c.val | .port p => 96 + p.val

/-- Boot as it has gone (R391, R396). -/
structure Boot where
  done : Bool := false                   -- the ROM has run since reset release
  recovery : Bool := false               -- R392
  slot : Option Nat := none              -- the running image's slot
  resultA : Nat := 1                     -- R396: 1 = not tried
  resultB : Nat := 1
  version : Nat := 0                     -- IMAGE_VERSION
  svn : Nat := 0                         -- IMAGE_SVN
  keySlot : Nat := 0
  digests : List (List Byte) := []       -- D_0 … of the running image's manifest (R399)
deriving DecidableEq, Repr

/-- Attestation (R398): codes of ATTEST_STATUS are derived. -/
structure Attest where
  asked : Option (List Byte × Nat) := none   -- a nonce, and the stroke at whose turnover it is taken
  forming : List (List Byte) := []       -- bytes 0 to 191 of the reports being formed, oldest first
  report : List Byte := []               -- ATTEST_REPORT; empty until the first is ready
deriving DecidableEq, Repr

/-- A flash operation under way (R395): its code, its offset, and the bytes a PROGRAM writes. -/
structure FlashOp where
  op : Nat
  offset : Nat
  data : List Byte := []
deriving DecidableEq, Repr

/-! ### Clusters (R343 to R346, R413) -/

/-- A switch-over in progress (R344, R345): who leaves, who comes, and the stroke in which it began. -/
structure SwitchOver where
  out : Option Nat
  into : Option Nat
  began : Nat
  /-- The outgoing context's armed slots (R214): core, channel, slot. -/
  armed : List (Nat × Nat × Armed)
deriving DecidableEq, Repr

structure Cluster where
  holder : Option Nat := none            -- R343: context holding its eight wells
  switch : Option SwitchOver := none
  disabled : Bool := false               -- R413
  noGrant : Bool := false                -- R413: a hung unit: no grant at this turnover
  tlb : List (Nat × Nat) := []           -- R254: (context, virtual page) translations held
  combines : List Nat := []              -- R183: commands waiting on the combine unit, first one running
  cache : List CacheLine := []           -- R108: the cluster cache
deriving DecidableEq, Repr

/-! ### Queues (R374 to R379) -/

/-- A submission queue at run time. -/
structure SqRun where
  head : Nat := 0                        -- R381: SQ_HEAD
  sampled : Nat := 0                     -- R381: SQ_TAIL_SAMPLED
  tail : Nat := 0                        -- R374: tail last written by a doorbell
  batch : Nat := 0                       -- R375: commands of its batch in force; the head moves past them
  /-- R378: when the commands from the head on were sampled, oldest first: stroke, and how many. -/
  arrived : List (Nat × Nat) := []
deriving DecidableEq, Repr

/-- A completion queue at run time. -/
structure CqRun where
  tail : Nat := 0                        -- R381: CQ_TAIL
  head : Nat := 0                        -- R379: the host's head
  phase : Bool := true                   -- R379: PHASE of this pass
deriving DecidableEq, Repr

/-! ### Register blocks and dictionary paths (R363 to R367) -/

/-- A mailbox request forwarded over the fabric (R367): target, header sent, data, sendings so far. -/
structure RemoteReq where
  target : Nat
  header : Nat
  data : List Byte
  sendings : Nat
deriving DecidableEq, Repr

/-- One function's register block (R363). -/
structure RegBlock where
  reqHdr : Nat := 0
  state : Nat := 0                       -- MBX_STATE: 0 IDLE, 1 BUSY, 2 DONE
  irq : Nat := 0                         -- MBX_IRQ
  reqData : SMap Byte := []
  rspHdr : Nat := 0
  rspData : SMap Byte := []
  msixTable : SMap Byte := []
  pba : Nat := 0
  /-- A doorbell written before the management dictionary was primed (R387): the header and data it submitted. -/
  waiting : Option (Nat × List Byte) := none
  remote : Option RemoteReq := none      -- R367
deriving DecidableEq, Repr

/-- A dictionary request that waits at the control processors (R356, R366). -/
structure WaitReq where
  src : Path
  header : Nat
  data : List Byte
  ecc : List EccFinding
deriving DecidableEq, Repr

/-- A kept response (R366): the source, the whole request header, and the response's header and data. -/
structure Kept where
  src : Path
  request : Nat
  header : Nat
  data : List Byte
deriving DecidableEq, Repr

/-! ### Lock-step (R419 to R422) -/

/-- A set of 33 signatures of one stroke. -/
structure Signatures where
  stroke : Nat
  committed : Bool
  sigs : List Nat
deriving DecidableEq, Repr

structure LockStep where
  sums : SMap Nat := []                  -- R420: signatures of the stroke so far
  own : Option Signatures := none        -- those sent for the last stroke judged
  theirs : Option Signatures := none     -- those received, not yet compared
  state : Nat := 0                       -- LS_STATE
  firstStroke : Nat := 0
  firstClusters : Nat := 0
  diverged : Bool := false               -- a first divergence stands since LS_CLEAR
deriving DecidableEq, Repr

/-! ### Supply (R426 to R438) -/

/-- What a ramp of R435 does: the power it starts from, and the microseconds it has run. -/
inductive Ramp where
  | none
  | up (start : Rat) (us : Nat)
  | down (start : Rat) (us : Nat)
deriving DecidableEq, Repr

/-- The power controller on H-die 0. Powers in watts, currents in amperes, energies in joules, exactly. The measured
values are kept in their dictionary entries. -/
structure Power where
  current : Rat := 0                     -- I_prev of R430
  capEff : Rat := 4600                   -- R432: CAP_EFF
  thermal : Rat := 4600                  -- R438: THERMAL_LIMIT starts at 4,600 W
  throttling : Bool := false             -- R438: a sensor is at or above its throttle temperature
  released : Bool := true                -- R438: every sensor is at or below its release temperature
  warning : Bool := false                -- R426
  high : Bool := false                   -- R426: input above 59.5 V
  duty : Nat := 1                        -- D of R430; R439: DUTY reads 0 at reset
  ballast : Rat := 0                     -- R434: watts of ballast in the last microsecond
  capBound : Bool := false               -- R439
  slewBound : Bool := false              -- R439
  active : Bool := false                 -- R433
  ramp : Ramp := .none                   -- R435
  energy : Rat := 0                      -- R439: ENERGY_J, exactly
  ballastEnergy : Rat := 0               -- R439: BALLAST_ENERGY_J, exactly
  strokeEnergy : Rat := 0                -- watts summed over the control ticks of the stroke
  strokeTicks : Nat := 0
  lastStroke : Rat := 0                  -- R439: STROKE_POWER_W
  coolantOk : Bool := false              -- R437; PROMISE_STATUS reads 0 at reset (R424)
  coolantGood : Nat := 0                 -- R437: samples in a row within limits
  /-- R31: first cistern found above 85 °C and not yet acted on, with the stroke whose turnover acts. -/
  hot : Option (Nat × Nat) := none
deriving DecidableEq, Repr

/-! ### Test port (R450, R451) -/

/-- Instructions of the test access port (R450). -/
inductive TapInstr where
  | idcode | samplePreload | extest | extestPulse | extestTrain | clamp | highz | bypass
deriving DecidableEq, Repr

structure TestPort where
  trst : Bool := false                   -- TRST_N: low holds the port in reset (R444)
  instr : TapInstr := .idcode            -- R450: the reset instruction
  captured : List Bool := []             -- boundary register as captured
  preload : List Bool := []              -- boundary register as preloaded
deriving DecidableEq, Repr

/-! ### What the module sends out -/

/-- Everything that leaves the module, in order. -/
inductive Output where
  /-- A frame on a link (R291): what it carries, the next frame number expected of the partner, the XOFF bits and the CRC-32. -/
  | frame (link : Nat) (f : FrameOut) (ack xoff : Nat) (crc : BitVec 32)
  /-- A packet to this device itself: its router hands it back to the unit that receives it (R303). -/
  | loop (p : Sent)
  /-- The acknowledgement that the link's frames carry from now on, or a request for replay (R291): link, frame number, nack. -/
  | linkAck (link seq : Nat) (nack : Bool)
  /-- Frames sent again (R291). -/
  | replay (link : Nat) (seqs : List Nat)
  /-- A timing marker (R24, R302). -/
  | marker (link : Nat) (m : Nat)
  /-- A link offer (R292). -/
  | offer (port : Nat) (bits : Nat)
  /-- A link-down (R296). -/
  | linkDown (port : Nat)
  /-- The XOFF bits that the link's frames carry from now on (R308). -/
  | xoff (link vcs : Nat)
  /-- A drain-done exchange message (R311): link, domain. -/
  | drainDone (link domain : Nat)
  /-- A frame on the management port (R364, R365): destination, source, EtherType, payload. -/
  | mgmtFrame (dst src etherType : Nat) (payload : List Byte)
  /-- An MSI-X interrupt (R363, R379): function, vector. -/
  | msix (fn vector : Nat)
  /-- Data returned to a host read through BAR2 (R371): function, bytes, poisoned. -/
  | hostRead (fn : Nat) (data : List Byte) (poison : Bool)
  /-- A poisoned TLP to host memory (R409): function, host address. -/
  | poisonedTlp (fn addr : Nat)
  /-- An uncorrectable internal error message under AER (R415). -/
  | aer
  /-- What the test port presents: the register's bits, least significant first (R450). -/
  | tdo (bits : List Bool)
  /-- The boundary lands driven by the test port (R451); none = high impedance. -/
  | lands (driven : Option (List Bool))
  /-- Every rail is switched off (R426, R438). -/
  | railsOff
  /-- Flash contents presented to the flash interface: FLASH_RESET_N (R448). -/
  | flashReset (low : Bool)
deriving DecidableEq, Repr

end Sys2Proof.Machine
end

