-- ==== Sys2Proof/Machine/Elementary.lean ====
section
/-! DEFINITION. The correctly rounded elementary functions of the vector engine: spec/03_numerics.md R64.
Each transcendental value is enclosed between two fixed-point integers at 2^−p, and the precision rises until both
ends round to the same FP32 value. Algebraic functions are rounded once from an exact value with a sticky bit. -/

namespace Sys2Proof.Machine

/-- An enclosure at some precision p: the value times 2^p lies between `lo` and `hi`. -/
structure Enc where
  lo : Int
  hi : Int
deriving DecidableEq, Repr

/-- ⌊a × b ÷ 2^p⌋ for non-negative integers. -/
def mulDown (p : Nat) (a b : Nat) : Nat := a * b / 2 ^ p

/-- Sum of z^(2k+1) ÷ (2k+1) for k below `n`, rounded down, from the running power `t` = z^(2k+1) (fixed point). -/
def atanhAux (p z2 : Nat) : Nat → Nat → Nat → Nat
  | 0, _, _ => 0
  | n + 1, k, t => t / (2 * k + 1) + atanhAux p z2 n (k + 1) (mulDown p t z2)

/-- Enclosure of atanh(num ÷ den), with num ÷ den at most 1/3, at precision p. -/
def atanhEnc (p num den : Nat) : Enc :=
  let z := num * 2 ^ p / den
  let n := p / 3 + 4
  let s := atanhAux p (mulDown p z z) n 0 z
  ⟨s, s + 4 * n + 8⟩

/-- Enclosure of ln 2 = 2 atanh(1/3). -/
def ln2Enc (p : Nat) : Enc :=
  let a := atanhEnc p 1 3
  ⟨2 * a.lo, 2 * a.hi⟩

/-- Taylor sum of e^r − the terms already taken, for 0 ≤ r < 1, rounded down. -/
def expAux (p r : Nat) : Nat → Nat → Nat → Nat
  | 0, _, _ => 0
  | n + 1, k, t => t + expAux p r n (k + 1) (mulDown p t r / (k + 1))

/-- Lower bound of e^r × 2^p for a fixed-point r in [0, 1). -/
def expDown (p r : Nat) : Nat := expAux p r (p / 4 + 16) 0 (2 ^ p)

/-- Upper bound of e^r × 2^p for a fixed-point r in [0, 1). -/
def expUp (p r : Nat) : Nat := expDown p r + 4 * (p / 4 + 16) + 8

/-- ⌊(m × 2^e) × 2^p⌋ and ⌈·⌉ of a signed value. -/
def fixDown (p : Nat) (i : Int) (e : Int) : Int :=
  let k := e + p
  if 0 ≤ k then i * (2 ^ k.toNat : Nat) else i / ((2 ^ (-k).toNat : Nat) : Int)
def fixUp (p : Nat) (i : Int) (e : Int) : Int := -(fixDown p (-i) e)

/-- Enclosure of e^y for y enclosed at precision p, as 2^k times an enclosure in about [1, 2]: (k, enclosure).
y ÷ ln 2 must be smaller than 2^10 in size. -/
def expEnc (p : Nat) (y : Enc) : Int × Enc :=
  let l2 := ln2Enc p
  let k := y.lo / l2.lo - (if y.lo < 0 then 1 else 0)
  let r1 := y.lo - (if 0 ≤ k then k * l2.hi else k * l2.lo)
  let r2 := y.hi - (if 0 ≤ k then k * l2.lo else k * l2.hi)
  -- r1 and r2 lie in [−small, 2 ln 2); halve so that Taylor's argument is below 1
  let d1 : Nat := (r1 / 2).toNat
  let d2 : Nat := (r2 / 2 + 1).toNat
  let lo := mulDown p (expDown p d1) (expDown p d1)
  let hi := mulDown p (expUp p d2) (expUp p d2) + 1
  (k, ⟨(if r1 < 0 then (lo : Int) + 2 * r1 - 2 else lo), hi⟩)

/-- Round the two ends of an enclosure of a positive value at 2^(k−p) and compare. -/
def agree (neg : Bool) (k : Int) (p : Nat) (v : Enc) : Option (Nat × Nat) :=
  let a := toF32 (.fin neg v.lo.toNat (k - p))
  let b := toF32 (.fin neg v.hi.toNat (k - p))
  if a.1 = b.1 then some b else none

/-- Try a function at rising precision: 96, 192, 384, 768 bits. The last try takes the lower end. -/
def refine (f : Nat → Option (Nat × Nat)) (last : Nat × Nat) : Nat × Nat :=
  match f 96 with
  | some r => r
  | none => match f 192 with
    | some r => r
    | none => match f 384 with
      | some r => r
      | none => match f 768 with
        | some r => r
        | none => last

/-- The signed significand of a finite value. -/
def sInt (s : Bool) (m : Nat) : Int := if s then -(m : Int) else m

/-- Is |m × 2^e| at least 2^b? -/
def magAtLeast (m : Nat) (e b : Int) : Bool := decide (m ≠ 0) && decide (b ≤ e + Nat.log2 m)

def f32Inf : Nat := 0x7F800000
def f32NegInf : Nat := 0xFF800000
def f32Nan : Nat := 0x7FC00000

/-- e^x (R64). -/
def f32Exp (w : Nat) : Nat × Nat :=
  match f32 w with
  | .nan => (f32Nan, flagNan)
  | .inf s => if s then (0, 0) else (f32Inf, 0)
  | .fin s m e =>
    if m = 0 then (f32One, 0)
    else if magAtLeast m e 8 then (if s then (0, 0) else (f32Inf, flagOverflow))
    else refine (fun p =>
      let r := expEnc p ⟨fixDown p (sInt s m) e, fixUp p (sInt s m) e⟩
      agree false r.1 p r.2) (0, 0)

/-- 2^x (R64). An integer x gives a power of two exactly. -/
def f32Exp2 (w : Nat) : Nat × Nat :=
  match f32 w with
  | .nan => (f32Nan, flagNan)
  | .inf s => if s then (0, 0) else (f32Inf, 0)
  | .fin s m e =>
    if m = 0 then (f32One, 0)
    else if magAtLeast m e 9 then (if s then (0, 0) else (f32Inf, flagOverflow))
    else if 0 ≤ e || decide (m % 2 ^ (-e).toNat = 0) then
      toF32 (.fin false 1 (fixDown 0 (sInt s m) e))
    else refine (fun p =>
      let x1 := fixDown p (sInt s m) e
      let x2 := fixUp p (sInt s m) e
      let l2 := ln2Enc p
      -- split x = k + fraction, then 2^fraction = e^(fraction × ln 2)
      let k := x1 / (2 ^ p : Nat)
      let f1 := x1 - k * (2 ^ p : Nat)
      let f2 := x2 - k * (2 ^ p : Nat)
      let r1 := expDown p ((f1 * l2.lo) / (2 ^ p : Nat)).toNat
      let r2 := expUp p ((f2 * l2.hi) / (2 ^ p : Nat) + 1).toNat
      agree false k p ⟨r1, r2⟩) (0, 0)

/-- Enclosure at precision p of ln(m × 2^e) for m ≠ 0. -/
def lnEnc (p m : Nat) (e : Int) : Enc :=
  let n := Nat.log2 m
  let a := atanhEnc p (m - 2 ^ n) (m + 2 ^ n)
  let l2 := ln2Enc p
  let k := e + n
  ⟨2 * a.lo + (if 0 ≤ k then k * l2.lo else k * l2.hi), 2 * a.hi + (if 0 ≤ k then k * l2.hi else k * l2.lo)⟩

/-- Round an enclosure of a value of either sign. -/
def agreeSigned (p : Nat) (v : Enc) : Option (Nat × Nat) :=
  if 0 < v.lo then agree false 0 p v
  else if v.hi < 0 then agree true 0 p ⟨-v.hi, -v.lo⟩
  else none

/-- Natural logarithm (R64); ±0 gives −∞ exactly. -/
def f32Log (w : Nat) : Nat × Nat :=
  match f32 w with
  | .nan => (f32Nan, flagNan)
  | .inf s => if s then (f32Nan, flagNan) else (f32Inf, 0)
  | .fin s m e =>
    if m = 0 then (f32NegInf, 0)
    else if s then (f32Nan, flagNan)
    else if w = f32One then (0, 0)
    else refine (fun p => agreeSigned p (lnEnc p m e)) (0, 0)

/-- Base-2 logarithm (R64); a power of two gives its exponent exactly. -/
def f32Log2 (w : Nat) : Nat × Nat :=
  match f32 w with
  | .nan => (f32Nan, flagNan)
  | .inf s => if s then (f32Nan, flagNan) else (f32Inf, 0)
  | .fin s m e =>
    if m = 0 then (f32NegInf, 0)
    else if s then (f32Nan, flagNan)
    else if m = 2 ^ Nat.log2 m then toF32 (fpOfInt (e + Nat.log2 m))
    else refine (fun p =>
      let v := lnEnc p m e
      let l2 := ln2Enc p
      let P : Int := (2 ^ p : Nat)
      agreeSigned p
        (if 0 < v.lo then ⟨v.lo * P / l2.hi, v.hi * P / l2.lo + 1⟩ else ⟨v.lo * P / l2.lo - 1, v.hi * P / l2.hi + 1⟩))
      (0, 0)

/-- Reciprocal (R64): ±0 gives ±∞ exactly. -/
def f32Rcp (w : Nat) : Nat × Nat := toF32 (Fp.div (.fin false 1 0) (f32 w))

/-- Reciprocal square root (R64): 1 ÷ √x as √(1 ÷ x), both kept with sticky bits; ±0 gives ±∞ exactly. -/
def f32Rsqrt (w : Nat) : Nat × Nat :=
  match f32 w with
  | .nan => (f32Nan, flagNan)
  | .inf s => if s then (f32Nan, flagNan) else (0, 0)
  | .fin s m e =>
    if m = 0 then ((if s then f32NegInf else f32Inf), 0)
    else if s then (f32Nan, flagNan)
    else
      -- x = m' × 2^e' with e' even; 1/√x = 2^(−e'/2) / √m'
      let e' := if e % 2 = 0 then e else e - 1
      let m' := if e % 2 = 0 then m else 2 * m
      let n := 2 ^ 256 / m'
      let r := isqrt n
      toF32 (.fin false (2 * r + b2n (!(decide (r * r = n) && decide (n * m' = 2 ^ 256)))) (-(e' / 2) - 129))

/-- Enclosure of the logistic function of |x|, or of 1 − that, through e^(−|x|) = E: 1 ÷ (1 + E) and E ÷ (1 + E). -/
def f32Sigmoid (w : Nat) : Nat × Nat :=
  match f32 w with
  | .nan => (f32Nan, flagNan)
  | .inf s => if s then (0, 0) else (f32One, 0)
  | .fin s m e =>
    if m = 0 then (0x3F000000, 0)
    else if magAtLeast m e 8 then (if s then (0, 0) else (f32One, 0))
    else refine (fun p =>
      let r := expEnc p ⟨-(fixUp p (m : Int) e), -(fixDown p (m : Int) e)⟩
      -- E = r.2 × 2^(r.1 − p), with r.1 ≤ 0: bring to precision q = p − r.1
      let q := p + (-r.1).toNat
      let one : Int := (2 ^ q : Nat)
      if s then agree false 0 q ⟨r.2.lo * one / (one + r.2.lo), r.2.hi * one / (one + r.2.hi) + 1⟩
      else agree false 0 q ⟨one * one / (one + r.2.hi), one * one / (one + r.2.lo) + 1⟩) (0, 0)

/-- Hyperbolic tangent (R64). Below 2^−14 it lies within half a unit in the last place of x on the side of zero, so
it rounds to x; at 2^4 and above to ±1. -/
def f32Tanh (w : Nat) : Nat × Nat :=
  match f32 w with
  | .nan => (f32Nan, flagNan)
  | .inf s => (ffWithSign fp32 s f32One, 0)
  | .fin s m e =>
    if m = 0 || !(magAtLeast m e (-14)) then (w, 0)
    else if magAtLeast m e 4 then (ffWithSign fp32 s f32One, 0)
    else refine (fun p =>
      -- tanh |x| = (1 − E) ÷ (1 + E) with E = e^(−2|x|)
      let r := expEnc p ⟨-(2 * fixUp p (m : Int) e), -(2 * fixDown p (m : Int) e)⟩
      let q := p + (-r.1).toNat
      let one : Int := (2 ^ q : Nat)
      agree s 0 q ⟨(one - r.2.hi) * one / (one + r.2.hi), (one - r.2.lo) * one / (one + r.2.lo) + 1⟩) (w, 0)

end Sys2Proof.Machine
end

