-- ==== Sys2Proof/Machine/Select.lean ====
section
/-! DEFINITION. Scoring and selection of one token: spec/07_tridal_scoring.md R142 to R155. -/

namespace Sys2Proof.Machine

/-- The configuration of a layer slot in force (R162, R189). -/
structure LayerCfg where
  k : Nat
  spares : Nat
  weightMode : Nat
  exitEnable : Bool
  confSource : Nat
  exitThr : Nat
  fullMode : Nat
  spillPasses : Nat
  priority : Nat
  renorm : Nat
deriving DecidableEq, Repr

/-- A SELECT descriptor (R142). -/
structure SelectDesc where
  scoreAddr : Nat
  outAddr : Nat
  exitMapAddr : Nat
  stride : Nat
  t : Nat
  slotBase : Nat
  exitMapEn : Bool
  e : Nat
  layer : Nat
  fmt : Nat
  sorter : Nat
  rsvd : Nat
deriving DecidableEq, Repr

def SelectDesc.ofWord (w : Nat) : SelectDesc :=
  { scoreAddr := fld w 511 464, outAddr := fld w 463 416, exitMapAddr := fld w 415 368, stride := fld w 367 336,
    t := fld w 335 318, slotBase := fld w 317 301, exitMapEn := bit w 300, e := fld w 299 284 + 1,
    layer := fld w 283 276, fmt := fld w 275 272, sorter := fld w 271 267, rsvd := fld w 266 0 }

/-- The length n of every list: choices and spares. -/
def listLen (l : LayerCfg) : Nat := l.k + l.spares

/-- Bytes of a score row with its confidence element (R143). -/
def scoreRowBytes (l : LayerCfg) (d : SelectDesc) : Nat :=
  (d.e + (if l.confSource = 1 then 1 else 0)) * (fmtBits d.fmt / 8)

/-- The checks of R144 that do not concern the partition. -/
def selectOk (l : LayerCfg) (d : SelectDesc) : Bool :=
  d.rsvd = 0 && decide (d.fmt ≤ 2) && decide (1 ≤ d.t) && decide (d.t ≤ 131072) && decide (d.slotBase + d.t ≤ 131072)
    && d.scoreAddr % 64 = 0 && d.stride % 64 = 0 && d.outAddr % 16 = 0 && decide (scoreRowBytes l d ≤ d.stride)
    && l.k != 0 && decide (listLen l ≤ 32) && decide (listLen l ≤ d.e)

/-- ahead(a, b) of R146 on (index, FP32 score) pairs. -/
def aheadOf (a b : Nat × Nat) : Bool :=
  let x := f32 a.2
  let y := f32 b.2
  if x.isNan != y.isNan then y.isNan
  else if !x.isNan && (Fp.lt x y || Fp.lt y x) then Fp.lt y x
  else decide (a.1 < b.1)

/-- select(row, E, n) of R146. -/
def rankRow (n : Nat) (scores : List Nat) : List (Nat × Nat) :=
  (List.zip (List.range scores.length) scores).foldl (fun l c => (insertBy aheadOf c l).take n) []

/-- TOPK_SOFTMAX (R149): weights of the ranked scores, with flags. -/
def softmaxWeights (k : Nat) (scores : List Nat) : List Nat × Nat :=
  let m := scores.headD 0
  if (f32 m).isNan then (scores.map fun _ => 0, 0)
  else
    let e := scores.map fun s =>
      if (f32 s).isNan then (0, 0)
      else
        let d := if Fp.eq (f32 s) (f32 m) then (0, 0) else f32Sub s m
        let x := f32Exp d.1
        (x.1, lor d.2 x.2)
    let sum := treeSum ((e.take k).map (·.1))
    let w := e.map fun x => let q := f32Div x.1 sum.1; (q.1, lor x.2 q.2)
    (w.map (·.1), w.foldl (fun f x => lor f x.2) sum.2)

/-- The weights of a list under the layer's WEIGHT_MODE (R148, R149). -/
def listWeights (l : LayerCfg) (scores : List Nat) : List Nat × Nat :=
  if l.weightMode = 0 then (scores.map fun s => if (f32 s).isNan then 0 else s, 0) else softmaxWeights l.k scores

/-- A token tag (R154). -/
def tagOf (geid slot rank : Nat) (exit drop poison : Bool) (expert : Nat) : Nat :=
  geid * 2 ^ 44 + slot * 2 ^ 27 + rank * 2 ^ 22 + b2n exit * 2 ^ 21 + b2n drop * 2 ^ 20 + b2n poison * 2 ^ 19 + expert

def tagGeid (t : Nat) : Nat := fld t 63 44
def tagSlot (t : Nat) : Nat := fld t 43 27
def tagRank (t : Nat) : Nat := fld t 26 22
def tagExit (t : Nat) : Bool := bit t 21
def tagDrop (t : Nat) : Bool := bit t 20
def tagPoison (t : Nat) : Bool := bit t 19
def tagExpert (t : Nat) : Nat := fld t 15 0
/-- The token key (R155). -/
def tagKey (t : Nat) : Nat := fld t 63 27

/-- A selection entry (R153). -/
def selEntry (score weight tag : Nat) : Nat := score * 2 ^ 96 + weight * 2 ^ 64 + tag

/-- An exit record (R151). -/
def exitRecord (l : LayerCfg) (geid slot : Nat) (poison : Bool) : List Nat :=
  (List.range (listLen l)).map fun i => selEntry 0 0 (tagOf geid slot i true false poison 0)

/-- What selection makes of one token: its record, the TRIDAL_FLAGS and NUMERIC_FLAGS it sets, whether it exits. -/
structure TokenOut where
  record : List Nat
  tflags : Nat
  nflags : Nat
  exits : Bool
deriving DecidableEq, Repr

/-- One live token (R146 to R151, R157, R158). `conf` is the widened confidence element under CONF_SOURCE 1. -/
def selectToken (l : LayerCfg) (geid slot : Nat) (scores : List Nat) (conf : Nat) (poison disagree : Bool) : TokenOut :=
  let ranked := rankRow (listLen l) scores
  let rs := ranked.map (·.2)
  let w := listWeights l rs
  let nanTop := (f32 (rs.headD 0)).isNan
  let c := if l.confSource = 1 then conf else (w.1).headD 0
  let noConf := if l.confSource = 1 then (f32 conf).isNan else nanTop
  let exits := l.exitEnable && !noConf && !poison && !(Fp.lt (f32 c) (f32 l.exitThr)) && !(f32 l.exitThr).isNan
  let tf := (if anyNan scores then 1 else 0) + (if exits then 2 else 0) + (if poison then 4 else 0) + (if noConf then 8 else 0)
  let rec_ := if exits then exitRecord l geid slot disagree
    else (List.zip (List.range ranked.length) (List.zip ranked w.1)).map fun x =>
      selEntry x.2.1.2 x.2.2 (tagOf geid slot x.1 false false (poison || disagree) x.2.1.1)
  ⟨rec_, tf, w.2, exits⟩

end Sys2Proof.Machine
end

