-- ==== Sys2Proof/Machine/TridalParts.lean ====
section
/-! DEFINITION. The parts of the state that belong to rounds, and the pure rules of capacity and combine:
spec/08_tridal_dispatch.md R164 to R183. -/

namespace Sys2Proof.Machine

/-! Fields of the Tridal message header (R171). -/
def thType (h : Nat) : Nat := fld h 63 56
def thRound (h : Nat) : Nat := fld h 55 48
def thGroup (h : Nat) : Nat := fld h 47 32
def thPass (h : Nat) : Nat := fld h 31 27
def thSender (h : Nat) : Nat := fld h 26 17
def thCount (h : Nat) : Nat := fld h 16 0

/-- Compose a Tridal message header (R171). -/
def thMake (type round group pass sender count : Nat) : Nat :=
  type * 2 ^ 56 + round * 2 ^ 48 + group * 2 ^ 32 + pass * 2 ^ 27 + sender * 2 ^ 17 + count

/-! Fields of DEMAND and GRANT entries (R171). -/
def deScore (d : Nat) : Nat := fld d 127 96
def deExpert (d : Nat) : Nat := fld d 95 80
def deKey (d : Nat) : Nat := fld d 63 27
def deRank (d : Nat) : Nat := fld d 26 22
def deMake (score expert key rank : Nat) : Nat := score * 2 ^ 96 + expert * 2 ^ 80 + key * 2 ^ 27 + rank * 2 ^ 22
def grKey (g : Nat) : Nat := fld g 63 27
def grRank (g : Nat) : Nat := fld g 26 22
def grPoison (g : Nat) : Bool := bit g 21
def grPos (g : Nat) : Nat := fld g 17 0
def grMake (key rank : Nat) (poison : Bool) (pos : Nat) : Nat :=
  key * 2 ^ 27 + rank * 2 ^ 22 + b2n poison * 2 ^ 21 + pos

/-- A ROUND descriptor (R166). -/
structure RoundDesc where
  rsvd : Nat
  roundId : Nat
  groupId : Nat
  layer : Nat
  e : Nat
  slotBase : Nat
  t : Nat
  retBytes : Nat
  rowBytes : Nat
  retStride : Nat
  inStride : Nat
  actStride : Nat
  seqMap : Nat
  inboxTable : Nat
  ownerMap : Nat
  group : Nat
  stage : Nat
  act : Nat
  grant : Nat
  sel : Nat
deriving DecidableEq, Repr

def RoundDesc.ofWord (w : Nat) : RoundDesc :=
  { rsvd := fld w 1023 605 + fld w 556 539, roundId := fld w 604 597, groupId := fld w 596 581, layer := fld w 580 573,
    e := fld w 572 557 + 1, slotBase := fld w 538 522, t := fld w 521 504, retBytes := fld w 503 480,
    rowBytes := fld w 479 456, retStride := fld w 455 432, inStride := fld w 431 408, actStride := fld w 407 384,
    seqMap := fld w 383 336, inboxTable := fld w 335 288, ownerMap := fld w 287 240, group := fld w 239 192,
    stage := fld w 191 144, act := fld w 143 96, grant := fld w 95 48, sel := fld w 47 0 }

/-- The checks of R167 that the descriptor and its layer slot decide. -/
def roundDescOk (l : LayerCfg) (d : RoundDesc) : Bool :=
  d.rsvd = 0 && d.retStride % 64 = 0 && d.inStride % 64 = 0 && d.actStride % 64 = 0
    && decide (1 ≤ d.retBytes) && decide (d.retBytes ≤ d.retStride) && decide (1 ≤ d.rowBytes)
    && decide (d.rowBytes ≤ d.actStride) && decide (d.rowBytes ≤ d.inStride)
    && decide (d.rowBytes ≤ 4194288) && decide (d.retBytes ≤ 4194288)
    && decide (d.t ≤ 131072) && decide (d.slotBase + d.t ≤ 131072) && l.k != 0

/-! INBOX_ENTRY (R165). -/
def inboxValve (e : Nat) : Nat := fld e 109 96
def inboxCapacity (e : Nat) : Nat := fld e 81 64
def inboxAddr (e : Nat) : Nat := fld e 47 0
def inboxRsvd (e : Nat) : Nat := fld e 127 110 + fld e 95 82 + fld e 63 48
/-- ROW_OFFSET of an inbox of capacity C (R165). -/
def inboxRowOffset (c : Nat) : Nat := 64 + 64 * ceilDiv c 8

/-- A record of a member's selection list in a round (R170, R175). -/
structure RoundRec where
  entries : List Nat := []               -- selection entries by rank
  live : Bool := false                   -- it sends demands
  mismatch : Bool := false               -- R170: written as an exit record
  want : List Nat := []
  out : Nat := 0
  nxt : Nat := 0
  pos : List (Nat × Nat × Bool) := []    -- accepted: rank, POSITION, POISON of its grant
  dropped : List Nat := []               -- refused ranks
  sels : Bool := false                   -- some line of the record read poisoned
  bad : Bool := false                    -- R68, R176: a mismatch was found while its weights were formed
deriving DecidableEq, Repr

/-- One owned expert in a round (R165, R173, R179). -/
structure Expert where
  e : Nat
  entry : Nat
  a : Nat := 0                           -- A_e
  written : Bool := false                -- A_e has been written
  rows : List Nat := []                  -- positions written
  /-- R231: requests numbered below it carry the expert's stores, or earlier ones. -/
  mark : Nat := 0
  signalled : Bool := false
  returned : Option Nat := none          -- R180: the RETURN command that has been issued
deriving DecidableEq, Repr

/-- One accepted entry to dispatch: its sort key (owner, expert, POSITION) and its record (R178). -/
structure Parcel where
  owner : Nat
  expert : Nat
  pos : Nat
  bytes : List Byte
  poison : Bool
deriving DecidableEq, Repr

/-- A dispatch packer's part in a round (R170, R176, R178), in its own records: those below `taken` are read, those below
`wrote` have their grants written, those below `read` have their rows read. -/
structure PackerRun where
  taken : Nat := 0                       -- selection records read
  wrote : Nat := 0
  read : Nat := 0
  parcels : List Parcel := []
  sent : Bool := false                   -- its buckets have been formed
deriving DecidableEq, Repr

/-- An open round (R168) on this member. -/
structure RoundRun where
  cmd : Nat
  ctx : Nat
  partition : Nat
  desc : RoundDesc
  layer : LayerCfg
  members : List Nat                     -- GEIDs in member order
  self : Nat
  owner : List Nat                       -- owner map
  experts : List Expert                  -- owned experts
  recs : List RoundRec
  begun : Bool := false                  -- R170: its first demands have been sent
  opass : Nat := 0                       -- origin: pass under way
  grants : List (Nat × Nat × Nat) := []  -- pass, sender, GRANT entry
  grantEnds : List (Nat × Nat × Nat) := []   -- pass, sender, TOTAL
  lpass : Nat := 0                       -- ledger: pass under way
  demands : List (Nat × Nat × Nat) := [] -- pass, sender, DEMAND entry
  demandEnds : List (Nat × Nat × Nat) := []
  suspect : List Nat := []               -- R174: experts on which the ledger copies disagree in this pass
  homes : List Nat := []                 -- R169: home H-die of each record
  seqs : List Nat := []                  -- R169: sequence of each record; empty without accounting
  /-- R173: the pass that the ledger closes has been granted: (origin, GRANT entry); its GRANT_ENDs are still to be sent. -/
  closing : Option (List (Nat × Nat)) := none
  packers : List PackerRun := [{}, {}]   -- R176, R178: H-die 0's and H-die 1's
  stage : List Nat := []                 -- R181: stage indices whose row has arrived
deriving DecidableEq, Repr

/-- A SELECT at its sorter (R141, R145), in the order in which they became eligible. -/
structure SelectRun where
  cmd : Nat
  ctx : Nat
  desc : Option SelectDesc := none       -- none while its descriptor is still to be read
  next : Nat := 0                        -- tokens done
deriving DecidableEq, Repr

/-- One bucket of records on its way out of a packer (R178): a ROWS or RETURN_ROWS message. -/
structure PackJob where
  cmd : Nat
  ctx : Nat
  hdie : Nat
  dest : Nat
  header : Nat                           -- R171
  recs : List (List Byte × Bool)         -- records and their poison
  bucket : Nat                           -- bytes of the bucket requested
deriving DecidableEq, Repr

/-- P of R170. -/
def passCount (l : LayerCfg) : Nat := if l.fullMode = 1 then 1 + min l.spillPasses l.spares else 1

/-- prio_ahead(a, b) of R172. -/
def prioAhead (l : LayerCfg) (a b : Nat) : Bool :=
  let x := f32 (deScore a)
  let y := f32 (deScore b)
  if l.priority = 1 && x.isNan != y.isNan then y.isNan
  else if l.priority = 1 && !x.isNan && (Fp.lt x y || Fp.lt y x) then Fp.lt y x
  else decide (deKey a < deKey b)

/-- close_pass(e, D) of R173 for one expert: A_e after, and (origin sender, GRANT entry) for each demand granted.
Demands are given as (sender, entry); `bad` marks an expert on which the two copies disagree (R174). -/
def closeExpert (l : LayerCfg) (cap a : Nat) (bad : Bool) (ds : List (Nat × Nat)) : Nat × List (Nat × Nat) :=
  (sortBy (fun x y => prioAhead l x.2 y.2) ds).foldl (fun st d =>
    if st.1 < cap then (st.1 + 1, st.2 ++ [(d.1, grMake (deKey d.2) (deRank d.2) bad st.1)]) else st) (a, [])

/-- Settle one record after pass p (R175). -/
def settleRec (n : Nat) (key : Nat) (gs : List Nat) (r : RoundRec) : RoundRec :=
  if !r.live then r
  else
    let r1 := r.want.foldl (fun r i =>
      match gs.find? fun g => grKey g = key && grRank g = i with
      | some g => { r with pos := r.pos ++ [(i, grPos g, grPoison g)], out := r.out - 1 }
      | none => { r with dropped := r.dropped ++ [i] }) r
    let m := min r1.out (n - r1.nxt)
    { r1 with want := (List.range m).map (· + r1.nxt), nxt := r1.nxt + m }

/-- A selection entry's weight. -/
def selWeight (e : Nat) : Nat := fld e 95 64

/-- A selection tag as the device writes it again: bits [18:16], reserved, are zero (R5). -/
def cleanTag (e : Nat) : Nat := putFld (e % 2 ^ 64) 18 16 0

/-- The grant list's entries of one record (R176), with flags. An exit record is copied unchanged. What a mismatch was found
in is poisoned (R68): the weights of all its accepted entries. -/
def grantRecord (renorm : Nat) (r : RoundRec) : List Nat × Nat :=
  let n := r.entries.length
  if !r.live then
    (r.entries.map fun e => 0xFFFFFFFF * 2 ^ 96 + e % 2 ^ 96, 0)
  else
    let acc := fun i => r.pos.find? fun p => p.1 = i
    let w := treeSum ((List.zip (List.range n) r.entries).map fun x => if (acc x.1).isSome then selWeight x.2 else 0)
    let es := (List.zip (List.range n) r.entries).map fun x =>
      match acc x.1 with
      | some p =>
        let q := if renorm = 1 then (if w.1 % 2 ^ 31 = 0 then (0, 0) else f32Div (selWeight x.2) w.1) else (selWeight x.2, 0)
        let tag := cleanTag x.2
        (p.2.1 * 2 ^ 96 + q.1 * 2 ^ 64 + (if p.2.2 || r.bad then setBit tag 19 else tag), q.2)
      | none =>
        let tag := cleanTag x.2
        (0xFFFFFFFF * 2 ^ 96 + (if r.dropped.contains x.1 then setBit tag 20 else tag), 0)
    (es.map (·.1), es.foldl (fun f x => lor f x.2) (if renorm = 1 then w.2 else 0))

/-- One output element of a record (R183): (w′, widened element) of each accepted entry in rank order. -/
def combineElem (fmtOut : Nat) (terms : List (Nat × Nat)) : Nat × Nat :=
  let s := terms.foldl (fun a t => let r := f32Fma t.1 t.2 a.1; (r.1, lor a.2 r.2)) (0, 0)
  if fmtOut = 0 then s
  else let r := ffEncode bf16 .nearest (f32 s.1); (r.1, lor s.2 r.2)

/-- A COMBINE descriptor (R182). -/
structure CombineDesc where
  rsvd : Nat
  unit : Nat
  fmtOut : Nat
  fmtIn : Nat
  d : Nat
  count : Nat
  first : Nat
  roundId : Nat
  groupId : Nat
  outStride : Nat
  outAddr : Nat
deriving DecidableEq, Repr

def CombineDesc.ofWord (w : Nat) : CombineDesc :=
  { rsvd := fld w 255 214 + fld w 99 48, unit := fld w 213 209, fmtOut := fld w 208 205, fmtIn := fld w 204 201,
    d := fld w 200 184, count := fld w 183 166, first := fld w 165 148, roundId := fld w 147 140,
    groupId := fld w 139 124, outStride := fld w 123 100, outAddr := fld w 47 0 }

/-- A COMBINE running or waiting on a cluster's combine unit (R182, R183). -/
structure CombineRun where
  cmd : Nat
  ctx : Nat
  desc : CombineDesc
  next : Nat := 0                        -- records done
  begun : Bool := false                  -- the next record has begun
  seen : Option ArithStep := none        -- R67: a step of its sums
deriving DecidableEq, Repr

end Sys2Proof.Machine
end

