-- ==== Sys2Proof/Machine/UpdateParts.lean ====
section
/-! DEFINITION. The cistern update unit's descriptor, planes and arithmetic, on values alone, and the schedule's curves:
spec/12_update_unit.md R273 to R283. -/

namespace Sys2Proof.Machine

/-- UPDATE_DESC (R273). -/
structure UpdDesc where
  rsvd : Nat
  rule : Nat
  group : Nat
  advance : Bool
  sr : Bool
  copyFmt : Nat
  gradBf16 : Bool
  paramSbf16 : Bool
  rows : Nat
  n : Nat
  beta1 : Nat
  beta2 : Nat
  eps : Nat
  gscale : Nat
  scratch : Nat
  copyScale : Nat
  copy : Nat
  vDst : Nat
  vSrc : Nat
  mDst : Nat
  mSrc : Nat
  grad : Nat
  pDst : Nat
  pSrc : Nat
deriving DecidableEq, Repr

def UpdDesc.ofWord (w : Nat) : UpdDesc :=
  { rsvd := fld w 1023 686, rule := fld w 685 684, group := fld w 683 674, advance := bit w 673, sr := bit w 672,
    copyFmt := fld w 671 670, gradBf16 := bit w 669, paramSbf16 := bit w 668, rows := fld w 667 644, n := fld w 643 608,
    beta1 := fld w 607 576, beta2 := fld w 575 544, eps := fld w 543 512, gscale := fld w 511 480,
    scratch := fld w 479 432, copyScale := fld w 431 384, copy := fld w 383 336, vDst := fld w 335 288,
    vSrc := fld w 287 240, mDst := fld w 239 192, mSrc := fld w 191 144, grad := fld w 143 96, pDst := fld w 95 48,
    pSrc := fld w 47 0 }

/-- RULE is FACTORED. -/
def UpdDesc.factored (d : UpdDesc) : Bool := d.rule = 2

/-- Columns of the FACTORED parameter matrix (R279). -/
def UpdDesc.cols (d : UpdDesc) : Nat := d.n / d.rows

/-- Bytes of one slice of a parameter plane (R274). -/
def UpdDesc.pSlice (d : UpdDesc) : Nat := if d.paramSbf16 then 2112 else 4096

/-- Does the rule use first moments, second moments (R273, R278, R279)? -/
def UpdDesc.usesM (d : UpdDesc) : Bool := !(d.factored && d.beta1 = 0)
def UpdDesc.usesV (d : UpdDesc) : Bool := d.rule = 1 || d.factored

/-- Bytes of the second-moment or statistics plane. -/
def UpdDesc.vBytes (d : UpdDesc) : Nat := if d.factored then 4 * (d.rows + d.cols) else d.n / 1024 * 1088

/-- A plane is given exactly when it is used. -/
def planeOk (used : Bool) (a : Nat) : Bool := (a != 0) == used

/-- A DST plane equals its SRC plane or does not meet it. -/
def pairApart (src dst n : Nat) : Bool := src = dst || !overlaps src n dst n

/-- An FP32 value from 0 to 1 inclusive. -/
def betaOk (w : Nat) : Bool :=
  !(f32 w).isNan && !Fp.lt (f32 w) (.fin false 0 0) && !Fp.lt (.fin false 1 0) (f32 w)

/-- The checks of R277. -/
def updOk (d : UpdDesc) : Bool :=
  d.rsvd = 0 && d.copyFmt != 3 && d.n != 0 && d.n % 1024 = 0
    && [d.scratch, d.copyScale, d.copy, d.vDst, d.vSrc, d.mDst, d.mSrc, d.grad, d.pDst, d.pSrc].all (fun a => a % 64 = 0)
    && d.grad != 0 && d.pSrc != 0 && d.pDst != 0
    && planeOk d.usesM d.mSrc && planeOk d.usesM d.mDst && planeOk d.usesV d.vSrc && planeOk d.usesV d.vDst
    && planeOk d.factored d.scratch && planeOk (d.copyFmt != 0) d.copy && planeOk (d.copyFmt = 2) d.copyScale
    && pairApart d.pSrc d.pDst (d.n / 1024 * d.pSlice) && pairApart d.mSrc d.mDst (d.n / 1024 * 1088)
    && (!d.usesV || !d.factored || d.rows != 0) && pairApart d.vSrc d.vDst d.vBytes
    && betaOk d.beta1 && betaOk d.beta2
    && (!(d.rule = 1 || d.factored) || f32PosFinite d.eps)
    && !(f32 d.gscale).isNan && !(f32 d.gscale).isInf
    && (!d.factored || (d.rows != 0 && d.n % (d.rows * 1024) = 0))

/-! ### Values with flags -/

/-- An FP32 value with the NUMERIC_FLAGS gathered on the way to it. -/
abbrev FV := Nat × Nat

def fvAdd (a b : FV) : FV := let r := f32Add a.1 b.1; (r.1, lor r.2 (lor a.2 b.2))
def fvSub (a b : FV) : FV := let r := f32Sub a.1 b.1; (r.1, lor r.2 (lor a.2 b.2))
def fvMul (a b : FV) : FV := let r := f32Mul a.1 b.1; (r.1, lor r.2 (lor a.2 b.2))
def fvDiv (a b : FV) : FV := let r := f32Div a.1 b.1; (r.1, lor r.2 (lor a.2 b.2))
def fvSqrt (a : FV) : FV := let r := f32Sqrt a.1; (r.1, lor r.2 a.2)
def fvFma (a b c : FV) : FV := let r := f32Fma a.1 b.1 c.1; (r.1, lor r.2 (lor a.2 (lor b.2 c.2)))
def fvNeg (a : FV) : FV := ((if a.1 ≥ 2 ^ 31 then a.1 - 2 ^ 31 else a.1 + 2 ^ 31), a.2)
def fvConst (w : Nat) : FV := (w, 0)
/-- fp32(n) of R279 and R283: an integer to nearest even. -/
def fvInt (n : Nat) : FV := ((toF32 (fpOfInt n)).1, 0)

/-- One element's results: the new parameter, first moment and second moment. -/
structure ElemOut where
  p : FV
  m : FV
  v : FV
deriving DecidableEq, Repr

/-- p' = fma(−η, fma(λ, p, x), p), the last line of every rule. -/
def stepParam (eta lam : Nat) (p x : FV) : FV := fvFma (fvNeg (fvConst eta)) (fvFma (fvConst lam) p x) p

/-- u of the SIGN rule (R278). -/
def signOf (c : FV) : FV :=
  if (f32 c.1).isNan then (0x7FC00000, c.2)
  else if (f32 c.1).isZero then (0, c.2)
  else (if c.1 ≥ 2 ^ 31 then 0xBF800000 else f32One, c.2)

/-- One element under MOMENTUM, ADAPTIVE or SIGN (R278). -/
def updElem (d : UpdDesc) (eta lam : Nat) (g p m v : FV) : ElemOut :=
  let b1 := fvConst d.beta1
  let b2 := fvConst d.beta2
  match d.rule with
  | 0 =>
    let m' := fvFma b1 m g
    ⟨stepParam eta lam p m', m', v⟩
  | 1 =>
    let m' := fvFma b1 (fvSub m g) g
    let q := fvMul g g
    let v' := fvFma b2 (fvSub v q) q
    let r := fvDiv m' (fvAdd (fvSqrt v') (fvConst d.eps))
    ⟨stepParam eta lam p r, m', v'⟩
  | _ =>
    let c := fvFma b1 (fvSub m g) g
    let m' := fvFma b2 (fvSub m g) g
    ⟨stepParam eta lam p (signOf c), m', v⟩

/-- One element of phase 4 of FACTORED (R279). -/
def factoredElem (d : UpdDesc) (eta lam : Nat) (g p m r c rmean : FV) : ElemOut :=
  let vh := fvDiv (fvMul r c) rmean
  let u := fvDiv g (fvSqrt vh)
  let m' := if d.beta1 = 0 then u else fvFma (fvConst d.beta1) (fvSub m u) u
  ⟨stepParam eta lam p m', m', (0, 0)⟩

/-! ### Planes (R274) -/

/-- One block of 32 elements read from a slice of a plane: the 32 codes and the scale byte. -/
structure BlockIn where
  codes : List Nat
  scale : Nat
deriving DecidableEq, Repr

/-- Block `b` (0 to 31) of a slice given as bytes: elements of `w` bytes, scale bytes behind them where it has any. -/
def blockOf (w : Nat) (slice : List Byte) (b : Nat) : BlockIn :=
  ⟨(chunks w ((slice.drop (32 * w * b)).take (32 * w))).map leNat, (slice.getD (1024 * w + b) 0).toNat⟩

/-- Parameters of a block in FP32 (R277's text: scaled values rounded once). -/
def paramVals (sbf16 : Bool) (b : BlockIn) : List FV :=
  if sbf16 then b.codes.map (scaledToF32 1 1 0 b.scale) else b.codes.map fun c => (c, 0)

/-- Moments of a block in FP32. -/
def momentVals (b : BlockIn) : List FV := b.codes.map (scaledToF32 3 1 0 b.scale)

/-- g = widen(grad) × GSCALE. -/
def gradVals (d : UpdDesc) (codes : List Nat) : List FV :=
  codes.map fun c => fvMul (widen (if d.gradBf16 then 1 else 0) c) (fvConst d.gscale)

/-- What is stored for a block: element bytes, scale byte, flags. -/
structure BlockOut where
  bytes : List Byte
  scale : Nat
  flags : Nat
deriving DecidableEq, Repr

/-- Stream of a stored result (R275): GROUP_STEP and kind q. -/
def updStream (step q : Nat) : Nat := step % 2 ^ 22 * 4 + q

/-- Block-scaled store of 32 values from element index `i0` on. -/
def storeScaled (fmt w : Nat) (r : Nat → Rounding) (i0 : Nat) (vals : List Nat) : BlockOut :=
  let q := quantOcp fmt r i0 vals
  ⟨(q.2.1.map (natLe w)).flatten, q.1, q.2.2⟩

/-- Unscaled store in FP32 or BF16. -/
def storePlain (fmt w : Nat) (r : Nat → Rounding) (i0 : Nat) (vals : List Nat) : BlockOut :=
  let q := (List.zip (List.range vals.length) vals).map fun x => fmtEncode fmt (r (i0 + x.1)) (f32 x.2)
  ⟨(q.map fun c => natLe w c.1).flatten, 0, q.foldl (fun f c => lor f c.2) 0⟩

/-- The parameter plane's block. -/
def storeParam (d : UpdDesc) (r : Nat → Rounding) (i0 : Nat) (vals : List Nat) : BlockOut :=
  if d.paramSbf16 then storeScaled 1 2 r i0 vals else storePlain 0 4 r i0 vals

/-- The working copy's block (R276). -/
def storeCopy (d : UpdDesc) (r : Nat → Rounding) (i0 : Nat) (vals : List Nat) : BlockOut :=
  match d.copyFmt with
  | 0 => ⟨[], 0, 0⟩
  | 1 => storePlain 1 2 r i0 vals
  | _ => storeScaled 3 1 r i0 vals

/-- Why a block is skipped (R280): a poisoned gradient line, or a g that is NaN or infinite. -/
inductive Skip where
  | no | poisoned | nonFinite
deriving DecidableEq, Repr

def skipOf (poisoned : Bool) (g : List FV) : Skip :=
  if poisoned then .poisoned else if anyNonFinite (g.map (·.1)) then .nonFinite else .no

/-- One block of a slice: what each plane gets, the flags, and whether it was skipped. -/
structure BlockRes where
  p : BlockOut
  m : BlockOut
  v : BlockOut
  copy : BlockOut
  skip : Skip
  flags : Nat
deriving DecidableEq, Repr

/-- The source block written on unchanged (R280). -/
def keepBlock (w : Nat) (b : BlockIn) : BlockOut := ⟨(b.codes.map (natLe w)).flatten, b.scale, 0⟩

/-- One block of 32 elements from element index `i0` on, by the element rule `f` (R278, R280, R281). -/
def updBlock (d : UpdDesc) (seed step i0 : Nat) (gradPoison : Bool) (g : List FV) (p m v : BlockIn)
    (f : Nat → FV → FV → FV → FV → ElemOut) : BlockRes :=
  let skip := skipOf gradPoison g
  let r := fun q i => roundingOf d.sr seed (updStream step q) i
  let pv := paramVals d.paramSbf16 p
  let pw := if d.paramSbf16 then 2 else 4
  match skip with
  | .no =>
    let mv := momentVals m
    let vv := momentVals v
    let es := (List.range 32).map fun i =>
      f i (nth (0, 0) g i) (nth (0, 0) pv i) (nth (0, 0) mv i) (nth (0, 0) vv i)
    let ef := es.foldl (fun a e => lor a (lor e.p.2 (lor e.m.2 e.v.2))) 0
    let po := storeParam d (r 0) i0 (es.map (·.p.1))
    let mo := storeScaled 3 1 (r 1) i0 (es.map (·.m.1))
    let vo := storeScaled 3 1 (r 2) i0 (es.map (·.v.1))
    let co := storeCopy d (r 3) i0 (es.map (·.p.1))
    ⟨po, mo, vo, co, skip, lor ef (lor po.flags (lor (if d.usesM then mo.flags else 0)
      (lor (if d.rule = 1 then vo.flags else 0) co.flags)))⟩
  | _ =>
    let co := storeCopy d (r 3) i0 (pv.map (·.1))
    let read := if d.copyFmt = 0 then 0 else pv.foldl (fun a x => lor a x.2) 0
    ⟨keepBlock pw p, keepBlock 1 m, keepBlock 1 v, co, skip, lor co.flags (g.foldl (fun a x => lor a x.2) read)⟩

/-! ### The schedule (R282, R283) -/

/-- One knot: STEP, LR, WD, and whether its reserved bits are zero. -/
structure Knot where
  step : Nat
  lr : Nat
  wd : Nat
  ok : Bool
deriving DecidableEq, Repr

def Knot.ofWord (w : Nat) : Knot := ⟨fld w 31 0, fld w 63 32, fld w 95 64, fld w 127 96 = 0⟩

/-- The knots of a record of 64: those before the first whose STEP is 0xFFFF_FFFF. -/
def knotsOf (rec_ : List Nat) : List Knot := (rec_.map Knot.ofWord).takeWhile fun k => k.step != 0xFFFFFFFF

/-- STEPs strictly ascend. -/
def knotsAscend : List Knot → Bool
  | a :: b :: rest => decide (a.step < b.step) && knotsAscend (b :: rest)
  | _ => true

/-- A curve that is not to be used (R282). -/
def curveBad (ks : List Knot) : Bool := !knotsAscend ks || ks.any fun k => !k.ok

/-- The segment [k0, k1) that holds step `s`. -/
def curveSeg (s : Nat) : List Knot → Option (Knot × Knot)
  | a :: b :: rest => if a.step ≤ s && s < b.step then some (a, b) else curveSeg s (b :: rest)
  | _ => none

/-- (η, λ) of a curve at step `s` (R283). -/
def curveAt (ks : List Knot) (s : Nat) : Nat × Nat :=
  match ks with
  | [] => (0, 0)
  | k0 :: _ =>
    let kl := ks.getLastD k0
    if s ≤ k0.step then (k0.lr, k0.wd)
    else if kl.step ≤ s then (kl.lr, kl.wd)
    else
      match curveSeg s ks with
      | none => (0, 0)
      | some (a, b) =>
        let f := fvDiv (fvInt (s - a.step)) (fvInt (b.step - a.step))
        let along := fun x y => (fvFma f (fvSub (fvConst y) (fvConst x)) (fvConst x)).1
        (along a.lr b.lr, along a.wd b.wd)

/-- One unit's part in the phase of an UPDATE that runs (R272, R279): what it has done of its slices, or rows in phase 2. -/
structure UpdUnit where
  done : Nat := 0
  sums : List FV := []                   -- phase 1: column sums of the column block under way
  bad : List Nat := []                   -- phase 1: its groups of 32 columns in which a mismatch was found
deriving DecidableEq, Repr

/-- An UPDATE under way (R272), in the order in which they became eligible: its descriptor, its phase (1 but for FACTORED),
its units, and the mean of phase 3. -/
structure UpdateRun where
  cmd : Nat
  ctx : Nat
  desc : Option UpdDesc := none          -- none while its descriptor is still to be read
  phase : Nat := 1
  units : List UpdUnit := List.replicate 32 {}
  rmean : Nat := 0
  rmeanPoison : Bool := false
deriving DecidableEq, Repr

/-- The phases of a command. -/
def UpdDesc.phases (d : UpdDesc) : Nat := if d.factored then 4 else 1

/-- How many numbers below `n` leave the remainder `u` modulo 32. -/
def shareOf (n u : Nat) : Nat := (n + 31 - u) / 32

/-- What unit `u` has to do in a phase (R272, R279): slices, or rows in phase 2; in phase 3, unit 0's one step. -/
def UpdDesc.share (d : UpdDesc) (phase u : Nat) : Nat :=
  if !d.factored then shareOf (d.n / 1024) u
  else match phase with
    | 2 => shareOf d.rows u
    | 3 => if u = 0 then 1 else 0
    | _ => d.rows * shareOf (d.cols / 1024) u

/-- The slice that is the `k`-th of unit `u` (R272, R279): its row, column block and number; a plain rule's slices are one row. -/
def UpdDesc.sliceOf (d : UpdDesc) (u k : Nat) : Nat × Nat × Nat :=
  if !d.factored then (0, u + 32 * k, u + 32 * k)
  else
    let b := u + 32 * (k / d.rows)
    (k % d.rows, b, k % d.rows * (d.cols / 1024) + b)

end Sys2Proof.Machine
end

