-- ==== Sys2Proof/Machine/State.lean ====
section
/-! DEFINITION. The state of the block: the stroke clock, the device (every register, buffer, queue, counter and pin
that spec/ gives the S480), and the queue of waiting commands; its faults and refusals; the machine after reset. -/

namespace Sys2Proof.Machine

/-- Everything in the module but its stroke clock and the queue of commands. Field defaults are the reset values. -/
structure Dev where
  /-- R382, R415, R426: no power, in reset, working or stopped. The state after reset is held by power-on (log entry 8). -/
  life : Life := .held .powerOn
  resetCause : Nat := 0                  -- R382, R403
  resetAsked : Bool := false             -- R382: DEVICE_RESET has been written
  straps : Nat := 0                      -- R445: SLOT_ID as sampled at reset release
  prime : SMap Nat := []                 -- R384: state codes of the functions, by `primeKey`; reset PRIMING
  boot : Boot := {}
  attest : Attest := {}
  identity : Nat := 0                    -- R401: IDENTITY_STATUS
  flash : SMap Byte := []                -- R389: the boot flash
  flashOp : Option FlashOp := none       -- R395
  fusedSvn : Nat := 0                    -- R393
  keyRevoked : Nat := 0                  -- R393
  resetPinHigh : Bool := true            -- R444: MODULE_RESET_N
  perstHigh : Bool := true               -- R444: PERST_N
  tap : TestPort := {}                   -- R450
  mem : Memory := Memory.reset           -- R240 to R243, R102
  hostMem : SMap Byte := []              -- host memory as the device reads and writes it (R373, R374)
  /-- R283: memory as it stood at the deadline of the turnover in progress. -/
  deadlineMem : Option Memory := none
  /-- R354, R355: values of dictionary entries that differ from their defaults, by entry and element (`ctr`). -/
  val : SMap Nat := []
  /-- R355: pending RS writes, by entry and element. -/
  pend : SMap (Option Nat) := []
  /-- R355: RS writes accepted while a turnover is in progress; pending from the next phase 0. -/
  pendLate : SMap (Option Nat) := []
  regs : SMap RegBlock := []             -- R363: per function
  kept : List Kept := []                 -- R366
  reqQueue : List WaitReq := []          -- R356, R366: requests not yet served, in order of arrival
  slotHeld : List Instr := []            -- R30: host accesses to cisterns that wait for the end of a refresh slot
  ctxs : SMap Ctx := []                  -- R337: per context
  defines : List DefineAsk := []         -- R337
  clusters : SMap Cluster := []          -- R343: per cluster
  cores : SMap Core := []                -- R93: per core
  hqueues : SMap HQueue := []            -- R205: per handle queue
  pools : SMap Pool := []                -- R220: partition × 16 + 2 × class + H-die
  buckets : SMap (Option Bucket) := []   -- R223: per handle
  valves : SMap Nat := []                -- R228: counts
  valveBad : List Nat := []              -- R235: valves whose count has had a parity error in the stroke
  valvePend : List PendWait := []        -- R230: queue commands that wait on valves, in the order they became pending
  sqs : SMap SqRun := []                 -- R374
  cqs : SMap CqRun := []                 -- R374
  inForce : List QCmd := []              -- R375
  jobPosts : List QCmd := []             -- R378: commands examined or refused, posted at the next verdict
  heldCq : List CqEntry := []            -- R379: completion entries held for want of room
  updates : List UpdateRun := []         -- R272
  updLast : SMap Nat := []               -- R272: the command whose slice each unit served last, plus 1
  advances : List (Nat × Nat) := []      -- R283: commands of the stroke with ADVANCE set, with their groups
  schedBad : List Nat := []              -- R282: groups whose curve is not usable this stroke
  rounds : List RoundRun := []           -- R168
  roundsOpened : List (Nat × Nat) := []  -- R167: rounds opened in the stroke: group, round
  slotHome : SMap Nat := []              -- R169: home cluster of each token slot's last SELECT of the stroke, plus 1
  selects : List SelectRun := []         -- R141: SELECTs at the sorters, oldest first
  /-- R171: demand messages held for rounds not yet open, with the experts on which the ledger copies disagree; and ROWS
  messages halted on a page (R186). -/
  tridalHeld : List (TridalIn × List Nat) := []
  /-- R171: class-2 Tridal messages in the router's receive buffers while the ingress is full. -/
  tridalWait : List (TridalIn × List Nat) := []
  demandsOut : List (Nat × Nat × Nat) := [] -- R307: DEMAND and DEMAND_END messages sent: GEID, end-to-end number, context
  packQueue : List PackJob := []         -- R178: buckets the packers have still to fill and send
  packWait : List Nat := []              -- R178: packers (H-dies) whose request was answered POOL_EMPTY
  packOut : List (Nat × Nat × Nat) := [] -- R178: buckets in transfer: request, context, handle
  combines : List CombineRun := []       -- R182
  groups : SMap (Option CollGroup) := [] -- R316: per slot
  allsums : List Allsum := []            -- R320
  collHeld : List CollSeen := []         -- R324: packets held for ALLSUMs not yet started
  reqs : List Req := []                  -- R262
  reqNext : Nat := 0
  e2eNext : SMap Nat := []               -- R300: next end-to-end number towards a GEID
  atomicNext : SMap Nat := []            -- R264: next sequence ID towards a GEID
  atomicTop : SMap Nat := []             -- R264: atomics numbered by a source towards this device in the stroke
  fetched : List Fetched := []
  respCaches : List RespCache := []      -- R264
  openBulks : List OpenBulk := []        -- R268
  sentBulks : List SentBulk := []        -- R309
  bulkNext : SMap Nat := []              -- R268: next bulk sequence number towards a GEID
  bulkSeen : SMap Nat := []              -- R268: next bulk sequence number expected from a GEID
  bulkHeld : List (BulkIn × HdieId) := [] -- R268: transfers that wait for an earlier one, with the gateway that received them
  badPages : List (Nat × Nat) := []      -- R253: context, page: pages whose host read has failed in the stroke
  scrubAt : SMap Nat := []               -- R407: next line of each cistern's scrubber
  regSent : SMap Nat := []               -- R336: bytes sent in the window, H-die × 8 + partition
  regHeld : List (Nat × Sent) := []      -- R336: packets that wait for the next window, with their links
  shapeHeld : List Shaped := []          -- R310: packets that wait for their destinations' rates
  heldIn : List Instr := []              -- R34: tagged packets that wait at ingress for phase 0
  ports : SMap Port := []                -- R289
  links : SMap Link := []                -- R295: per link number
  burstOn : Bool := false                -- R35: the turnover's refresh burst runs
  storeQueue : List (Nat × List Byte × Bool) := [] -- R35: stores queued at the cistern logic dies while it runs
  slotOn : Bool := false                 -- R30: an in-stroke refresh slot runs: cisterns serve no accesses
  routes : RouteTable := []              -- R304: active copy
  shadow : Option RouteTable := none     -- R305: shadow copy
  /-- R305: the load of a route image that is under way: the image's address, and memory as it stood when it began. -/
  routeLoad : Option (Nat × Memory) := none
  epochDue : Option (Nat × Nat) := none  -- R306: new epoch, effective stroke E
  rates : List RateEntry := []           -- R310
  echoes : List Nat := []                -- R310: sources owed an ECN echo
  logs : SMap Nat := []                  -- R417: records, domain × 64 + place
  logCount : SMap Nat := []              -- R417: records held, per domain
  logSeq : SMap Nat := []                -- R418: record numbers, per domain
  ls : LockStep := {}                    -- R419
  power : Power := {}                    -- R430
  unitResets : List UnitName := []       -- R413: hung units to be reset
  worked : Bool := false                 -- MODEL'S OWN: a command has been in force since reset (log entry 32)
  trained : Bool := false                -- MODEL'S OWN: a port has trained since reset (log entry 32)
  /-- MODEL'S OWN: the moment at which a counter of timing was last read (log entry 32). -/
  timingSeen : SMap (List Nat) := []
  /-- MODEL'S OWN: occasions of undefined values so far (log entry 2). -/
  freeCtr : Nat := 0
  /-- MODEL'S OWN: what the module has sent out, oldest first (log entry 9). -/
  out : List Output := []
deriving DecidableEq, Repr

/-- The state of the block. -/
structure State where
  clk : Clock
  dev : Dev
  pending : List Instr
deriving DecidableEq, Repr

/-- Faults: none. Every command of the S480 leaves the block in a next state. `unreachable` is raised by nobody: it is
safe. -/
inductive Fault where
  | unreachable
deriving DecidableEq, Repr

/-- Refusals. -/
inductive Refusal where
  /-- A command whose meaning has not been written: raised by its arm of `exec` alone. Safe. -/
  | notModelled (mnemonic : String)
deriving DecidableEq, Repr

/-- The machine right after reset (R382, R383): power is good, the reset is still held, nothing has happened yet. -/
def State.reset : State := { clk := {}, dev := {}, pending := [] }

end Sys2Proof.Machine
end

