-- ==== Sys2Proof/Machine/Entries.lean ====
section
/-! DEFINITION. The Kacor dictionary's entries: index, subindex, type, access code, size and default of every entry, as
the tables of the chapters give them (spec/16_control.md R354, R381 and the entry table of each chapter). -/

namespace Sys2Proof.Machine

/-- One entry, or a run of entries that differ in the index alone: `base` to `base + span - 1`, subindices `sub` to
`sub + subs - 1`. Types are codes of R354; `acc` is 0 RO, 1 RW, 2 RS, 3 WO (R360); a value is `count` elements of `w`
bytes (a VSTR's and a DOMAIN's elements are its bytes). `dflt` lists the default element by element: none given means
zero, one given stands for every element. -/
structure Entry where
  base : Nat
  span : Nat
  sub : Nat
  subs : Nat
  ty : Nat
  ety : Nat
  acc : Nat
  count : Nat
  w : Nat
  dflt : List Nat
deriving DecidableEq, Repr

/-- Bytes of the value. -/
def Entry.size (e : Entry) : Nat := e.count * e.w

/-- Default of element `i`. -/
def Entry.default (e : Entry) (i : Nat) : Nat :=
  match e.dflt with
  | [] => 0
  | [v] => v
  | l => l.getD i 0

/-- Does the entry have this index and subindex? -/
def Entry.covers (e : Entry) (idx sub : Nat) : Bool :=
  decide (e.base ≤ idx) && decide (idx < e.base + e.span) && decide (e.sub ≤ sub) && decide (sub < e.sub + e.subs)

/-- The scalar row: one element of type `ty`. -/
def sc (base span sub ty acc w : Nat) (d : List Nat) : Entry := ⟨base, span, sub, 1, ty, 0, acc, 1, w, d⟩

/-- The row of a VSTR, DOMAIN or ARRAY. -/
def ar (base span sub ty ety acc count w : Nat) (d : List Nat) : Entry := ⟨base, span, sub, 1, ty, ety, acc, count, w, d⟩

/-- Identity, versions and capabilities (0x1000 to 0x1FFF), part 1. -/
def entries1a : List Entry := [
  ar 0x1000 1 0x01 9 0 0 20 1 [89, 97, 108, 101, 118, 97, 110, 32, 77, 105, 99, 114, 111, 115, 121, 115, 116, 101, 109, 115],  -- VENDOR
  ar 0x1000 1 0x02 9 0 0 11 1 [89, 76, 86, 45, 83, 52, 56, 48, 45, 65, 49],  -- ORDER_CODE
  ar 0x1000 1 0x03 9 0 0 2 1 [65, 49],  -- STEPPING
  ar 0x1000 1 0x04 9 0 0 16 1 [],  -- SERIAL
  ar 0x1000 1 0x05 11 5 0 6 8 [],  -- DIE_ID
  sc 0x1100 1 0x01 2 0 1 [4],  -- C_DIE_COUNT
  sc 0x1100 1 0x02 2 0 1 [2],  -- H_DIE_COUNT
  sc 0x1100 1 0x03 3 0 2 [32],  -- CLUSTER_COUNT
  sc 0x1100 1 0x04 3 0 2 [256],  -- CORE_COUNT
  sc 0x1100 1 0x05 2 0 1 [32],  -- CISTERN_COUNT
  sc 0x1100 1 0x06 5 0 8 [51539607552],  -- CISTERN_BYTES
  sc 0x1100 1 0x07 4 0 4 [6291456],  -- WELL_BYTES
  sc 0x1100 1 0x08 4 0 4 [16777216],  -- CLUSTER_CACHE_BYTES
  sc 0x1100 1 0x09 3 0 2 [16384],  -- FLOAT_VALVE_COUNT
  sc 0x1100 1 0x0A 2 0 1 [16],  -- ROLKAN_E_PORTS
  sc 0x1100 1 0x0B 2 0 1 [16],  -- ROLKAN_O_PORTS
  sc 0x1100 1 0x0C 4 0 4 [900000000],  -- ARITH_CLOCK_HZ
  sc 0x1100 1 0x0D 4 0 4 [1800000000],  -- ROUTER_CLOCK_HZ
  sc 0x1200 1 0x01 3 0 2 [0x07FF],  -- FORMATS_SUPPORTED
  sc 0x1200 1 0x02 2 0 1 [0x07],  -- SCALINGS_SUPPORTED
  sc 0x1200 1 0x03 3 0 2 [1],  -- NUMERICS_VERSION_MIN
  sc 0x1200 1 0x04 3 0 2 [1],  -- NUMERICS_VERSION_MAX
  sc 0x1300 1 0x01 3 0 2 [128],  -- ARRAY_ROWS
  sc 0x1300 1 0x02 3 0 2 [128],  -- ARRAY_COLS
  ar 0x1300 1 0x03 11 4 0 11 4 [4096, 16384, 16384, 32768, 32768, 65536, 65536, 65536, 32768, 65536, 0],  -- ARRAY_MACS_PER_CYCLE
  sc 0x1300 1 0x04 3 0 2 [256],  -- ACCUM_ROWS
  sc 0x1300 1 0x05 4 0 4 [49152],  -- BANK_BYTES
  ar 0x1300 1 0x06 11 2 0 6 1 [24, 26, 28, 30, 32, 34],  -- ARRAY_LATENCY
  sc 0x1400 1 0x01 2 0 1 [64],  -- WELL_BANKS
  sc 0x1400 1 0x02 2 0 1 [64]]  -- WELL_LINE_BYTES

/-- Identity, versions and capabilities (0x1000 to 0x1FFF), part 2. -/
def entries1b : List Entry := [
  sc 0x1400 1 0x03 3 0 2 [256],  -- VECTOR_LANES
  sc 0x1400 1 0x04 4 0 4 [65536],  -- DATA_CACHE_BYTES
  sc 0x1400 1 0x05 3 0 2 [640],  -- PAIR_PORT_BYTES
  sc 0x1400 1 0x06 2 0 1 [64],  -- SCOREBOARD_ENTRIES
  sc 0x1500 1 0x01 3 0 2 [2048],  -- SPARSE_SCAN_BYTES
  sc 0x1500 1 0x02 2 0 1 [8],  -- COMPACT_GAIN_MAX
  sc 0x1500 1 0x03 3 0 2 [2048],  -- EXPAND_BYTES
  sc 0x1500 1 0x04 3 0 2 [8192],  -- ACC_ENTRIES
  sc 0x1500 1 0x05 2 0 1 [8],  -- ACC_WAYS
  sc 0x1500 1 0x06 3 0 2 [256],  -- SPLIT_PARTS_MAX
  sc 0x1600 1 0x01 2 0 1 [64],  -- SORTER_SCORES_PER_CYCLE
  sc 0x1600 1 0x02 4 0 4 [65536],  -- SORTER_MAX_EXPERTS
  sc 0x1600 1 0x03 2 0 1 [32],  -- SORTER_MAX_LIST
  sc 0x1600 1 0x04 4 0 4 [131072],  -- TOKEN_SLOTS
  sc 0x1600 1 0x05 3 0 2 [256],  -- LAYER_SLOTS
  sc 0x1700 1 0x01 3 0 2 [1024],  -- GROUP_MEMBERS_MAX
  sc 0x1700 1 0x02 2 0 1 [16],  -- ROUNDS_PER_STROKE
  sc 0x1700 1 0x03 4 0 4 [262144],  -- LEDGER_ENTRIES
  sc 0x1700 1 0x04 4 0 4 [65536],  -- LEDGER_INGRESS
  sc 0x1700 1 0x05 3 0 2 [4096],  -- SEQUENCES
  sc 0x1800 1 0x01 2 0 1 [16],  -- PUMP_CHANNELS
  sc 0x1800 1 0x02 2 0 1 [64],  -- STREAM_DESC_BYTES
  sc 0x1800 1 0x03 3 0 2 [640],  -- PUMP_BYTES_PER_CYCLE
  sc 0x1800 1 0x04 2 0 1 [10],  -- PUMP_LINES_PER_CYCLE
  sc 0x1800 1 0x05 3 0 2 [2048],  -- STAGING_BYTES
  sc 0x1800 1 0x06 3 0 2 [1024],  -- HANDLE_QUEUES
  sc 0x1800 1 0x07 3 0 2 [256],  -- HANDLE_QUEUE_DEPTH
  sc 0x1800 1 0x08 2 0 1 [32],  -- RELAY_CHAIN_MAX
  sc 0x1900 1 0x01 2 0 1 [8],  -- BUCKET_CLASSES
  ar 0x1900 1 0x02 11 4 0 8 4 [256, 1024, 4096, 16384, 65536, 262144, 1048576, 4194304]]  -- BUCKET_CLASS_BYTES

/-- Identity, versions and capabilities (0x1000 to 0x1FFF), part 3. -/
def entries1c : List Entry := [
  sc 0x1900 1 0x03 3 0 2 [65535],  -- REFCOUNT_MAX
  sc 0x1900 1 0x04 3 0 2 [512],  -- VALVES_PER_CLUSTER
  sc 0x1900 1 0x05 2 0 1 [16],  -- HANDLE_REGISTERS
  sc 0x1A00 1 0x01 2 0 1 [32],  -- PSEUDO_CHANNELS
  sc 0x1A00 1 0x02 3 0 2 [256],  -- GRANULE_BYTES
  sc 0x1A00 1 0x03 3 0 2 [4096],  -- TLB_ENTRIES
  sc 0x1A00 1 0x04 2 0 1 [64],  -- ATOMIC_WINDOW
  sc 0x1A00 1 0x05 3 0 2 [4096],  -- ATOMIC_SOURCES
  sc 0x1A00 1 0x06 4 0 4 [40000],  -- REMOTE_BOUND_NS
  sc 0x1A00 1 0x07 4 0 4 [8000],  -- REMOTE_RETRY_NS
  sc 0x1B00 1 0x01 2 0 1 [32],  -- UPDATE_UNITS
  ar 0x1B00 1 0x02 11 2 0 4 1 [64, 64, 32, 64],  -- UPDATE_RATE
  sc 0x1B00 1 0x03 3 0 2 [1024],  -- SCHED_GROUPS_MAX
  sc 0x1B00 1 0x04 2 0 1 [64],  -- SCHED_KNOTS
  sc 0x1C00 1 0x01 3 0 2 [1],  -- ROLKAN_VERSION_MIN
  sc 0x1C00 1 0x02 3 0 2 [1],  -- ROLKAN_VERSION_MAX
  sc 0x1C00 1 0x03 2 0 1 [8],  -- VIRTUAL_CHANNELS
  sc 0x1C00 1 0x04 4 0 4 [196608],  -- VC_BUFFER_BYTES
  sc 0x1C00 1 0x05 4 0 4 [1048576],  -- GEID_TABLE_ENTRIES
  sc 0x1C00 1 0x06 4 0 4 [33554432],  -- LONG_LINK_STORE
  sc 0x1D00 1 0x01 2 0 1 [64],  -- COLL_GROUPS
  sc 0x1D00 1 0x02 3 0 2 [16384],  -- COLL_MEMBERS_MAX
  sc 0x1D00 1 0x03 2 0 1 [8],  -- COLL_FANIN_MAX
  sc 0x1D00 1 0x04 3 0 2 [1024],  -- COLL_CHUNK_ELEMENTS
  sc 0x1D00 1 0x05 3 0 2 [128],  -- COLL_ADDS_PER_CYCLE
  sc 0x1D00 1 0x06 4 0 4 [8388608],  -- COLL_BUFFER_BYTES
  sc 0x1D00 1 0x07 2 0 1 [8],  -- COLL_ACTIVE_MAX
  sc 0x1E00 1 0x01 3 0 2 [4096],  -- CONTEXTS_DEFINED_MAX
  sc 0x1E00 1 0x02 2 0 1 [64],  -- CONTEXTS_RESIDENT_MAX
  sc 0x1E00 1 0x03 2 0 1 [8]]  -- PARTITIONS

/-- Identity, versions and capabilities (0x1000 to 0x1FFF), part 4. -/
def entries1d : List Entry := [
  sc 0x1E00 1 0x04 4 0 4 [30000],  -- SWITCH_OVER_NS
  sc 0x1E00 1 0x05 4 0 4 [250000],  -- ABORT_BOUND_NS
  sc 0x1010 1 0x01 3 0 2 [1],  -- DICT_VERSION_MIN
  sc 0x1010 1 0x02 3 0 2 [1],  -- DICT_VERSION_MAX
  sc 0x1010 1 0x03 3 0 2 [1],  -- QUEUE_VERSION_MIN
  sc 0x1010 1 0x04 3 0 2 [1],  -- QUEUE_VERSION_MAX
  sc 0x1010 1 0x05 3 0 2 [1024],  -- SUBMISSION_QUEUES
  sc 0x1010 1 0x06 3 0 2 [1024],  -- COMPLETION_QUEUES
  sc 0x1010 1 0x07 3 0 2 [0x0480],  -- PCIE_DEVICE_ID
  sc 0x1F00 1 0x01 2 0 1 [],  -- PRIME_MGMT
  sc 0x1F00 1 0x02 2 0 1 [],  -- PRIME_STROKE
  sc 0x1F00 1 0x03 2 0 1 [],  -- PRIME_SECURITY
  sc 0x1F00 1 0x04 2 0 1 [],  -- PRIME_PCIE
  ar 0x1F00 1 0x05 11 2 0 2 1 [],  -- PRIME_HDIE
  ar 0x1F00 1 0x06 11 2 0 32 1 [],  -- PRIME_CLUSTER
  ar 0x1F00 1 0x07 11 2 0 32 1 [],  -- PRIME_CISTERN
  ar 0x1F00 1 0x08 11 2 0 32 1 [],  -- PRIME_PORT
  sc 0x1F00 1 0x09 2 0 1 [],  -- RESET_CAUSE
  sc 0x1020 1 0x01 3 0 2 [4600],  -- INPUT_POWER_MAX_W
  sc 0x1020 1 0x02 3 0 2 [2000],  -- INPUT_CAPACITANCE_UF
  sc 0x1030 1 0x01 4 0 4 [0x104805AB],  -- JTAG_IDCODE
  ar 0x1030 1 0x02 9 0 0 4 1 [],  -- MARK_DATE
  sc 0x1030 1 0x03 2 0 1 []]  -- SLOT_STRAPS

/-- Identity, versions and capabilities (0x1000 to 0x1FFF). -/
def entries1 : List Entry := entries1a ++ entries1b ++ entries1c ++ entries1d

/-- Device configuration (0x2000 to 0x2FFF), part 1. -/
def entries2a : List Entry := [
  sc 0x2000 1 0x01 4 0 4 [1000000],  -- STROKE_PERIOD_NS
  ar 0x2000 1 0x02 10 0 3 12 1 [],  -- PERIOD_CHANGE
  sc 0x2000 1 0x03 3 0 2 [1500],  -- TURNOVER_NS
  ar 0x2000 1 0x04 10 0 0 12 1 [],  -- STROKE_TIME
  sc 0x2000 1 0x05 2 2 1 [1],  -- TIME_ROLE
  sc 0x2000 1 0x06 2 0 1 [],  -- SYNC_STATE
  sc 0x2000 1 0x07 4 0 4 [],  -- ROOT_GEID
  sc 0x2000 1 0x08 2 0 1 [0xFF],  -- UPSTREAM_PORT
  sc 0x2000 1 0x09 2 0 1 [],  -- HOP_COUNT
  sc 0x2000 1 0x0A 6 0 4 [],  -- OFFSET_ESTIMATE_NS
  sc 0x2000 1 0x0B 2 2 1 [],  -- REFRESH_MODE
  sc 0x2000 1 0x0C 2 0 1 [],  -- REFRESH_MODE_ACTIVE
  sc 0x2010 1 0x01 3 2 2 [1],  -- NUMERICS_VERSION
  sc 0x2020 1 0x01 3 2 2 [1],  -- DICT_VERSION
  sc 0x2020 1 0x02 3 2 2 [1],  -- QUEUE_VERSION
  ar 0x2020 1 0x03 10 0 0 8 1 [],  -- VERSIONS_IN_FORCE
  sc 0x2030 1 0x01 2 2 1 [2],  -- MGMT_RIGHTS
  ar 0x2030 1 0x02 11 5 2 8 8 [],  -- FABRIC_DICT_PEERS
  sc 0x2030 1 0x03 5 1 8 [],  -- BAR2_OFFSET
  sc 0x2040 1 0x01 1 3 1 [],  -- DEVICE_RESET
  sc 0x2050 1 0x01 3 2 2 [4600],  -- POWER_CAP_W
  sc 0x2050 1 0x02 2 2 1 [200],  -- SLEW_A_PER_MS
  sc 0x2050 1 0x03 2 2 1 [],  -- FLOOR_PCT
  sc 0x2050 1 0x04 3 2 2 [],  -- RAMP_UP_MS
  sc 0x2050 1 0x05 3 2 2 [],  -- RAMP_DOWN_MS
  sc 0x2050 1 0x06 3 2 2 [2000]]  -- SUPPLY_WARN_CAP_W

/-- Device configuration (0x2000 to 0x2FFF). -/
def entries2 : List Entry := entries2a

/-- Contexts, partitions and queues (0x3000 to 0x3FFF), part 1. -/
def entries3a : List Entry := [
  sc 0x3000 1 0x01 5 2 8 [],  -- CTX_TABLE_ADDR
  ar 0x3000 1 0x02 10 0 3 4 1 [],  -- CTX_COMMAND
  sc 0x3000 1 0x03 2 0 1 [],  -- CTX_COMMAND_STATUS
  ar 0x3000 1 0x04 11 2 0 4096 1 [],  -- CTX_STATE
  ar 0x3000 1 0x05 11 3 0 64 2 [0xFFFF],  -- CTX_SLOTS
  ar 0x3000 1 0x06 11 3 0 32 2 [0xFFFF],  -- CLUSTER_HOLDER
  sc 0x3100 1 0x01 4 2 4 [0xFFFFFFFF],  -- PART_CLUSTERS
  sc 0x3101 7 0x01 4 2 4 [],  -- PART_CLUSTERS
  ar 0x3100 1 0x02 11 5 2 8 8 [0, 0x17FFFFFFFFF, 0xFFFFFFFFFFFFFFFF, 0, 0xFFFFFFFFFFFFFFFF, 0, 0xFFFFFFFFFFFFFFFF, 0],  -- PART_SHARE
  ar 0x3101 7 0x02 11 5 2 8 8 [0xFFFFFFFFFFFFFFFF, 0, 0xFFFFFFFFFFFFFFFF, 0, 0xFFFFFFFFFFFFFFFF, 0, 0xFFFFFFFFFFFFFFFF, 0],  -- PART_SHARE
  sc 0x3100 1 0x03 3 2 2 [1024],  -- CISTERN_RESERVE
  sc 0x3101 7 0x03 3 2 2 [],  -- CISTERN_RESERVE
  sc 0x3100 8 0x04 3 2 2 [1024],  -- CISTERN_LIMIT
  sc 0x3100 1 0x05 3 2 2 [1024],  -- FABRIC_RESERVE
  sc 0x3101 7 0x05 3 2 2 [],  -- FABRIC_RESERVE
  sc 0x3100 8 0x06 3 2 2 [1024],  -- FABRIC_LIMIT
  sc 0x3100 8 0x07 3 2 2 [],  -- BE_QUANTUM
  sc 0x3100 8 0x08 2 0 1 [],  -- PART_CONFIG_STATUS
  sc 0x3400 1024 0x01 5 2 8 [],  -- SQ_BASE
  sc 0x3400 1024 0x02 2 2 1 [],  -- SQ_LOCATION
  sc 0x3400 1024 0x03 4 2 4 [],  -- SQ_SIZE
  sc 0x3400 1024 0x04 3 2 2 [],  -- SQ_CONTEXT
  sc 0x3400 1024 0x05 3 2 2 [],  -- SQ_CQ
  sc 0x3400 1024 0x06 2 2 1 [],  -- SQ_FUNCTION
  sc 0x3400 1024 0x07 4 0 4 [],  -- SQ_HEAD
  sc 0x3400 1024 0x08 4 0 4 [],  -- SQ_TAIL_SAMPLED
  sc 0x3800 1024 0x01 5 2 8 [],  -- CQ_BASE
  sc 0x3800 1024 0x02 2 2 1 [],  -- CQ_LOCATION
  sc 0x3800 1024 0x03 4 2 4 [],  -- CQ_SIZE
  sc 0x3800 1024 0x04 2 2 1 [0xFF]]  -- CQ_VECTOR

/-- Contexts, partitions and queues (0x3000 to 0x3FFF), part 2. -/
def entries3b : List Entry := [
  sc 0x3800 1024 0x05 2 2 1 [],  -- CQ_FUNCTION
  sc 0x3800 1024 0x06 4 0 4 []]  -- CQ_TAIL

/-- Contexts, partitions and queues (0x3000 to 0x3FFF). -/
def entries3 : List Entry := entries3a ++ entries3b

/-- Rolkan ports, routing and groups (0x4000 to 0x4FFF), part 1. -/
def entries4a : List Entry := [
  sc 0x4000 1 0x01 4 2 4 [],  -- GEID
  sc 0x4000 1 0x02 2 2 1 [],  -- POD_BOARD
  sc 0x4000 1 0x03 3 2 2 [1],  -- ROLKAN_VERSION
  ar 0x4000 1 0x04 11 3 2 8 2 [],  -- FABRIC_DOMAIN
  sc 0x4000 1 0x05 3 3 2 [],  -- DOMAIN_DRAIN
  sc 0x4010 1 0x01 5 1 8 [],  -- ROUTE_IMAGE_ADDR
  sc 0x4010 1 0x02 1 3 1 [],  -- ROUTE_LOAD
  sc 0x4010 1 0x03 2 0 1 [],  -- ROUTE_LOAD_STATUS
  ar 0x4010 1 0x04 10 0 3 9 1 [],  -- EPOCH_CHANGE
  sc 0x4010 1 0x05 2 0 1 [],  -- ROUTE_EPOCH
  sc 0x4020 1 0x01 4 2 4 [32768],  -- ECN_THRESHOLD
  sc 0x4020 1 0x02 2 2 1 [1],  -- ECN_CUT_SHIFT
  sc 0x4020 1 0x03 4 2 4 [12500],  -- ECN_STEP
  sc 0x4020 1 0x04 4 2 4 [4000],  -- ECN_HOLD_NS
  sc 0x4020 1 0x05 4 2 4 [400000],  -- ECN_RATE_MAX
  ar 0x4030 1 0x01 11 1 2 32 1 [1],  -- PORT_ENABLE
  sc 0x4030 1 0x02 4 3 4 [],  -- PORT_RETRAIN
  ar 0x4030 1 0x03 11 2 0 32 1 [1],  -- PORT_STATE
  ar 0x4030 1 0x04 11 2 0 32 1 [],  -- PORT_REFUSAL
  ar 0x4030 1 0x05 11 4 0 32 4 [],  -- PORT_PARTNER
  ar 0x4030 1 0x06 11 2 0 32 1 [0xFF],  -- PORT_LINK
  ar 0x4030 1 0x07 11 3 0 32 2 [],  -- PORT_VERSION
  ar 0x4030 1 0x08 11 4 0 32 4 [],  -- PORT_RTT_NS
  ar 0x4040 1 0x01 11 2 0 64 1 [],  -- COLL_GROUP_STATE
  ar 0x4040 1 0x02 11 3 0 64 2 [],  -- COLL_GROUP_ID
  ar 0x4040 1 0x03 11 3 0 64 2 []]  -- COLL_MEMBER_INDEX

/-- Rolkan ports, routing and groups (0x4000 to 0x4FFF). -/
def entries4 : List Entry := entries4a

/-- Cisterns, pools and schedules (0x5000 to 0x5FFF), part 1. -/
def entries5a : List Entry := [
  ar 0x5200 8 0x01 11 5 2 16 8 [],  -- POOL_BASE
  ar 0x5200 8 0x02 11 4 2 16 4 [],  -- POOL_COUNT
  sc 0x5200 8 0x03 2 0 1 [],  -- POOL_CONFIG_STATUS
  sc 0x5000 1 0x01 2 0 1 [],  -- BOARD_SLOT
  ar 0x5000 1 0x02 11 2 2 3 1 [5, 5, 5],  -- INTERLEAVE_SPLIT
  sc 0x5010 1 0x01 5 2 8 [],  -- ATOMIC_LOG_BASE
  sc 0x5010 1 0x02 4 2 4 [],  -- ATOMIC_LOG_RECORDS
  sc 0x5010 1 0x03 5 0 8 [],  -- ATOMIC_LOG_HEAD
  ⟨0x5100, 1, 1, 64, 10, 0, 2, 32, 1, []⟩,  -- REMOTE_ACCESS
  sc 0x5300 8 0x01 5 2 8 [],  -- PAGE_RESERVE_ADDR
  sc 0x5300 8 0x02 4 2 4 [],  -- PAGE_RESERVE_COUNT
  sc 0x5300 8 0x03 4 0 4 [],  -- PAGE_RESERVE_LEFT
  sc 0x5400 1 0x01 5 2 8 [],  -- SCHED_TABLE_ADDR
  sc 0x5400 1 0x02 3 2 2 [],  -- SCHED_GROUPS
  ar 0x5400 1 0x03 11 4 2 1024 4 [],  -- GROUP_STEP
  ar 0x5400 1 0x04 11 8 0 1024 4 [],  -- GROUP_LR
  ar 0x5400 1 0x05 11 8 0 1024 4 []]  -- GROUP_WD

/-- Cisterns, pools and schedules (0x5000 to 0x5FFF). -/
def entries5 : List Entry := entries5a

/-- Tridal layer slots (0x6000 to 0x6FFF), part 1. -/
def entries6a : List Entry := [
  sc 0x6100 256 0x01 2 2 1 [],  -- K
  sc 0x6100 256 0x02 2 2 1 [],  -- SPARES
  sc 0x6100 256 0x03 2 2 1 [1],  -- WEIGHT_MODE
  sc 0x6100 256 0x04 1 2 1 [],  -- EXIT_ENABLE
  sc 0x6100 256 0x05 2 2 1 [],  -- CONF_SOURCE
  sc 0x6100 256 0x06 8 2 4 [0x3F800000],  -- EXIT_THRESHOLD
  sc 0x6100 256 0x10 2 2 1 [],  -- FULL_MODE
  sc 0x6100 256 0x11 2 2 1 [1],  -- SPILL_PASSES
  sc 0x6100 256 0x12 2 2 1 [],  -- PRIORITY
  sc 0x6100 256 0x13 1 2 1 []]  -- RENORM

/-- Tridal layer slots (0x6000 to 0x6FFF). -/
def entries6 : List Entry := entries6a

/-- Faults and logs (0x7000 to 0x7FFF), part 1. -/
def entries7a : List Entry := [
  sc 0x7000 1 0x01 2 0 1 [11],  -- LOG_DOMAINS
  sc 0x7000 1 0x02 2 0 1 [64],  -- LOG_DEPTH
  ar 0x7010 11 0x01 10 0 0 4096 1 [],  -- LOG_RECORDS
  sc 0x7010 11 0x02 2 0 1 [],  -- LOG_COUNT
  sc 0x7010 11 0x03 4 0 4 [],  -- LOG_OVERFLOW
  sc 0x7010 11 0x04 1 3 1 [],  -- LOG_CLEAR
  sc 0x7100 1 0x01 1 2 1 [],  -- LS_ENABLE
  sc 0x7100 1 0x02 3 2 2 [],  -- LS_CONTEXT
  sc 0x7100 1 0x03 2 2 1 [],  -- LS_PORT
  sc 0x7100 1 0x04 4 2 4 [],  -- LS_PARTNER
  sc 0x7100 1 0x05 5 2 8 [],  -- LS_START_STROKE
  ar 0x7100 1 0x06 11 5 2 8 8 [0xFFFFFFFFFFFFFFFF, 0, 0xFFFFFFFFFFFFFFFF, 0, 0xFFFFFFFFFFFFFFFF, 0, 0xFFFFFFFFFFFFFFFF, 0],  -- LS_EXCLUDE
  sc 0x7100 1 0x07 2 2 1 [1],  -- LS_MODE
  sc 0x7100 1 0x08 2 0 1 [],  -- LS_STATE
  sc 0x7100 1 0x09 5 0 8 [],  -- LS_FIRST_STROKE
  sc 0x7100 1 0x0A 5 0 8 [],  -- LS_FIRST_CLUSTERS
  sc 0x7100 1 0x0B 1 3 1 [],  -- LS_CLEAR
  sc 0x7200 1 0x01 3 2 2 [16],  -- SCRUB_PERIOD_S
  sc 0x7200 1 0x02 4 0 4 [0x00010200],  -- PROMISE_LEVEL
  sc 0x7200 1 0x03 2 0 1 [],  -- PROMISE_STATUS
  sc 0x7200 1 0x04 2 2 1 [],  -- FATAL_ACTION
  sc 0x7200 1 0x05 2 0 1 [],  -- FATAL_STATE
  sc 0x7200 1 0x06 4 0 4 []]  -- CLUSTERS_DISABLED

/-- Faults and logs (0x7000 to 0x7FFF). -/
def entries7 : List Entry := entries7a

/-- Telemetry and counters (0x8000 to 0x8FFF), part 1. -/
def entries8a : List Entry := [
  sc 0x8000 1 0x01 5 0 8 [],  -- OVERRUN_COUNT
  sc 0x8000 1 0x02 5 0 8 [],  -- LATE_INGRESS_DISCARDS
  sc 0x8000 1 0x03 4 0 4 [],  -- HOLDOVER_ENTRIES
  sc 0x8000 1 0x04 4 0 4 [],  -- COUNTER_STEPS
  sc 0x8010 1 0x01 5 0 8 [],  -- RESIDUE_ERRORS_ARRAY
  sc 0x8010 1 0x02 5 0 8 [],  -- RESIDUE_ERRORS_VECTOR
  sc 0x8010 1 0x03 5 0 8 [],  -- RESIDUE_ERRORS_ROUTER
  sc 0x8010 1 0x04 5 0 8 [],  -- RESIDUE_ERRORS_UPDATE
  sc 0x8010 1 0x05 4 0 4 [],  -- FORMAT_INVALID_COUNT
  sc 0x8010 1 0x06 5 0 8 [],  -- ACC_TRUNCATED_COUNT
  ar 0x8020 1 0x01 11 5 0 256 8 [],  -- ARRAY_ACTIVE_CYCLES
  ar 0x8020 1 0x02 11 5 0 256 8 [],  -- ARRAY_ROWS_ISSUED
  ar 0x8020 1 0x03 11 5 0 256 8 [],  -- ARRAY_LOAD_WAIT_CYCLES
  ar 0x8020 1 0x04 11 5 0 256 8 [],  -- ARRAY_DEP_WAIT_CYCLES
  ar 0x8020 1 0x05 11 5 0 256 8 [],  -- ARRAY_PATH_WAIT_CYCLES
  ar 0x8020 1 0x06 11 4 0 4 4 [],  -- ARRAY_FAULTS
  ar 0x8030 1 0x01 11 5 0 256 8 [],  -- TRANSFER_CYCLES
  ar 0x8030 1 0x02 11 5 0 256 8 [],  -- COMPUTE_CYCLES
  ar 0x8030 1 0x03 11 5 0 256 8 [],  -- PHASE_SWITCHES
  ar 0x8030 1 0x04 11 5 0 256 8 [],  -- HAZARD_WAIT_CYCLES
  ar 0x8030 1 0x05 11 5 0 256 8 [],  -- WELL_CONFLICT_CYCLES
  ar 0x8030 1 0x06 11 5 0 256 8 [],  -- PAIR_PORT_WAIT_CYCLES
  ar 0x8030 1 0x07 11 4 0 256 4 [],  -- ITEMS_TAKEN
  ar 0x8030 1 0x08 11 5 0 32 8 [],  -- CLUSTER_CACHE_HITS
  ar 0x8030 1 0x09 11 5 0 32 8 [],  -- CLUSTER_CACHE_MISSES
  ar 0x8030 1 0x0A 11 4 0 3 4 [],  -- CORE_FAULTS
  ar 0x8040 1 0x01 11 5 0 256 8 [],  -- SPARSE_UNITS_SCANNED
  ar 0x8040 1 0x02 11 5 0 256 8 [],  -- SPARSE_UNITS_KEPT
  ar 0x8040 1 0x03 11 5 0 256 8 [],  -- STRUCT_DENSE_GROUPS
  ar 0x8040 1 0x04 11 5 0 256 8 []]  -- SPARSE_SCAN_WAIT_CYCLES

/-- Telemetry and counters (0x8000 to 0x8FFF), part 2. -/
def entries8b : List Entry := [
  ar 0x8040 1 0x05 11 5 0 256 8 [],  -- SUMP_RECORDS
  ar 0x8040 1 0x06 11 5 0 256 8 [],  -- INDEX_RANGE_EVENTS
  ar 0x8040 1 0x07 11 4 0 7 4 [],  -- SPARSE_FAULTS
  ar 0x8050 1 0x01 11 5 0 32 8 [],  -- SELECTS_RUN
  ar 0x8050 1 0x02 11 5 0 32 8 [],  -- TOKENS_SCANNED
  ar 0x8050 1 0x03 11 5 0 32 8 [],  -- TOKENS_EXITED
  ar 0x8050 1 0x04 11 5 0 32 8 [],  -- TOKENS_SKIPPED
  ar 0x8050 1 0x05 11 5 0 32 8 [],  -- SCORE_NAN_TOKENS
  ar 0x8050 1 0x06 11 5 0 32 8 [],  -- SORTER_BUSY_CYCLES
  ar 0x8050 1 0x07 11 5 0 32 8 [],  -- SORTER_FAULT_WAIT_CYCLES
  ar 0x8050 1 0x08 11 4 0 2 4 [],  -- SORTER_FAULTS
  sc 0x8060 1 0x01 5 0 8 [],  -- ROUNDS_RUN
  ar 0x8060 1 0x02 11 5 0 2 8 [],  -- DEMANDS_SENT
  sc 0x8060 1 0x03 5 0 8 [],  -- CHOICES_GRANTED
  sc 0x8060 1 0x04 5 0 8 [],  -- SPARES_GRANTED
  sc 0x8060 1 0x05 5 0 8 [],  -- CHOICES_DROPPED
  ar 0x8060 1 0x06 11 5 0 2 8 [],  -- PACK_POOL_WAIT_CYCLES
  sc 0x8060 1 0x07 5 0 8 [],  -- TRIDAL_DISCARDS
  ar 0x8060 1 0x08 11 5 0 2 8 [],  -- TRIDAL_FAULT_WAIT_CYCLES
  ar 0x8060 1 0x09 11 5 0 32 8 [],  -- COMBINE_RECORDS
  ar 0x8060 1 0x0A 11 5 0 32 8 [],  -- COMBINE_WAIT_CYCLES
  ar 0x8060 1 0x0B 11 5 0 4096 8 [],  -- SEQ_DROPS
  sc 0x8060 1 0x0C 1 3 1 [],  -- SEQ_DROPS_CLEAR
  ar 0x8060 1 0x0D 11 4 0 6 4 [],  -- DISPATCH_FAULTS
  ar 0x8070 1 0x01 11 5 0 256 8 [],  -- STREAMS_COMPLETED
  ar 0x8070 1 0x02 11 5 0 256 8 [],  -- STREAM_BYTES_IN
  ar 0x8070 1 0x03 11 5 0 256 8 [],  -- STREAM_BYTES_OUT
  ar 0x8070 1 0x04 11 5 0 3072 8 [],  -- STALL_CYCLES
  ar 0x8070 1 0x05 11 4 0 256 4 [],  -- PAGE_FAULT_HALTS
  ar 0x8070 1 0x06 11 4 0 256 4 []]  -- DESC_OVERRUNS

/-- Telemetry and counters (0x8000 to 0x8FFF), part 3. -/
def entries8c : List Entry := [
  ar 0x8070 1 0x07 11 4 0 256 4 [],  -- ARMED_DISCARDED
  ar 0x8070 1 0x08 11 5 0 32 8 [],  -- HANDLES_RELEASED
  ar 0x8070 1 0x09 11 4 0 2 4 [],  -- STREAM_FAULTS
  ar 0x8080 1 0x01 11 5 0 2 8 [],  -- BUCKETS_ALLOCATED
  ar 0x8080 1 0x02 11 5 0 256 8 [],  -- POOL_EMPTY_COUNT
  ar 0x8080 1 0x03 11 4 0 256 4 [],  -- BUCKETS_IN_USE
  sc 0x8080 1 0x04 5 0 8 [],  -- TEARDOWN_RELEASES
  sc 0x8080 1 0x05 4 0 4 [],  -- POOL_QUARANTINED
  ar 0x8080 1 0x06 11 5 0 256 8 [],  -- HREG_RELEASED
  ar 0x8080 1 0x07 11 5 0 32 8 [],  -- VALVE_SIGNALS
  ar 0x8080 1 0x08 11 5 0 256 8 [],  -- VALVE_WAIT_CYCLES
  sc 0x8080 1 0x09 5 0 8 [],  -- REMOTE_SIGNALS_REFUSED
  ar 0x8080 1 0x0A 11 4 0 8 4 [],  -- BUCKET_VALVE_FAULTS
  ar 0x8090 1 0x01 11 5 0 32 8 [],  -- TLB_MISSES
  ar 0x8090 1 0x02 11 5 0 8 8 [],  -- PAGES_BROUGHT_IN
  sc 0x8090 1 0x03 5 0 8 [],  -- REMOTE_REFUSED
  sc 0x8090 1 0x04 5 0 8 [],  -- ATOMICS_APPLIED
  sc 0x8090 1 0x05 5 0 8 [],  -- ATOMIC_CACHE_REPLIES
  sc 0x8090 1 0x06 5 0 8 [],  -- ATOMIC_RETRANSMITS
  ar 0x8090 1 0x07 11 5 0 2 8 [],  -- GATEWAY_BYTES_OUT
  ar 0x8090 1 0x08 11 5 0 2 8 [],  -- GATEWAY_BYTES_IN
  ar 0x8090 1 0x09 11 5 0 32 8 [],  -- PARTIAL_LINE_WRITES
  ar 0x8090 1 0x0A 11 4 0 6 4 [],  -- MEMORY_FAULTS
  ar 0x80A0 1 0x01 11 5 0 32 8 [],  -- UPDATE_ELEMENTS
  sc 0x80A0 1 0x02 5 0 8 [],  -- GRAD_POISON_SKIPPED
  sc 0x80A0 1 0x03 5 0 8 [],  -- GRAD_NONFINITE_SKIPPED
  ar 0x80A0 1 0x04 11 5 0 32 8 [],  -- UPDATE_FAULT_WAIT_CYCLES
  ar 0x80A0 1 0x05 11 4 0 2 4 [],  -- UPDATE_FAULTS
  ar 0x80B0 1 0x01 11 5 0 32 8 [],  -- LINK_REPLAYS
  ar 0x80B0 1 0x02 11 5 0 32 8 []]  -- FEC_CORRECTED

/-- Telemetry and counters (0x8000 to 0x8FFF), part 4. -/
def entries8d : List Entry := [
  ar 0x80B0 1 0x03 11 5 0 32 8 [],  -- XOFF_CYCLES
  sc 0x80B0 1 0x04 5 0 8 [],  -- EPOCH_DISCARDS
  sc 0x80B0 1 0x05 5 0 8 [],  -- HOP_DISCARDS
  sc 0x80B0 1 0x06 5 0 8 [],  -- VERSION_DISCARDS
  sc 0x80B0 1 0x07 5 0 8 [],  -- NO_ROUTE_EVENTS
  sc 0x80B0 1 0x08 5 0 8 [],  -- ECN_MARKS
  sc 0x80B0 1 0x09 5 0 8 [],  -- ECN_CUTS
  sc 0x80B0 1 0x0A 5 0 8 [],  -- DRAIN_DISCARDS
  ar 0x80B0 1 0x0B 11 4 0 32 4 [],  -- GANG_SKEW_EVENTS
  sc 0x80C0 1 0x01 5 0 8 [],  -- ALLSUMS_COMPLETED
  ar 0x80C0 1 0x02 11 5 0 2 8 [],  -- COLL_ADDS
  ar 0x80C0 1 0x03 11 5 0 2 8 [],  -- COLL_BYTES_IN
  ar 0x80C0 1 0x04 11 5 0 2 8 [],  -- COLL_BYTES_OUT
  sc 0x80C0 1 0x05 5 0 8 [],  -- COLL_POISONED_CHUNKS
  sc 0x80C0 1 0x06 5 0 8 [],  -- COLL_DISCARDS
  ar 0x80C0 1 0x07 11 5 0 2 8 [],  -- COLL_FAULT_WAIT_CYCLES
  ar 0x80C0 1 0x08 11 4 0 3 4 [],  -- COLL_FAULTS
  sc 0x80D0 1 0x01 5 0 8 [],  -- PREEMPTIONS
  sc 0x80D0 1 0x02 5 0 8 [],  -- SWITCH_OVERS
  sc 0x80D0 1 0x03 5 0 8 [],  -- SWAPS_OUT
  sc 0x80D0 1 0x04 5 0 8 [],  -- SWAPS_IN
  ar 0x80D0 1 0x05 11 5 0 16 8 [],  -- REGULATOR_HOLD_WINDOWS
  ar 0x80D0 1 0x06 11 5 0 11 8 [],  -- JOBS_SUBMITTED
  ar 0x80D0 1 0x07 11 5 0 11 8 [],  -- JOBS_COMPLETED
  ar 0x80D0 1 0x08 11 5 0 11 8 [],  -- JOBS_FAULTED
  ar 0x80D0 1 0x09 11 5 0 11 8 [],  -- JOBS_ABORTED
  ar 0x80E0 1 0x01 11 5 0 3 8 [],  -- DICT_REQUESTS
  sc 0x80E0 1 0x02 5 0 8 [],  -- DICT_DENIED
  sc 0x80E0 1 0x03 5 0 8 [],  -- MGMT_DISCARDS
  sc 0x80E0 1 0x04 5 0 8 []]  -- MGMT_CACHE_REPLIES

/-- Telemetry and counters (0x8000 to 0x8FFF), part 5. -/
def entries8e : List Entry := [
  sc 0x80E0 1 0x05 5 0 8 [],  -- DOORBELL_IGNORED
  sc 0x80E0 1 0x06 5 0 8 [],  -- HOST_REFUSED
  sc 0x80E0 1 0x07 5 0 8 [],  -- COMMANDS_COMPLETED
  sc 0x80E0 1 0x08 5 0 8 [],  -- CQ_HELD
  sc 0x80E0 1 0x09 5 0 8 [],  -- CQ_LOST
  ar 0x80F0 1 0x01 11 5 0 32 8 [],  -- CISTERN_CORRECTED
  ar 0x80F0 1 0x02 11 5 0 32 8 [],  -- CISTERN_UNCORRECTED
  ar 0x80F0 1 0x03 11 5 0 256 8 [],  -- WELL_CORRECTED
  ar 0x80F0 1 0x04 11 5 0 256 8 [],  -- WELL_UNCORRECTED
  ar 0x80F0 1 0x05 11 5 0 32 8 [],  -- CACHE_PARITY_REFETCH
  sc 0x80F0 1 0x06 5 0 8 [],  -- SCRUB_PASSES
  sc 0x80F0 1 0x07 5 0 8 [],  -- BRIDGE_REPLAYS
  sc 0x80F0 1 0x08 5 0 8 [],  -- ESCALATIONS
  sc 0x80F0 1 0x09 5 0 8 [],  -- LS_STROKES_COMPARED
  ar 0x80F0 1 0x0A 11 4 0 7 4 [],  -- FAULT_STATUSES
  sc 0x8100 1 0x01 8 0 4 [],  -- INPUT_VOLTAGE
  sc 0x8100 1 0x02 8 0 4 [],  -- INPUT_CURRENT
  sc 0x8100 1 0x03 8 0 4 [],  -- STROKE_POWER_W
  sc 0x8100 1 0x04 4 0 4 [],  -- POWER_STATE
  sc 0x8100 1 0x05 5 0 8 [],  -- ENERGY_J
  sc 0x8100 1 0x06 5 0 8 [],  -- BALLAST_ENERGY_J
  ar 0x8100 1 0x07 11 5 0 5 8 [],  -- THROTTLE_US
  sc 0x8100 1 0x08 4 0 4 [],  -- SUPPLY_WARN_EVENTS
  sc 0x8100 1 0x09 4 0 4 [],  -- SUPPLY_HIGH_EVENTS
  sc 0x8100 1 0x0A 5 0 8 [],  -- BALLAST_RESIDUE_ERRORS
  ar 0x8100 1 0x0B 11 8 0 6 4 [],  -- DIE_TEMP_MAX
  ar 0x8100 1 0x0C 11 8 0 32 4 [],  -- CISTERN_TEMP_MAX
  sc 0x8100 1 0x0D 8 0 4 [],  -- COOLANT_INLET_C
  sc 0x8100 1 0x0E 8 0 4 [],  -- COOLANT_OUTLET_C
  sc 0x8100 1 0x0F 8 0 4 []]  -- COOLANT_FLOW_LPM

/-- Telemetry and counters (0x8000 to 0x8FFF). -/
def entries8 : List Entry := entries8a ++ entries8b ++ entries8c ++ entries8d ++ entries8e

/-- Security (0x9000 to 0x9FFF), part 1. -/
def entries9a : List Entry := [
  sc 0x9000 1 0x01 5 0 8 [],  -- BOOT_STATUS
  sc 0x9000 1 0x02 2 0 1 [],  -- FUSED_SVN
  sc 0x9000 1 0x03 2 3 1 [],  -- SVN_ADVANCE
  sc 0x9000 1 0x04 2 0 1 [],  -- KEY_REVOKED
  sc 0x9000 1 0x05 2 3 1 [],  -- KEY_REVOKE
  sc 0x9000 1 0x06 2 1 1 [],  -- BOOT_PREFERENCE
  sc 0x9010 1 0x01 4 1 4 [],  -- FLASH_OFFSET
  ar 0x9010 1 0x02 10 0 1 4096 1 [],  -- FLASH_BUFFER
  sc 0x9010 1 0x03 2 3 1 [],  -- FLASH_OP
  sc 0x9010 1 0x04 2 0 1 [],  -- FLASH_STATUS
  ar 0x9020 1 0x01 10 0 0 64 1 [],  -- IDENTITY_PUBKEY
  sc 0x9020 1 0x02 2 0 1 [],  -- IDENTITY_STATUS
  ar 0x9020 1 0x03 10 0 0 4096 1 [],  -- IDENTITY_CERT
  ar 0x9030 1 0x01 10 0 3 32 1 [],  -- ATTEST_NONCE
  sc 0x9030 1 0x02 2 0 1 [],  -- ATTEST_STATUS
  ar 0x9030 1 0x03 10 0 0 256 1 []]  -- ATTEST_REPORT

/-- Security (0x9000 to 0x9FFF). -/
def entries9 : List Entry := entries9a

/-- The entries of the 4,096 indices that hold `idx`. -/
def entryRows (idx : Nat) : List Entry :=
  match idx / 4096 with
  | 1 => entries1
  | 2 => entries2
  | 3 => entries3
  | 4 => entries4
  | 5 => entries5
  | 6 => entries6
  | 7 => entries7
  | 8 => entries8
  | 9 => entries9
  | _ => []

/-- The entry at index:subindex, if one is defined (R357). -/
def findEntry (idx sub : Nat) : Option Entry := (entryRows idx).find? fun e => e.covers idx sub

/-- Does any entry have this index (R357)? -/
def indexDefined (idx : Nat) : Bool := (entryRows idx).any fun e => decide (e.base ≤ idx) && decide (idx < e.base + e.span)

/-- What an element that nothing has written reads as: the default of its entry (R354). Keys are those of `ctr`. -/
def valDflt (k : Nat) : Nat :=
  match findEntry (k / 16777216) (k / 65536 % 256) with
  | some e => e.default (k % 65536)
  | none => 0

end Sys2Proof.Machine
end

