-- ==== Sys2Proof/Machine/Translate.lean ====
section
/-! DEFINITION. Addresses: placement in the cisterns (R246), page table walks (R249 to R252), remote access entries
(R257, R258) and the values of atomics (R263), of spec/11_memory_fabric.md. -/

namespace Sys2Proof.Machine

/-- Placement of a byte (R246): cistern, pseudo-channel, granule, byte within the granule. -/
structure Place where
  cistern : Nat
  channel : Nat
  granule : Nat
  byte : Nat
deriving DecidableEq, Repr

/-- place(a) of R246 under the three splits. -/
def place (splits : List Nat) (a : Nat) : Place :=
  let d := fun i => fld a (i + 4) i
  let c := d 8 ^^^ d 18 ^^^ d 28 ^^^ fld a 39 38
  let p := d 13 ^^^ d 23 ^^^ d 33
  let l := fld a 40 18
  let n := splits.getD (fld a 40 39) 5
  if n < 5 then
    let s := fld a 38 (34 + n)
    let hi := c >>> n
    ⟨(s <<< n) ||| (c % 2 ^ n), p, l / 2 ^ 21 * 2 ^ 21 + hi * 2 ^ (16 + n) + l % 2 ^ (16 + n), fld a 7 0⟩
  else ⟨c, p, l, fld a 7 0⟩

/-- A page's ATTR (R251). -/
inductive PageAttr where
  | uncached | cluster
deriving DecidableEq, Repr

/-- Where a page frame lies (R251, R245). -/
inductive Frame where
  | here (dev : Nat)                    -- this device: device address of the page's first byte
  | board (slot dev : Nat)              -- the module in another slot of the board
  | gateway (geid dev : Nat)            -- a device named by GEID
deriving DecidableEq, Repr

/-- A translation: its frame, the page size as a power of two, and its permissions. -/
structure Mapping where
  frame : Frame
  bits : Nat
  writable : Bool
  attr : PageAttr
deriving DecidableEq, Repr

/-- What a walk meets (R249 to R253). -/
inductive Walk where
  | mapped (m : Mapping)
  | absent (entryAddr : Nat) (entry : Nat)   -- a level-3 leaf that a control processor can bring in
  | denied
deriving DecidableEq, Repr

/-- The share ranges of a partition that are in use: (base, limit) with the limit not below the base (R334). -/
abbrev Share := List (Nat × Nat)

/-- The first address from `a` on that the share does not hold; `fuel` ranges are tried in a row. -/
def shareEnd (sh : Share) : Nat → Nat → Nat
  | 0, a => a
  | n + 1, a => match sh.find? fun r => decide (r.1 ≤ a) && decide (a ≤ r.2) with
    | some r => shareEnd sh n (r.2 + 1)
    | none => a

/-- Do the bytes [a, a + n) lie wholly in the share (R252)? Its ranges may adjoin (R335). -/
def inShare (sh : Share) (a n : Nat) : Bool := decide (a + n ≤ shareEnd sh sh.length a)

/-- A present leaf under the checks of R252. `slot` is the device's own slot. -/
def leafOf (sh : Share) (slot bits e : Nat) : Walk :=
  let kind := fld e 61 60
  let attr := fld e 58 57
  let frame := fld e 27 0
  let geid := fld e 47 28
  if kind ≥ 2 || attr ≥ 2 || fld e 56 48 != 0 then .denied
  else if bits = 21 && fld frame 4 0 != 0 then .denied
  else
    let a : PageAttr := if attr = 1 then .cluster else .uncached
    if kind = 1 then
      (if fld frame 27 25 != 0 || attr = 1 then .denied
       else .mapped ⟨.gateway geid (fld frame 24 0 * 65536), bits, bit e 59, a⟩)
    else if geid != 0 then .denied
    else
      let sl := fld frame 27 25
      let dev := fld frame 24 0 * 65536
      if sl = slot then
        (if inCistern dev (2 ^ bits) && inShare sh dev (2 ^ bits) then .mapped ⟨.here dev, bits, bit e 59, a⟩ else .denied)
      else if attr = 1 then .denied
      else .mapped ⟨.board sl dev, bits, bit e 59, a⟩

/-- An absent leaf (R251, R252, R253): it can be brought in at level 3 with BACKING ZERO or HOST. -/
def absentLeaf (level a e : Nat) : Walk :=
  let backing := fld e 61 60
  if level != 3 || backing = 0 || backing = 3 || fld e 58 57 ≥ 2 || fld e 56 48 != 0 then .denied
  else if backing = 1 && fld e 47 0 != 0 then .denied
  else .absent a e

/-- The walk from `level` on, `n` levels left (R249 to R252). -/
def walkFrom (m : Memory) (sh : Share) (slot va : Nat) : Nat → Nat → Nat → Walk
  | 0, _, _ => .denied
  | n + 1, level, table =>
    let idx := if level = 3 then fld va 20 16 else fld va (47 - 9 * level) (39 - 9 * level)
    let a := table + 8 * idx
    if m.poisoned a then .denied
    else
      let e := m.le a 8
      let leaf := bit e 62
      if level = 3 then
        (if bit e 63 then (if leaf then leafOf sh slot 16 e else .denied) else absentLeaf level a e)
      else if leaf then
        (if level = 2 then (if bit e 63 then leafOf sh slot 21 e else .denied) else .denied)
      else if !bit e 63 || fld e 61 41 != 0 || fld e 7 0 != 0 then .denied
      else
        let next := fld e 40 8 * 256
        let size := if level = 2 then 256 else 4096
        if next % size != 0 || !inCistern next size then .denied
        else walkFrom m sh slot va n (level + 1) next

/-- A whole walk from a context's TABLE_ROOT (R249). -/
def walk (m : Memory) (sh : Share) (slot root va : Nat) : Walk := walkFrom m sh slot (va % 2 ^ 48) 4 0 root

/-- The right a remote access needs (R257, R258). -/
inductive RemoteRight where
  | load | store | atomic
deriving DecidableEq, Repr

/-- A remote access entry as a 256-bit word: does it match source `g`, partition `q` (R257, R258)? -/
def entryMatches (e g q : Nat) : Bool :=
  bit e 255 && decide (fld e 240 221 ≤ g) && decide (g ≤ fld e 220 201) && bit (fld e 251 244) q
    && decide (fld e 40 0 ≤ fld e 104 64) && decide (fld e 104 64 < cisternEnd)

def entryGrants (e : Nat) : RemoteRight → Bool
  | .load => bit e 254
  | .store => bit e 253
  | .atomic => bit e 252

/-- Is a remote access from GEID g and partition q to [x, x + n) permitted (R258)? -/
def remoteOk (entries : List Nat) (g q x n : Nat) (r : RemoteRight) : Bool :=
  entries.any fun e => entryMatches e g q && entryGrants e r && decide (fld e 40 0 ≤ x) && decide (x + n ≤ fld e 104 64 + 1)

/-- Is a remote float-valve signal to a valve of partition `p` permitted (R258)? -/
def remoteSignalOk (entries : List Nat) (g q p : Nat) : Bool :=
  entries.any fun e => entryMatches e g q && entryGrants e .store && fld e 243 241 = p

/-- The new value of an atomic (R263) on `n` bits. -/
def atomicNew (aop n old a b : Nat) : Nat :=
  match aop with
  | 1 => (old + a) % 2 ^ n
  | 2 => a
  | 3 => if old = b then a else old
  | 4 => if signed n old ≤ signed n a then old else a
  | 5 => if signed n old ≤ signed n a then a else old
  | 6 => min old a
  | 7 => max old a
  | _ => old

/-- ATOMIC_DESC (R263): why it is invalid, if it is. -/
def atomicDescOk (d : Nat) : Bool :=
  let aop := fld d 255 252
  let size := if bit d 251 then 8 else 4
  decide (1 ≤ aop) && decide (aop ≤ 7) && fld d 250 224 = 0 && fld d 223 176 % size = 0 && fld d 175 128 % size = 0
    && (bit d 251 || (fld d 127 64 < 2 ^ 32 && fld d 63 0 < 2 ^ 32)) && (aop = 3 || fld d 127 64 = 0)

end Sys2Proof.Machine
end

