-- ==== Sys2Proof/Machine/Ops.lean ====
section
/-! DEFINITION. The named operations over the state that every command uses: dictionary values and counters, contexts,
statuses and error records, commands in force, what the module sends out (spec/16_control.md R354, R377;
spec/15_contexts.md R337; spec/18_faults.md R410, R411, R417, R418; spec/02_stroke.md R37). -/

namespace Sys2Proof.Machine

/-! ### The frame of a meaning -/

/-- A command that works on a module in service alone (R382, R415): it changes nothing while the module is off, held in
reset or stopped. The clock is read, not changed. -/
def onDev (s : State) (f : Clock → Dev → Dev) : Host.Outcome State Fault Refusal :=
  .next (if s.dev.life = .on then { s with dev := f s.clk s.dev } else s)

/-- As `onDev`, for the commands that move the clock. -/
def onBoth (s : State) (f : Clock → Dev → Clock × Dev) : Host.Outcome State Fault Refusal :=
  .next (if s.dev.life = .on then { s with clk := (f s.clk s.dev).1, dev := (f s.clk s.dev).2 } else s)

/-! ### Dictionary values (R354) -/

/-- Element `el` of an entry, as it is in force. -/
def Dev.v (d : Dev) (idx sub el : Nat) : Nat := SMap.get valDflt d.val (ctr idx sub el)

def Dev.setV (d : Dev) (idx sub el x : Nat) : Dev := { d with val := SMap.put valDflt d.val (ctr idx sub el) x }

/-- Add to a counter. -/
def Dev.bumpKey (d : Dev) (k n : Nat) : Dev := { d with val := SMap.put valDflt d.val k (SMap.get valDflt d.val k + n) }

def Dev.bump (d : Dev) (idx sub el n : Nat) : Dev := d.bumpKey (ctr idx sub el) n

/-- The device's GEID (R313) and its partition's share (R334). -/
def Dev.geid (d : Dev) : Nat := d.v 0x4000 1 0 % 2 ^ 20

def Dev.share (d : Dev) (p : Nat) : Share :=
  ((List.range 4).map fun r => (d.v (0x3100 + p) 2 (2 * r), d.v (0x3100 + p) 2 (2 * r + 1))).filter fun r => decide (r.1 ≤ r.2)

/-- FABRIC_DOMAIN of a partition (R311). -/
def Dev.domainOf (d : Dev) (p : Nat) : Nat := d.v 0x4000 4 p % 2 ^ 12

/-- Partition that owns a cluster, if any (R334). -/
def Dev.clusterOwner (d : Dev) (cl : Nat) : Option Nat := (List.range 8).find? fun p => bit (d.v (0x3100 + p) 1 0) cl

/-! ### Parts of the state by number -/

def Dev.ctx (d : Dev) (k : Nat) : Ctx := SMap.get (fun _ => {}) d.ctxs k
def Dev.setCtx (d : Dev) (k : Nat) (c : Ctx) : Dev := { d with ctxs := SMap.put (fun _ => {}) d.ctxs k c }
def Dev.updCtx (d : Dev) (k : Nat) (f : Ctx → Ctx) : Dev := d.setCtx k (f (d.ctx k))
def Dev.core (d : Dev) (k : Nat) : Core := SMap.get (fun _ => {}) d.cores k
def Dev.setCore (d : Dev) (k : Nat) (c : Core) : Dev := { d with cores := SMap.put (fun _ => {}) d.cores k c }
def Dev.updCore (d : Dev) (k : Nat) (f : Core → Core) : Dev := d.setCore k (f (d.core k))
def Dev.cluster (d : Dev) (k : Nat) : Cluster := SMap.get (fun _ => {}) d.clusters k
def Dev.setCluster (d : Dev) (k : Nat) (c : Cluster) : Dev := { d with clusters := SMap.put (fun _ => {}) d.clusters k c }
def Dev.updCluster (d : Dev) (k : Nat) (f : Cluster → Cluster) : Dev := d.setCluster k (f (d.cluster k))
def Dev.sq (d : Dev) (k : Nat) : SqRun := SMap.get (fun _ => {}) d.sqs k
def Dev.setSq (d : Dev) (k : Nat) (c : SqRun) : Dev := { d with sqs := SMap.put (fun _ => {}) d.sqs k c }
def Dev.cq (d : Dev) (k : Nat) : CqRun := SMap.get (fun _ => {}) d.cqs k
def Dev.setCq (d : Dev) (k : Nat) (c : CqRun) : Dev := { d with cqs := SMap.put (fun _ => {}) d.cqs k c }
def Dev.reg (d : Dev) (k : Nat) : RegBlock := SMap.get (fun _ => {}) d.regs k
def Dev.setReg (d : Dev) (k : Nat) (c : RegBlock) : Dev := { d with regs := SMap.put (fun _ => {}) d.regs k c }
def Dev.port (d : Dev) (k : Nat) : Port := SMap.get (fun _ => {}) d.ports k
def Dev.setPort (d : Dev) (k : Nat) (c : Port) : Dev := { d with ports := SMap.put (fun _ => {}) d.ports k c }
def Dev.link (d : Dev) (k : Nat) : Link := SMap.get (fun _ => {}) d.links k
def Dev.setLink (d : Dev) (k : Nat) (c : Link) : Dev := { d with links := SMap.put (fun _ => {}) d.links k c }
def Dev.primeOf (d : Dev) (k : Nat) : Nat := SMap.get (fun _ => 0) d.prime k
def Dev.valve (d : Dev) (k : Nat) : Nat := SMap.get (fun _ => 0) d.valves k
def Dev.setValve (d : Dev) (k n : Nat) : Dev := { d with valves := SMap.put (fun _ => 0) d.valves k n }
def Dev.hq (d : Dev) (k : Nat) : HQueue := SMap.get (fun _ => {}) d.hqueues k
def Dev.setHq (d : Dev) (k : Nat) (c : HQueue) : Dev := { d with hqueues := SMap.put (fun _ => {}) d.hqueues k c }
def Dev.pool (d : Dev) (k : Nat) : Pool := SMap.get (fun _ => {}) d.pools k
def Dev.setPool (d : Dev) (k : Nat) (c : Pool) : Dev := { d with pools := SMap.put (fun _ => {}) d.pools k c }
def Dev.bucket (d : Dev) (k : Nat) : Option Bucket := SMap.get (fun _ => none) d.buckets k
def Dev.setBucket (d : Dev) (k : Nat) (c : Option Bucket) : Dev := { d with buckets := SMap.put (fun _ => none) d.buckets k c }
def Dev.group (d : Dev) (k : Nat) : Option CollGroup := SMap.get (fun _ => none) d.groups k
def Dev.setGroup (d : Dev) (k : Nat) (c : Option CollGroup) : Dev := { d with groups := SMap.put (fun _ => none) d.groups k c }

/-- Contexts that are defined, in ascending number. -/
def Dev.ctxIds (d : Dev) : List Nat := (d.ctxs.filter fun kv => kv.2.state != .undefined && kv.2.state != .tornDown).map (·.1)

/-- Send something out of the module. -/
def Dev.emit (d : Dev) (o : Output) : Dev := { d with out := d.out ++ [o] }

/-- A fresh occasion for undefined values (log entry 2). -/
def Dev.tickFree (d : Dev) : Dev := { d with freeCtr := d.freeCtr + 1 }

/-- Which turnover is "the next turnover" from here: the stroke it ends (R22). -/
def nextTurnover (c : Clock) : Nat := if c.stage = .work || c.held then c.stroke else c.stroke + 1

/-! ### Error records (R417, R418, R459) -/

/-- SEVERITY (R418). -/
def sevInfo : Nat := 0
def sevCorrected : Nat := 1
def sevContext : Nat := 2
def sevEscalated : Nat := 3
def sevFatal : Nat := 4

/-- UNIT_KIND (R418). -/
def UnitKind.code : UnitKind → Nat
  | .none => 0 | .core => 1 | .cluster => 2 | .cistern => 3 | .hdie => 4 | .port => 5 | .updateUnit => 6
  | .controlProcessor => 7 | .securityEngine => 8 | .bridge => 9

/-- The fields of one error record. `ctx` is 0xFFF for none. -/
structure LogRec where
  stroke : Nat
  phase : Nat
  detail : Nat
  statuses : List Status
  ctx : Nat
  severity : Nat
  kind : UnitKind
  unit : Nat
  nested : Bool
deriving DecidableEq, Repr

/-- The first eight codes, first in the lowest bits (R418). -/
def statusWord (l : List Status) : Nat := leNat ((l.take 8).map fun s => natLe 2 s.code).flatten

/-- The 512-bit record with its SEQ (R418). -/
def LogRec.word (r : LogRec) (seq : Nat) : Nat :=
  r.stroke % 2 ^ 64 * 2 ^ 448 + r.detail % 2 ^ 64 * 2 ^ 384 + statusWord r.statuses * 2 ^ 256
    + min r.statuses.length 255 * 2 ^ 248 + r.ctx % 4096 * 2 ^ 236 + r.severity * 2 ^ 232 + r.kind.code * 2 ^ 224
    + r.unit % 65536 * 2 ^ 208 + b2n r.nested * 2 ^ 207 + r.phase % 2 ^ 32 * 2 ^ 168 + seq % 2 ^ 32 * 2 ^ 136

/-- Records held by a domain, and its next record number. -/
def Dev.logHeld (d : Dev) (dom : Nat) : Nat := SMap.get (fun _ => 0) d.logCount dom
def Dev.logNext (d : Dev) (dom : Nat) : Nat := SMap.get (fun _ => 0) d.logSeq dom

/-- Append a record; a full domain keeps its oldest 64 and counts the loss (R417). -/
def Dev.log (d : Dev) (dom : Nat) (r : LogRec) : Dev :=
  let n := d.logHeld dom
  let seq := d.logNext dom
  let d1 := { d with logSeq := SMap.put (fun _ => 0) d.logSeq dom (seq + 1) }
  if n < 64 then
    { d1 with logs := SMap.put (fun _ => 0) d1.logs (dom * 64 + n) (r.word seq)
              logCount := SMap.put (fun _ => 0) d1.logCount dom (n + 1) }
  else d1.bump (0x7010 + dom) 3 0 1

/-- An event record of the DEVICE domain (R459). -/
def Dev.logEvent (d : Dev) (stroke code detail : Nat) (kind : UnitKind) (unit : Nat) : Dev :=
  d.log 0 ⟨stroke, 0, code * 2 ^ 56 + detail, [], 0xFFF, sevInfo, kind, unit, false⟩

/-- A record that carries one status and belongs to no context. -/
def Dev.logStatus (d : Dev) (c : Clock) (dom : Nat) (st : Status) (sev detail : Nat) (kind : UnitKind) (unit : Nat) : Dev :=
  d.log dom ⟨c.stroke, c.phase, detail, [st], 0xFFF, sev, kind, unit, false⟩

/-! ### Statuses (R37, R380) -/

/-- The counter element that counts a status where it is raised (the fault arrays of the chapters). -/
def statusCounter (st : Status) : Option Nat :=
  let n := st.code % 256
  match st.code / 256 with
  | 0x02 => if n = 1 then some (ctr 0x8010 5 0) else none
  | 0x03 => some (ctr 0x8020 6 (n - 1))
  | 0x04 => some (ctr 0x8030 0x0A (n - 1))
  | 0x05 => some (ctr 0x8040 7 (n - 1))
  | 0x06 => some (ctr 0x8050 8 (n - 1))
  | 0x07 => some (ctr 0x8060 0x0D (n - 1))
  | 0x08 => if n < 3 then some (ctr 0x8070 9 (n - 1)) else none
  | 0x09 => if n < 2 then none else some (ctr 0x8080 0x0A (n - 2))
  | 0x0A => some (ctr 0x8090 0x0A (n - 1))
  | 0x0B => some (ctr 0x80A0 5 (n - 1))
  | 0x0D => some (ctr 0x80C0 8 (n - 1))
  | 0x11 => some (ctr 0x80F0 0x0A (n - 1))
  | _ => if st = .strokeOverrun then some (ctr 0x8000 1 0) else none

def Dev.countStatus (d : Dev) (st : Status) : Dev :=
  match statusCounter st with
  | some k => d.bumpKey k 1
  | none => d

/-- The context is escalated (R411): it is torn down at this turnover, whatever its FAULT_ACTION. -/
def Dev.escalate (d : Dev) (k : Nat) : Dev :=
  if (d.ctx k).escalated then d
  else ((d.updCtx k fun c => { c with escalated := true, statuses := c.statuses ++ [⟨.errorEscalated, 0, .none, 0⟩] }).countStatus
    .errorEscalated).bump 0x80F0 8 0 1

/-- Raise a fault status in a context (R37). A fault status in a SUSPENDED context escalates (R411). -/
def Dev.raiseAt (d : Dev) (k : Nat) (st : Status) (detail : Nat) (kind : UnitKind) (unit : Nat) : Dev :=
  let c := d.ctx k
  let d1 := (d.setCtx k { c with statuses := c.statuses ++ [⟨st, detail, kind, unit⟩] }).countStatus st
  if c.state = .suspended then d1.escalate k else d1

def Dev.raise (d : Dev) (k : Nat) (st : Status) : Dev := d.raiseAt k st 0 .none 0

/-- An uncorrected error attributed to a context (R410, R411): a second one while the first is being handled escalates. -/
def Dev.uncorrected (d : Dev) (k : Nat) : Dev :=
  if (d.ctx k).handling then d.escalate k else d.updCtx k fun c => { c with handling := true }

/-- A detected error that is both a status and an uncorrected error. -/
def Dev.raiseUncorrected (d : Dev) (k : Nat) (st : Status) (kind : UnitKind) (unit : Nat) : Dev :=
  (d.raiseAt k st 0 kind unit).uncorrected k

/-- Set flags of a context's flag words (R66, R138, R160, R286). -/
def Dev.flagN (d : Dev) (k f : Nat) : Dev := d.updCtx k fun c => { c with nflags := lor c.nflags f }
def Dev.flagS (d : Dev) (k f : Nat) : Dev := d.updCtx k fun c => { c with sflags := lor c.sflags f }
def Dev.flagT (d : Dev) (k f : Nat) : Dev := d.updCtx k fun c => { c with tflags := lor c.tflags f }
def Dev.flagU (d : Dev) (k f : Nat) : Dev := d.updCtx k fun c => { c with uflags := lor c.uflags f }

/-! ### Clusters and the contexts that hold them (R341, R343) -/

/-- The clusters a context holds. -/
def Dev.heldBy (d : Dev) (k : Nat) : List Nat := (List.range 32).filter fun cl => decide ((d.cluster cl).holder = some k)

/-- Is a switch-over of the context into any of its clusters still in progress (R345)? -/
def Dev.switchingIn (d : Dev) (k : Nat) : Bool :=
  (List.range 32).any fun cl => match (d.cluster cl).switch with
    | some w => decide (w.into = some k)
    | none => false

/-- May the context's plans and commands issue now (R344, R347, R375)? -/
def Dev.mayRun (d : Dev) (k : Nat) : Bool := decide ((d.ctx k).state = .running) && !d.switchingIn k

/-- A context whose clusters include a FAULTED function's (R388). -/
def Dev.clusterFaulted (d : Dev) (cl : Nat) : Bool := d.primeOf (32 + cl) = 2
def Dev.cisternFaulted (d : Dev) (ci : Nat) : Bool := d.primeOf (64 + ci) = 2
/-- Is a priming state that of either H-die's units? -/
def Dev.hdieIs (d : Dev) (st : Nat) : Bool := d.primeOf 16 = st || d.primeOf 17 = st
/-- Either H-die's units are FAULTED: the device serves the dictionary and accepts a reset, and nothing more (R388). No port
trains, the host reaches no memory, and no batch comes into force (DEDUCED, log entry 113). -/
def Dev.servesOnly (d : Dev) : Bool := d.hdieIs 2

/-! ### Commands in force (R376, R377) -/

/-- A command's number: queue × 65,536 + ring index. -/
def QCmd.id (q : QCmd) : Nat := q.q * 65536 + q.index

def Dev.cmd (d : Dev) (id : Nat) : Option QCmd := d.inForce.find? fun q => q.id = id

def Dev.updCmd (d : Dev) (id : Nat) (f : QCmd → QCmd) : Dev :=
  { d with inForce := d.inForce.map fun q => if q.id = id then f q else q }

/-- The command's unit has done its work. -/
def Dev.cmdWork (d : Dev) (id : Nat) : Dev := d.updCmd id fun q => { q with issued := true, work := true }

/-- The command has issued and its unit works on. -/
def Dev.cmdIssue (d : Dev) (id : Nat) : Dev := d.updCmd id fun q => { q with issued := true }

/-- The command completes with a fault status of its own (R376, R379), raised in its context too. -/
def Dev.cmdFault (d : Dev) (id k : Nat) (st : Status) (detail : Nat) : Dev :=
  (d.updCmd id fun q => { q with issued := true, work := true, completed := true
                                 status := if q.status.isSome then q.status else some st, detail := detail }).raiseAt k st detail .none 0

end Sys2Proof.Machine
end

