-- ==== Sys2Proof/Machine/Fabric.lean ====
section
/-! DEFINITION. Rolkan as this device's routers run it: packet headers, routing, links and their frames, congestion marks
and rates, drains, route tables and epochs (spec/13_rolkan.md R289 to R313). -/

namespace Sys2Proof.Machine

/-! ### Headers (R300, R301) -/

/-- The fields of a packet header that the sender chooses. -/
structure HdrArgs where
  ptype : PType
  geidRoute : Bool
  cls : Nat
  capable : Bool
  echo : Bool
  domain : Nat
  partition : Nat
  dest : Nat
  e2e : Nat
  bytes : Nat
deriving DecidableEq, Repr

/-- Packets that carry context data carry a stroke tag (R34). -/
def PType.tagged : PType → Bool
  | .mgmt => false
  | .congestion => false
  | _ => true

/-- Compose a header (R300). A full FP32 chunk of R326 and its header make a payload of 4,112 bytes, 257 units (log entry 103). -/
def Dev.header (d : Dev) (c : Clock) (a : HdrArgs) : Nat :=
  a.ptype.code * 2 ^ 124 + b2n a.geidRoute * 2 ^ 123 + 2 * a.cls * 2 ^ 120 + d.v 0x4010 5 0 * 2 ^ 112
    + b2n a.ptype.tagged * 2 ^ 111 + (if a.ptype.tagged then c.stroke % 16 else 0) * 2 ^ 107
    + b2n a.capable * 2 ^ 105 + b2n a.echo * 2 ^ 104 + a.domain % 4096 * 2 ^ 92 + a.partition % 8 * 2 ^ 89
    + d.geid * 2 ^ 69 + a.dest % 2 ^ 20 * 2 ^ 49 + 63 * 2 ^ 43 + a.e2e % 65536 * 2 ^ 27 + ceilDiv a.bytes 16 % 512 * 2 ^ 18

/-- Payload bytes of a content. The payload layouts of MEM_REQ, MEM_RESP, BULK and BULK_ACK are not in the spec: their
data bytes alone count (log entry 11). -/
def Content.bytes : Content → Nat
  | .memReq m => match m.kind with
    | .store _ data _ => data.length
    | _ => 0
  | .memResp r => match r.kind with
    | .data bs _ => bs.length
    | _ => 0
  | .bulk b => b.ranges.foldl (fun n r => n + r.data.length) 0
  | .bulkAck _ _ => 0
  | .tridal m => 8 + m.body.length
  | .collective m => 16 + m.body.length
  | .mgmt bs => bs.length
  | .congestion => 0

/-- Bytes of a packet on its way out. -/
def Sent.bytes (p : Sent) : Nat :=
  16 + alignUp (match p.body with | .raw b => b.length | .own c => c.bytes) 16

/-- Traffic class of a content (R301). -/
def Content.cls : Content → Nat
  | .tridal m => classOf .tridal (thType m.header.toNat)
  | c => classOf c.ptype 0

/-! ### Links (R295, R303) -/

/-- H-die of a port (R289). -/
def portHdie (p : Nat) : Nat := if p % 16 < 8 then 0 else 1

/-- The links that exist, in ascending number. -/
def Dev.linkIds (d : Dev) : List Nat := (d.links.filter fun kv => !kv.2.ports.isEmpty).map (·.1)

/-- The partner at the far end of a link. -/
def Dev.linkPartner (d : Dev) (l : Nat) : Option Offer := ((d.link l).ports.head?).bind fun p => (d.port p).partner

/-- The H-die of a link's ports. -/
def Dev.linkHdie (d : Dev) (l : Nat) : Nat := portHdie ((d.link l).ports.headD 0)

/-- Of several links, the one with the most ports, then the lowest number (R303). -/
def Dev.bestLink (d : Dev) (ls : List Nat) : Option Nat :=
  ls.foldl (fun b l => match b with
    | none => some l
    | some x => if (d.link x).ports.length < (d.link l).ports.length then some l else some x) none

/-- slot_link(s) of R303. -/
def Dev.slotLink (d : Dev) (s : Nat) : Option Nat :=
  d.bestLink (d.linkIds.filter fun l => match d.linkPartner l with
    | some o => decide (o.podBoard = d.v 0x4000 2 0) && decide (o.slot = s)
    | none => false)

/-- The link whose partner's offer named a GEID (R462). -/
def Dev.geidLink (d : Dev) (g : Nat) : Option Nat :=
  d.bestLink (d.linkIds.filter fun l => match d.linkPartner l with
    | some o => decide (o.geid = g)
    | none => false)

/-- Where route() takes a packet (R303). -/
inductive Route where
  | link (l header : Nat)
  | here
  | none
deriving DecidableEq, Repr

/-- An entry of the active tables: board entries at 0 to 63, GEID entries from 64 (R304). -/
def Dev.routeEntry (d : Dev) (k : Nat) : Nat := SMap.get (fun _ => 0) d.routes k

/-- A packet to a link, if the link exists. -/
def Dev.toLink (d : Dev) (l : Option Nat) (h : Nat) : Route :=
  match l with
  | some n => if (d.link n).ports.isEmpty then .none else .link n h
  | none => .none

/-- The coordinate part of route() (R303). -/
def Dev.routeCoord (d : Dev) (h : Nat) : Route :=
  let dest := phDest h
  let b := fld dest 19 14
  let s := fld dest 13 11
  if b != d.v 0x4000 2 0 then
    let r := d.routeEntry b
    match fld r 15 14 with
    | 1 => d.toLink (some (fld r 4 0)) h
    | 2 => d.toLink (d.slotLink (fld r 2 0)) h
    | _ => .none
  else if s != d.straps then d.toLink (d.slotLink s) h
  else .here

/-- Is a packet a response: a MEM_RESP, a BULK_ACK or a CONGESTION packet (R462)? -/
def phResponse (h : Nat) : Bool := phType h = 1 || phType h = 3 || phType h = 7

/-- route() of R303. A response to the device's own GEID is delivered with no table, since R462 promises that a response
within a board needs none (DEDUCED, log entry 41). -/
def Dev.route (d : Dev) (h : Nat) : Route :=
  if phGeidRoute h && phDest h = d.geid && phResponse h then .here
  else if phGeidRoute h then
    let e := d.routeEntry (64 + phDest h)
    match fld e 31 30 with
    | 1 => .here
    | 2 => d.toLink (some (fld e 4 0)) h
    | 3 => d.routeCoord (putFld (putFld h 68 49 (fld e 8 3 * 2 ^ 14 + fld e 2 0 * 2 ^ 11 + 7 * 2 ^ 8)) 123 123 0)
    | _ => .none
  else d.routeCoord h

/-- The packets a long link carries (R308). -/
def longOk (t : Nat) : Bool := t = 2 || t = 3 || t = 6 || t = 7

/-- The domains a link's ports have carried since their last drain (R311). -/
def Dev.linkDomains (d : Dev) (l : Nat) : List Nat := dedupe ((d.link l).ports.map fun p => (d.port p).domains).flatten

/-- A port carries a packet of a domain: it keeps the last 64 distinct ones (R311). -/
def Port.carry (p : Port) (dom : Nat) : Port :=
  let others := p.domains.filter (· != dom)
  { p with domains := others.drop (others.length - 63) ++ [dom] }

/-- May the packet leave on this link now? The partner's XOFF bit of its channel is clear (R308), and every drain that
runs admits its domain (R311). -/
def Link.open (k : Link) (p : Sent) : Bool :=
  !bit k.xoff (phVc p.header) && k.drains.all fun dr => dr.admitted.contains (phDomain p.header)

/-- Does the link discard the packet's domain (R311)? -/
def Link.discards (k : Link) (dom : Nat) : Bool :=
  k.keepDiscarding.contains dom || k.drains.any fun dr => decide (dr.domain = dom)

/-- Packet bytes in one frame of 256 bytes: what its number, its acknowledgement, its XOFF bits and its CRC-32 leave (R291; log
entry 12). -/
def frameRoom : Nat := 247

/-- Frames that a packet takes. -/
def Sent.frames (p : Sent) : Nat := ceilDiv p.bytes frameRoom

/-- The port of a link `i` places after port `p` in the rotation (R295). -/
def Link.portAfter (k : Link) (p i : Nat) : Nat := nth 0 k.ports (((k.ports.findIdx? (· = p)).getD 0 + i) % max 1 k.ports.length)

/-- Send a packet from the egress queue of a port (R291, R295): its frames go out on the link's ports in rotation, that port's
first. `congested` says that the queue is above ECN_THRESHOLD (R310). -/
def Dev.frameOut (d : Dev) (l port : Nat) (p : Sent) (congested : Bool) : Dev :=
  let k := d.link l
  let mark := congested && phEcn p.header = 1
  let p1 : Sent := { p with header := if mark then putFld p.header 106 105 3 else p.header }
  let fs : List FrameOut := (List.range p1.frames).map fun i =>
    ⟨(k.txSeq + i) % 65536, k.portAfter port i, p1, i * frameRoom, min frameRoom (p1.bytes - i * frameRoom)⟩
  let d1 := d.setLink l { k with txSeq := (k.txSeq + fs.length) % 65536, unacked := k.unacked ++ fs }
  let d2 := fs.foldl (fun d f => (d.setPort f.port ((d.port f.port).carry (phDomain p.header))).emit
    (.frame l f k.rxSeq k.xoffSent (Config.frameCrc d.out.length))) d1
  if mark then d2.bump 0x80B0 8 0 1 else d2

/-- Packets that may now leave a link's egress queues leave them, in order (R308, R311). -/
def Dev.flushQueue (l : Nat) : List (Nat × Sent) → Dev → Dev
  | [], d => d
  | x :: xs, d =>
    let k := d.link l
    let vc := phVc x.2.header
    if k.discards (phDomain x.2.header) then Dev.flushQueue l xs (d.bump 0x80B0 0x0A 0 1)
    else if k.open x.2 && k.queue.all fun y => phVc y.2.header != vc then
      let held := ((x :: xs).filter fun y => y.1 = x.1 && phVc y.2.header = vc).foldl (fun n y => n + y.2.bytes) 0
      Dev.flushQueue l xs (d.frameOut l x.1 x.2 (decide (d.v 0x4020 1 0 < held)))
    else Dev.flushQueue l xs (d.setLink l { k with queue := k.queue ++ [x] })

def Dev.flushLink (d : Dev) (l : Nat) : Dev := Dev.flushQueue l (d.link l).queue (d.setLink l { d.link l with queue := [] })

/-- The stage becomes B on an optical port (R301). -/
def Sent.stage (p : Sent) (port : Nat) : Sent := if port ≥ 16 then { p with header := putFld p.header 120 120 1 } else p

/-- send() of R303 on a link: HOPS_LEFT falls by 1, and the packet joins an egress queue of the next port in the rotation. -/
def Dev.sendOn (d : Dev) (l : Nat) (p : Sent) : Dev :=
  let k := d.link l
  let port := nth 0 k.ports (k.turn % max 1 k.ports.length)
  let p1 := ({ p with header := putFld p.header 48 43 (phHops p.header - 1) } : Sent).stage port
  if k.discards (phDomain p1.header) then d.bump 0x80B0 0x0A 0 1
  else (d.setLink l { k with queue := k.queue ++ [(port, p1)], turn := (k.turn + p1.frames) % max 1 k.ports.length }).flushLink l

/-- Packet bytes that a partition may send from an H-die in one window (R336). -/
def Dev.fabricAllowance (d : Dev) (p : Nat) : Nat := 3200000 * d.v (0x3100 + p) 6 0 / 1024

/-- The key of a packet's fabric regulator valve: H-die and partition. -/
def Dev.regKey (d : Dev) (l : Nat) (p : Sent) : Nat := d.linkHdie l * 8 + phSrcPartition p.header

/-- Packet bytes counted in this window under a key. -/
def Dev.regCount (d : Dev) (k : Nat) : Nat := SMap.get (fun _ => 0) d.regSent k

/-- Has a key's partition, and its H-die's egress of 3,200,000 bytes, room in this window (R336)? -/
def Dev.regRoom (d : Dev) (k : Nat) : Bool :=
  decide (d.regCount k < d.fabricAllowance (k % 8))
    && decide ((List.range 8).foldl (fun n p => n + d.regCount (k / 8 * 8 + p)) 0 < 3200000)

/-- Is a key's partition below its FABRIC_RESERVE in this window? -/
def Dev.regStanding (d : Dev) (k : Nat) : Bool := decide (d.regCount k < 3200000 * d.v (0x3100 + k % 8) 5 0 / 1024)

/-- A packet is charged to its partition and leaves. -/
def Dev.regPass (d : Dev) (l : Nat) (p : Sent) : Dev :=
  let k := d.regKey l p
  ({ d with regSent := SMap.put (fun _ => 0) d.regSent k (d.regCount k + p.bytes) } : Dev).sendOn l p

/-- A packet of the device itself leaves through its partition's regulator valve (R336), or waits for the next window. -/
def Dev.regulate (d : Dev) (l : Nat) (p : Sent) : Dev :=
  let k := d.regKey l p
  if phVc p.header / 2 = 1 then d.sendOn l p
  else if !d.regRoom k || (d.regHeld.any fun x => d.regKey x.1 x.2 = k) then { d with regHeld := d.regHeld ++ [(l, p)] }
  else d.regPass l p

/-- Is a packet one of an LC context? -/
def Dev.sentLc (d : Dev) (p : Sent) : Bool := p.ctx.any fun k => (d.ctx k).lc

/-- The packet served first of those that wait (R336): of the partitions that have room one below its reserve comes first, and of
its packets an LC context's. -/
def Dev.regNext (d : Dev) : Option Nat :=
  let may := (List.range d.regHeld.length).filter fun i => (d.regHeld[i]?).any fun x => d.regRoom (d.regKey x.1 x.2)
  let key := fun (i : Nat) => ((d.regHeld[i]?).map fun x => d.regKey x.1 x.2).getD 0
  match may.find? fun i => d.regStanding (key i) with
  | some i => some (((may.filter fun j => key j = key i).find? fun j => (d.regHeld[j]?).any fun x => d.sentLc x.2).getD i)
  | none => may.head?.map fun i => ((may.filter fun j => key j = key i).find? fun j => (d.regHeld[j]?).any fun x => d.sentLc x.2).getD i

/-- Packets that wait leave while one may: `n` bounds their number. -/
def Dev.regServe : Nat → Dev → Dev
  | 0, d => d
  | n + 1, d => match d.regNext.bind fun i => (d.regHeld[i]?).map fun x => (i, x) with
    | none => d
    | some y => Dev.regServe n (({ d with regHeld := d.regHeld.eraseIdx y.1 } : Dev).regPass y.2.1 y.2.2)

/-- A window of 1 µs begins (R336): the counts restart, and held packets leave as far as their limits allow. -/
def Dev.regulatorWindow (d : Dev) : Dev :=
  let waited := dedupe (d.regHeld.map fun x => phSrcPartition x.2.header)
  let d1 := waited.foldl (fun d p => d.bump 0x80D0 5 (2 * p + 1) 1) d
  Dev.regServe d.regHeld.length { d1 with regSent := [] }

/-- The entry of an H-die's table that serves a destination: its own, or the shared one when 4,096 are in use (R310). -/
def rateIndex (rs : List RateEntry) (h dest : Nat) : Option Nat :=
  match rs.findIdx? fun r => r.hdie = h && decide (r.dest = some dest) with
  | some i => some i
  | none => if (rs.filter fun r => r.hdie = h && r.dest.isSome).length ≥ 4096 then rs.findIdx? fun r => r.hdie = h && r.dest.isNone else none

/-- A packet of class 0 or 2 keeps to its destination's rate (R310): it waits once the entry has sent a microsecond's bytes,
or behind another that waits. -/
def Dev.shape (d : Dev) (x : Shaped) : Dev :=
  let h := d.linkHdie x.link
  if phVc x.packet.header / 2 = 1 || phVc x.packet.header / 2 = 3 then d.regulate x.link x.packet
  else
    match rateIndex d.rates h x.dest with
    | none => d.regulate x.link x.packet
    | some i =>
      let e := d.rates.getD i ⟨h, none, 0, none, 0⟩
      if e.rate ≤ e.sent || (d.shapeHeld.any fun y => d.linkHdie y.link = h && decide (rateIndex d.rates h y.dest = some i)) then
        { d with shapeHeld := d.shapeHeld ++ [x] }
      else ({ d with rates := d.rates.set i { e with sent := e.sent + x.packet.bytes } } : Dev).regulate x.link x.packet

/-- A packet of the device itself finds no route: where it is a request of class 0 or 2, which fails (R307). -/
def Dev.ownNoRoute (d : Dev) (h : Nat) : Dev :=
  if phVc h / 2 = 0 || phVc h / 2 = 2 then d.bump 0x80B0 7 0 1 else d

/-- A device hands a packet of its own for a GEID to its router (R303): the device after, and whether a route existed. -/
def Dev.launch (d : Dev) (p : Sent) (dest : Nat) : Dev × Bool :=
  if phGeidRoute p.header && phDest p.header = d.geid then (d.emit (.loop p), true)
  else
    match d.route p.header with
    | .here => (d.emit (.loop p), true)
    | .link l h =>
      if (d.link l).long && !longOk (phType h) then (d.ownNoRoute h, false)
      else (d.shape ⟨dest, l, { p with header := h }⟩, true)
    | .none => (d.ownNoRoute p.header, false)

/-- Send content of a context by GEID (R303): requests of classes 0 and 2 are ECN-capable (R310). -/
def Dev.sendTo (d : Dev) (c : Clock) (k : Option Nat) (part dest e2e : Nat) (x : Content) : Dev × Bool :=
  let cls := x.cls
  let echo := cls = 1 && d.echoes.contains dest
  let h := d.header c ⟨x.ptype, true, cls, cls = 0 || cls = 2, echo, d.domainOf part, part, dest, e2e, x.bytes⟩
  ({ d with echoes := if echo then d.echoes.filter (· != dest) else d.echoes } : Dev).launch ⟨h, .own x, k⟩ dest

/-- Send a memory request to the module `dest` in a slot of this board, by coordinate (R303). -/
def Dev.sendSlot (d : Dev) (c : Clock) (k : Option Nat) (part slot dest e2e : Nat) (x : Content) : Dev × Bool :=
  let coord := d.v 0x4000 2 0 * 2 ^ 14 + slot * 2 ^ 11 + 7 * 2 ^ 8
  let h := d.header c ⟨x.ptype, false, x.cls, true, false, d.domainOf part, part, coord, e2e, x.bytes⟩
  d.launch ⟨h, .own x, k⟩ dest

/-- Send a response (R462). Its partition and domain are 0 (log entry 13). -/
def Dev.respond (d : Dev) (c : Clock) (dest e2e : Nat) (x : Content) : Dev :=
  let echo := d.echoes.contains dest
  let h := d.header c ⟨x.ptype, true, 1, false, echo, 0, 0, dest, e2e, x.bytes⟩
  let d1 : Dev := { d with echoes := if echo then d.echoes.filter (· != dest) else d.echoes }
  let p : Sent := ⟨h, .own x, none⟩
  if dest = d.geid then d1.emit (.loop p)
  else
    match d1.geidLink dest with
    | some l => if (d1.link l).long && !longOk x.ptype.code then d1 else d1.sendOn l p
    | none => (d1.launch p dest).1

/-- The next end-to-end number towards a GEID (R262, R300). -/
def Dev.takeE2e (d : Dev) (dest : Nat) : Dev × Nat :=
  let n := SMap.get (fun _ => 0) d.e2eNext dest
  ({ d with e2eNext := SMap.put (fun _ => 0) d.e2eNext dest ((n + 1) % 65536) }, n)

/-! ### Congestion (R310) -/

/-- Nanoseconds from one instant to another, in the stroke period in force. -/
def nsSince (c : Clock) (t : Nat × Nat) : Nat := (c.stroke - t.1) * c.period + c.phase - t.2

/-- The H-die that sends this device's traffic to a GEID: that of the link on its way there (log entry 108). -/
def Dev.sendHdie (d : Dev) (g : Nat) : Nat :=
  match d.route (2 ^ 123 + g * 2 ^ 49) with
  | .link l _ => d.linkHdie l
  | _ => ((d.geidLink g).map d.linkHdie).getD 0

/-- An echo from a destination cuts its rate (R310). -/
def Dev.echoIn (d : Dev) (c : Clock) (g : Nat) : Dev :=
  let h := d.sendHdie g
  let full := decide ((d.rates.filter fun r => r.hdie = h && r.dest.isSome).length ≥ 4096)
  let mx := d.v 0x4020 5 0
  let i? := rateIndex d.rates h g
  let fresh : RateEntry := { hdie := h, dest := if full then none else some g, rate := mx, lastCut := none }
  let rates := if i?.isSome then d.rates else d.rates ++ [fresh]
  let i := i?.getD d.rates.length
  let e := rates.getD i fresh
  let due := match e.lastCut with
    | none => true
    | some t => decide (d.v 0x4020 4 0 ≤ nsSince c t)
  if due then
    ({ d with rates := rates.set i { e with rate := max (e.rate - e.rate / 2 ^ d.v 0x4020 2 0) 1000, lastCut := some (c.stroke, c.phase) } } : Dev).bump
      0x80B0 9 0 1
  else { d with rates := rates }

/-- A microsecond has passed: every entry rises, one that reaches ECN_RATE_MAX is removed, and packets that wait for their rates
leave as far as these allow (R310). -/
def Dev.rateStep (d : Dev) : Dev :=
  let risen := d.rates.map fun r => { r with rate := r.rate + d.v 0x4020 3 0, sent := r.sent - r.rate }
  d.shapeHeld.foldl (fun d x => d.shape x)
    { d with rates := risen.filter fun r => decide (r.rate < d.v 0x4020 5 0), shapeHeld := [] }

/-- A packet marked 0b11 reaches its receiver: its source is owed an echo (R310). -/
def Dev.owesEcho (d : Dev) (h : Nat) : Dev :=
  if phEcn h = 3 && !d.echoes.contains (phSrc h) then { d with echoes := d.echoes ++ [phSrc h] } else d

/-- The echo that a Tridal or MGMT packet bears. A MEM_RESP or BULK_ACK bears its own as an operand of its command. -/
def Dev.takeEcho (d : Dev) (c : Clock) (h : Nat) : Dev :=
  if phEcho h && (phType h = 4 || phType h = 6) then d.echoIn c (phSrc h) else d

/-! ### Ingress (R306, R307) -/

/-- What the stroke tag check says (R34). -/
inductive TagCheck where
  | pass | hold | discard
deriving DecidableEq, Repr

/-- R34's check. While the counter is held (R460) a packet of its stroke waits for the release, as one of the next stroke does in a
turnover, and any other is discarded: R34 does not speak of a held counter (DESIGN CHOICE, log entry 111). -/
def tagCheck (c : Clock) (h : Nat) : TagCheck :=
  if !phTagged h then .pass
  else if c.held then (if phTag h = c.stroke % 16 then .hold else .discard)
  else if phTag h = c.stroke % 16 then (if c.stage = .work || c.stage = .deadline then .pass else .discard)
  else if phTag h = (c.stroke + 1) % 16 && c.stage != .work then .hold
  else .discard

/-- no_route(p) of R307 at a router: the packet is discarded, and a request of class 0 or 2 from another device is
answered: the answer names the device the request was for (log entry 11). NO_ROUTE_EVENTS counts at the source only
(DEDUCED, log entry 42). -/
def Dev.noRoute (d : Dev) (c : Clock) (h : Nat) : Dev :=
  let cls := phVc h / 2
  if phSrc h = d.geid then d.ownNoRoute h
  else if cls = 0 || cls = 2 then
    d.respond c (phSrc h) (phE2e h)
      (.memResp ⟨BitVec.ofNat 20 (if phGeidRoute h then phDest h else d.geid), BitVec.ofNat 16 (phE2e h), .noRoute, false⟩)
  else d

/-- A parity error in an H-die's routing table serves no context: it is recorded in the DEVICE domain (R410, R412). The manual
gives such a record no SEVERITY (log entry 89). -/
def Dev.tableSeen (d : Dev) (c : Clock) (h : Option HdieId) : Dev :=
  match h with
  | none => d
  | some h => d.tickFree.logStatus c 0 .controlCheck (Config.freeChoice d.freeCtr % 4) 0 .hdie h.val

/-- A router takes a packet from a port, or from its own device (R303, R306). Packets of the next stroke are held. -/
def Dev.forward (d : Dev) (c : Clock) (ingress : Option PortId) (pk : Packet) : Dev :=
  let h := pk.header.toNat
  let p : Sent := ⟨h, .raw pk.payload, none⟩
  match ingress with
  | none =>
    if phGeidRoute h && phDest h = d.geid then d.emit (.loop p)
    else
      match d.route h with
      | .here => d.emit (.loop p)
      | .link l h' => if (d.link l).long && !longOk (phType h) then d.noRoute c h else d.sendOn l { p with header := h' }
      | .none => d.noRoute c h
  | some i =>
    let d := d.setPort i.val ((d.port i.val).carry (phDomain h))
    let l := (d.port i.val).link.getD 0
    if (d.port i.val).link.isSome && (d.link l).discards (phDomain h) then d.bump 0x80B0 0x0A 0 1
    else if phEpoch h != d.v 0x4010 5 0 && phType h != 6 then d.bump 0x80B0 4 0 1
    else if phHops h = 0 && d.route h != .here then d.bump 0x80B0 5 0 1
    else
      match tagCheck c h with
      | .discard => d.bump 0x8000 2 0 1
      | .hold => { d with heldIn := d.heldIn ++ [.packetForward (some i) ⟨pk, none⟩] }
      | .pass =>
        if phType h ≥ 8 then d.bump 0x80B0 6 0 1
        else
          match d.route h with
          | .here => ((d.owesEcho h).takeEcho c h).emit (.loop p)
          | .link l h' => if (d.link l).long && !longOk (phType h) then d.noRoute c h else d.sendOn l { p with header := h' }
          | .none => d.noRoute c h

/-! ### Flow control of what arrives (R308) -/

/-- Room of a link's receive buffer in one channel. -/
def Dev.bufferRoom (d : Dev) (l : Nat) : Nat :=
  let k := d.link l
  if k.long then k.reserved / 4 else 196608 * k.ports.length

/-- H of R308: round trip × ports × 200 GB/s + 8 KiB. -/
def Dev.xoffMark (d : Dev) (l : Nat) : Nat := 200 * ((d.link l).ports.map fun p => (d.port p).rtt).foldl (· + ·) 0 + 8192

/-- Bytes in a link's receive buffer of one channel: packets that wait for their stroke (R34) and the packet that is arriving. -/
def Dev.bufferHeld (d : Dev) (l vc : Nat) : Nat :=
  let k := d.link l
  let coming := if k.rx.length ≥ 16 && phVc (leNat (k.rx.take 16)) = vc then k.rx.length else 0
  d.heldIn.foldl (fun n i => match i with
    | .packetForward (some p) pk => if (d.port p.val).link = some l && phVc pk.packet.header.toNat = vc then n + 16 + pk.packet.payload.length else n
    | _ => n) coming

/-- The XOFF bits that this end sends on a link: a channel is stopped below H of free space and opened again at min(2H, B). A
full Tridal ingress stops class 2 (R171), a full half of the collective buffer class 3 (R325). -/
def Dev.xoffBits (d : Dev) (l : Nat) (tridalFull collFull : Bool) : Nat :=
  let b := d.bufferRoom l
  let h := d.xoffMark l
  (List.range (if (d.link l).long then 4 else 8)).foldl (fun w vc =>
    let space := b - d.bufferHeld l vc
    let stop := (vc / 2 = 2 && tridalFull) || (vc / 2 = 3 && collFull) || decide (space < h)
      || (bit (d.link l).xoffSent vc && decide (space < min (2 * h) b))
    if stop then setBit w vc else w) 0

/-- Every link's frames carry its XOFF bits from now on. -/
def Dev.advertise (d : Dev) (tridalFull collFull : Bool) : Dev :=
  d.linkIds.foldl (fun d l =>
    let w := d.xoffBits l tridalFull collFull
    if w = (d.link l).xoffSent then d else (d.setLink l { d.link l with xoffSent := w }).emit (.xoff l w)) d

/-! ### Port states (R292 to R296) -/

/-- The device's own offer on a port (R292). -/
def Dev.offerBits (d : Dev) (p : Nat) : Nat :=
  1 * 2 ^ 112 + d.v 0x4000 3 0 * 2 ^ 96 + d.geid * 2 ^ 76 + d.v 0x4000 2 0 % 64 * 2 ^ 70 + d.straps * 2 ^ 67 + p * 2 ^ 62
    + portHdie p * 2 ^ 61

/-- Is a port enabled and primed, on a device whose routers work (R386, R388)? -/
def Dev.portUsable (d : Dev) (p : Nat) : Bool := d.v 0x4030 1 p = 1 && d.primeOf (96 + p) = 1 && !d.servesOnly

/-- A port begins to train and sends its offer (R292). -/
def Dev.train (d : Dev) (p : Nat) : Dev :=
  (({ d with trained := true } : Dev).setPort p { d.port p with state := .training, partner := none, refusal := 0, replays := 0 }).emit
    (.offer p (d.offerBits p))

/-- A usable port with a partner's signal trains; one without stays DOWN (R386, R296). -/
def Dev.trainIf (d : Dev) (p : Nat) : Dev := if d.portUsable p && (d.port p).signal then d.train p else d

/-- Take a port out of its link (R296): its outstanding frames are replayed on the ports that remain, and what waits in its
egress queues leaves through another; with the last port the link ceases to exist. -/
def Dev.leaveLink (d : Dev) (p : Nat) : Dev :=
  match (d.port p).link with
  | none => d
  | some l =>
    let k := d.link l
    let rest := k.ports.filter (· != p)
    let d1 := d.setPort p { d.port p with link := none }
    if rest.isEmpty then d1.setLink l {}
    else
      let mine := k.unacked.filter fun f => f.port = p
      let d2 := d1.setLink l { k with ports := rest
                                      queue := k.queue.map fun x => if x.1 = p then (rest.headD 0, x.2.stage (rest.headD 0)) else x
                                      unacked := k.unacked.map fun f => if f.port = p then { f with port := rest.headD 0 } else f }
      if mine.isEmpty then d2 else (d2.emit (.replay l (mine.map (·.seq)))).bump 0x80B0 1 (rest.headD 0) mine.length

/-- A port leaves its link and is DOWN (R296). -/
def Dev.portOut (d : Dev) (p : Nat) : Dev :=
  if (d.port p).state = .disabled then d
  else
    let d1 := d.leaveLink p
    d1.setPort p { d1.port p with state := .down, refusal := 0, partner := none, replays := 0, marker := none, domains := [] }

/-- A port loses its signal or its lane lock (R296). -/
def Dev.portDown (d : Dev) (p : Nat) : Dev := (d.setPort p { d.port p with signal := false }).portOut p

/-- The clock after ports have changed: a LOCKED follower whose upstream link has failed goes to HOLDOVER (R26); one whose
link goes on over other ports takes its markers from the lowest of them. -/
def settleUpstream (c : Clock) (d : Dev) : Clock × Dev :=
  match c.upstream with
  | none => (c, d)
  | some u =>
    if (d.port u.val).link.isSome then (c, d)
    else
      let other := (List.finRange 32).find? fun p => (d.port p.val).link.isSome && (d.port p.val).partner.any fun o => o.geid = c.upGeid
      match other with
      | some p => ({ c with upstream := some p }, d)
      | none =>
        let c1 : Clock := { c with upstream := none, stepDue := none }
        if c.sync = .locked then ({ c1 with sync := .holdover }, d.bump 0x8000 3 0 1) else (c1, d)

/-- Bytes a long link reserves in its H-die's store (R308), four channels: `rtts` are the round trips of its ports. -/
def longReserve (rtts : List Nat) : Nat := 4 * (400 * rtts.foldl (· + ·) 0 + 16384)

/-- The link of this H-die that has the same partner H-die and room for a port (R295). -/
def Dev.sameLink (d : Dev) (p : Nat) (o : Offer) : Option Nat :=
  d.linkIds.find? fun l => decide (d.linkHdie l = portHdie p) && decide ((d.link l).ports.length < 8) && (match d.linkPartner l with
    | some x => decide (x.geid = o.geid) && decide (x.hdie = o.hdie)
    | none => false)

/-- The long ports of an H-die towards a partner's H-die that hold a reservation: those of a link and those that wait to join one. -/
def Dev.longPorts (d : Dev) (h geid hdie : Nat) : List Nat :=
  (List.range 32).filter fun p =>
    let x := d.port p
    portHdie p = h && (x.state = .joining || x.state = .up) && decide (900 < x.rtt)
      && x.partner.any fun o => o.geid = geid && o.hdie = hdie

/-- Store bytes that ports of given round trips towards one partner reserve: eight ports to a link. -/
def gangReserve (rtts : List Nat) : Nat := (chunks 8 rtts).foldl (fun n g => n + longReserve g) 0

/-- Store bytes reserved on an H-die (R294, R308). -/
def Dev.storeUsed (d : Dev) (h : Nat) : Nat :=
  let partners := dedupe ((List.range 32).filterMap fun p => if portHdie p = h then (d.port p).partner.map fun o => (o.geid, o.hdie) else none)
  partners.foldl (fun n x => n + gangReserve ((d.longPorts h x.1 x.2).map fun p => (d.port p).rtt)) 0

/-- A link offer arrives only from a partner that is there: a port that was DOWN trains towards it (R292). -/
def Dev.offerSeen (d : Dev) (p : Nat) : Dev :=
  let d1 := d.setPort p { d.port p with signal := true }
  if (d1.port p).state = .down then d1.trainIf p else d1

/-- A port is refused: it leaves any link it has (R294). -/
def Dev.refusePort (d : Dev) (p reason : Nat) : Dev :=
  let d1 := d.leaveLink p
  d1.setPort p { d1.port p with state := .refused, refusal := reason, partner := none, replays := 0, marker := none, domains := [] }

/-- What a link offer is refused for by its words alone: no common version, the same module, the port's own GEID (R293,
R294); 0 where it is not. -/
def Dev.offerBar (d : Dev) (bits : Nat) : Nat :=
  let v := min (d.v 0x4000 3 0) (fld bits 111 96)
  if v < 1 || v < fld bits 127 112 then 1
  else if fld bits 95 76 = d.geid then (if fld bits 75 70 = d.v 0x4000 2 0 && fld bits 69 67 = d.straps then 3 else 2)
  else 0

def offerOf (bits : Nat) : Offer := ⟨fld bits 95 76, fld bits 75 70, fld bits 69 67, fld bits 66 62, fld bits 61 61⟩

/-- A link offer: it completes a port's training (R292 to R295), and a port that has a partner takes the partner's new
offer (R313). -/
def Dev.linkOffer (d0 : Dev) (p bits rtt : Nat) : Dev :=
  let d := d0.offerSeen p
  let o := offerOf bits
  let v := min (d.v 0x4000 3 0) (fld bits 111 96)
  match (d.port p).state with
  | .training =>
    let d1 := d.setPort p { d.port p with state := .joining, partner := some o, refusal := 0, version := v, rtt := rtt }
    if d.offerBar bits != 0 then (d.setPort p { d.port p with rtt := rtt }).refusePort p (d.offerBar bits)
    else if rtt > 900 && d1.storeUsed (portHdie p) > 33554432 then (d.setPort p { d.port p with rtt := rtt }).refusePort p 4
    else d1
  | .joining | .up =>
    if d.offerBar bits != 0 then d.refusePort p (d.offerBar bits)
    else d.setPort p { d.port p with partner := some o, version := v }
  | _ => d

/-- The number of a link that port `p` forms: its own, or the lowest free one while a link that kept that number lives (log
entry 109). -/
def Dev.newLink (d : Dev) (p : Nat) : Nat :=
  if (d.link p).ports.isEmpty then p else ((List.range 32).find? fun l => (d.link l).ports.isEmpty).getD p

/-- The ports that wait to join do so at a turnover (R295). -/
def Dev.joinPorts (d : Dev) : Dev :=
  (List.range 32).foldl (fun d p =>
    match (d.port p).state, (d.port p).partner with
    | .joining, some o =>
      let l := (d.sameLink p o).getD (d.newLink p)
      let k := d.link l
      let ports := k.ports ++ [p]
      let long := k.long || decide ((d.port p).rtt > 900)
      let d1 := d.setLink l { k with ports := ports, long := long
                                     reserved := if long then longReserve (ports.map fun i => (d.port i).rtt) else 0 }
      d1.setPort p { d1.port p with state := .up, link := some l }
    | _, _ => d) d

/-- PORT_ENABLE as it takes effect at a turnover (R296). -/
def Dev.applyPortEnable (d : Dev) : Dev :=
  (List.range 32).foldl (fun d p =>
    if d.v 0x4030 1 p = 0 then
      let d1 := (if (d.port p).state = .disabled then d else d.emit (.linkDown p)).leaveLink p
      d1.setPort p { d1.port p with state := .disabled, partner := none, refusal := 0, domains := [] }
    else if (d.port p).state = .disabled then
      (d.setPort p { d.port p with state := .down }).trainIf p
    else d) d

/-! ### Frames (R291) -/

/-- Is frame number `s` acknowledged by `a`: is it before `a` in the 16-bit order? -/
def ackedBy (s a : Nat) : Bool := decide (0 < (a + 65536 - s) % 65536) && decide ((a + 65536 - s) % 65536 < 32768)

/-- The packets that bytes of a link hold whole, in order, and the bytes left (R291, R300): each begins with its header, whose
LENGTH says where it ends. `f` bounds their number. -/
def cutPackets : Nat → List Byte → List Packet × List Byte
  | 0, bs => ([], bs)
  | f + 1, bs =>
    let h := leNat (bs.take 16)
    let n := 16 + 16 * fld h 26 18
    if bs.length < 16 || bs.length < n then ([], bs)
    else
      let rest := cutPackets f (bs.drop n)
      (⟨BitVec.ofNat 128 h, (bs.take n).drop 16⟩ :: rest.1, rest.2)

/-- A frame arrives on a port (R291, R308). -/
def Dev.frameIn (d : Dev) (c : Clock) (port : PortId) (f : FrameIn) : Dev :=
  match (d.port port.val).link with
  | none => d
  | some l =>
    if !f.crcOk then d.emit (.linkAck l (d.link l).rxSeq true)
    else
      let k := d.link l
      let rest := k.unacked.filter fun x => !ackedBy x.seq f.ack.toNat
      let progressed := decide (rest.length < k.unacked.length)
      let d1 := d.setLink l { k with unacked := rest, xoff := f.xoff.toNat }
      let again := f.nack && !rest.isEmpty
      let n := (if progressed then 0 else (d.port port.val).replays) + (if again then 1 else 0)
      let d2 := d1.setPort port.val { d1.port port.val with replays := n }
      let d3 := if again then (d2.emit (.replay l (rest.map (·.seq)))).bump 0x80B0 1 port.val rest.length else d2
      let d4 := d3.flushLink l
      let k4 := d4.link l
      let d5 :=
        if f.seq.toNat = k4.rxSeq then
          let got := cutPackets 16 (k4.rx ++ f.data)
          let d5 := (d4.setLink l { k4 with rxSeq := (k4.rxSeq + 1) % 65536, rx := got.2 }).emit (.linkAck l ((k4.rxSeq + 1) % 65536) false)
          got.1.foldl (fun d pk => d.forward c (some port) pk) d5
        else if ackedBy f.seq.toNat k4.rxSeq then d4
        else d4.emit (.linkAck l k4.rxSeq true)
      if again && n ≥ 8 then (d5.portOut port.val).trainIf port.val else d5

/-! ### Drains (R311) -/

/-- The drain of a domain on a link ends: the held packets leave, and the ports' sets start anew. -/
def Dev.endDrain (d : Dev) (l dom : Nat) (keep : Bool) : Dev :=
  let k := d.link l
  if !(k.drains.any fun dr => decide (dr.domain = dom)) then d
  else
    let d1 := d.setLink l { k with drains := k.drains.filter fun dr => dr.domain != dom
                                   partnerDrained := k.partnerDrained.filter (· != dom)
                                   keepDiscarding := if keep && !k.keepDiscarding.contains dom
                                     then k.keepDiscarding ++ [dom] else k.keepDiscarding }
    let d2 := k.ports.foldl (fun d p => d.setPort p { d.port p with domains := [] }) d1
    d2.flushLink l

/-- The 2 ms of a link's oldest drain have passed. -/
def Dev.drainTimeout (d : Dev) (l : Nat) : Dev :=
  match (d.link l).drains with
  | [] => d
  | dr :: _ => d.endDrain l dr.domain true

/-- A drain of domain `dom` begins on every link whose set holds it or is full; one that drains it already goes on. -/
def Dev.beginDrain (d : Dev) (dom : Nat) : Dev :=
  d.linkIds.foldl (fun d l =>
    let k := d.link l
    let set := d.linkDomains l
    let full := k.ports.any fun p => decide ((d.port p).domains.length ≥ 64)
    if !(set.contains dom || full) || k.drains.any (fun dr => decide (dr.domain = dom)) then d
    else
      let gone := k.queue.filter fun x => phDomain x.2.header = dom
      let d1 := ((d.setLink l { k with drains := k.drains ++ [⟨dom, set⟩], queue := k.queue.filter fun x => phDomain x.2.header != dom }).bump
        0x80B0 0x0A 0 gone.length).emit (.drainDone l dom)
      if k.partnerDrained.contains dom then d1.endDrain l dom false else d1) d

/-- The partner's drain-complete signal. -/
def Dev.drainSignal (d : Dev) (l dom : Nat) : Dev :=
  let k := d.link l
  if k.drains.any fun dr => decide (dr.domain = dom) then d.endDrain l dom false
  else if k.ports.isEmpty then d
  else d.setLink l { k with partnerDrained := dedupe (k.partnerDrained ++ [dom]) }

/-! ### Route images and epochs (R304 to R306) -/

/-- Is a board route entry one that R304 allows? -/
def boardEntryOk (e : Nat) : Bool :=
  match fld e 15 14 with
  | 0 => fld e 13 0 = 0
  | 1 => fld e 13 5 = 0
  | 2 => fld e 13 3 = 0
  | _ => false

/-- Is a GEID table entry one that R304 allows? -/
def geidEntryOk (e : Nat) : Bool :=
  fld e 29 15 = 0 && (match fld e 31 30 with
    | 2 => decide (fld e 14 5 = 0)
    | 3 => decide (fld e 14 9 = 0)
    | _ => decide (fld e 14 0 = 0))

/-- Offset and width of table entry `k` in a route image (R305). -/
def imageSlot (k : Nat) : Nat × Nat := if k < 64 then (2 * k, 2) else (128 + 4 * (k - 64), 4)

/-- The table entry that a byte of an image belongs to. -/
def imageEntryOf (off : Nat) : Nat := if off < 128 then off / 2 else 64 + (off - 128) / 4

/-- The entries of an image that are not plainly zero: those with a listed byte, or all of them where memory that
nothing has written is undefined (R248). -/
def imageEntries (m : Memory) (a : Nat) : List Nat :=
  if m.gen.all (· = 0) then
    dedupe ((m.cells.filter fun x => decide (a ≤ x.1) && decide (x.1 < a + 4194432)).map fun x => imageEntryOf (x.1 - a))
  else List.range (64 + 1048576)

/-- A route image read into a shadow table, or none where it is invalid (R305). -/
def readImage (m : Memory) (a : Nat) : Option RouteTable :=
  if a % 64 != 0 || !inCistern a 4194432 || (m.poison.any fun x => decide (a / 64 ≤ x.1) && decide (x.1 < a / 64 + 65538)) then none
  else
    let es := (imageEntries m a).map fun k => (k, m.le (a + (imageSlot k).1) (imageSlot k).2)
    if es.all fun x => if x.1 < 64 then boardEntryOk x.2 else geidEntryOk x.2 then
      some (es.foldl (fun t x => SMap.put (fun _ => 0) t x.1 x.2) [])
    else none

/-- Is the load of a route image under way (R305)? -/
def Dev.routeBusy (d : Dev) : Bool := d.routeLoad.isSome

/-- ROUTE_LOAD: the load takes the image at ROUTE_IMAGE_ADDR, unless one is under way (R305). -/
def Dev.loadRoutes (d : Dev) : Dev :=
  if d.routeBusy then d else ({ d with routeLoad := some (d.v 0x4010 1 0, d.mem) } : Dev).setV 0x4010 3 0 1

/-- The image as the load reads it: a line that has changed meanwhile has either its old or its new contents. -/
def imageSeen (old new : Memory) (a occasion : Nat) : Memory :=
  let ls := dedupe ((old.cells ++ new.cells).map (·.1 / 64) ++ (old.poison ++ new.poison).map (·.1))
  (ls.filter fun l => inSpan (a / 64) 65538 l).foldl (fun m l =>
    if (Config.freeByte occasion (64 * l)).toNat % 2 = 1 then m.write (64 * l) (old.read (64 * l) 64) (old.anyPoison (64 * l) 64) else m) new

/-- The load of a route image ends (R305). -/
def Dev.routeLoadDone (d : Dev) : Dev :=
  match d.routeLoad with
  | none => d
  | some x =>
    let d1 : Dev := { d.tickFree with routeLoad := none }
    match readImage (imageSeen x.2 d.mem x.1 d.freeCtr) x.1 with
    | some t => ({ d1 with shadow := some t } : Dev).setV 0x4010 3 0 2
    | none => ({ d1 with shadow := none } : Dev).setV 0x4010 3 0 3

/-- The epoch change due at the turnover of stroke `n` (R306). -/
def Dev.applyEpoch (d : Dev) (n : Nat) : Dev :=
  match d.epochDue with
  | none => d
  | some (e, s) =>
    if s != n + 1 then d
    else
      let d0 : Dev := { d with epochDue := none }
      match d.v 0x4010 3 0, d.shadow with
      | 2, some t => (({ d0 with routes := t, shadow := some d.routes } : Dev).setV 0x4010 5 0 e).setV 0x4010 3 0 0
      | st, _ => d0.logEvent n 3 (st * 256 + e) .none 0

end Sys2Proof.Machine
end

