-- ==== Sys2Proof/Machine/Access.lean ====
section
/-! DEFINITION. How units reach memory: translation and protection, accesses on this device and to other devices, gateways
and their bulk transfers (spec/11_memory_fabric.md R241, R246, R252, R257 to R262, R267 to R269; spec/18_faults.md R409,
R420). -/

namespace Sys2Proof.Machine

/-- Who makes an access: its context; its queue command; its source (R260); the signature its stores add to (R420:
clusters 0 to 31, 32 the device). -/
structure Who where
  ctx : Nat
  cmd : Nat
  src : Source
  sig : Nat
deriving DecidableEq, Repr

/-- What stands in the way of an access. -/
inductive Bar where
  /-- The page is to be brought in (R253). -/
  | absent (va : Nat)
  /-- Not permitted (R252). -/
  | denied
  /-- A cistern is still PRIMING (R387). -/
  | waits
  /-- The bytes lie on another device: frame, address, length. -/
  | remote (f : Frame) (addr n : Nat)
deriving DecidableEq, Repr

/-! ### Placement (R246) -/

/-- INTERLEAVE_SPLIT in force. -/
def Dev.splits (d : Dev) : List Nat := (List.range 3).map fun r => d.v 0x5000 2 r

/-- The cistern that holds an address. -/
def Dev.cisternOf (d : Dev) (a : Nat) : Nat := (place d.splits a).cistern

/-- The cisterns of the granules of [a, a + n). -/
def Dev.cisternsOf (d : Dev) (a n : Nat) : List Nat :=
  if n = 0 then [] else dedupe ((List.range ((a + n - 1) / 256 - a / 256 + 1)).map fun i => d.cisternOf ((a / 256 + i) * 256))

/-- FAULTED cisterns are not reached (R388); a PRIMING one makes the access wait (R387), as a refresh slot does (R30). -/
def Dev.cisternBar (d : Dev) (a n : Nat) : Option Bar :=
  let cs := d.cisternsOf a n
  if cs.any d.cisternFaulted then some .denied
  else if d.slotOn then some .waits
  else if cs.any fun ci => d.primeOf (64 + ci) = 0 then some .waits
  else none

/-! ### Stores on this device -/

/-- Count the partial-line writes of [a, a + n) (R241). -/
def Dev.countPartial (d : Dev) (a n : Nat) : Dev :=
  (linesOf a n).foldl (fun d l =>
    if decide (a ≤ l * 64) && decide (l * 64 + 64 ≤ a + n) then d else d.bump 0x8090 9 (d.cisternOf (l * 64)) 1) d

/-- A write to memory: queued at the cistern logic dies while the turnover's burst runs (R35). -/
def Dev.memStore (d : Dev) (a : Nat) (bs : List Byte) (poison : Bool) : Dev :=
  if d.burstOn then { d with storeQueue := d.storeQueue ++ [(a, bs, poison)] }
  else ({ d with mem := d.mem.write a bs poison } : Dev).countPartial a bs.length

/-- Memory with the queued stores in it, as the logic dies serve it. -/
def Dev.memNow (d : Dev) : Memory := d.storeQueue.foldl (fun m x => m.write x.1 x.2.1 x.2.2) d.mem

/-- The burst has ended: the queued stores are written (R35). -/
def Dev.burstEnd (d : Dev) : Dev :=
  d.storeQueue.foldl (fun d x => d.memStore x.1 x.2.1 x.2.2) { d with burstOn := false, storeQueue := [] }

/-- A store to device addresses for a context: the bytes, their poison, and what the verdict needs (R36, R409). -/
def Dev.storeDev (d : Dev) (k a : Nat) (bs : List Byte) (poison : Bool) : Dev :=
  (d.memStore a bs poison).updCtx k fun c =>
    { c with wrote := c.wrote ++ [(a, bs.length)], poisonWritten := c.poisonWritten || poison }

/-! ### The caches of a cluster (R108, R109) -/

/-- Bytes from `base` on, with those of a later store at `a` laid over them. -/
def overlay (base : Nat) (old : List Byte) (a : Nat) (new : List Byte) : List Byte :=
  (List.range old.length).map fun i =>
    if decide (a ≤ base + i) && decide (base + i < a + new.length) then new.getD (base + i - a) 0#8 else old.getD i 0#8

/-- Poison of bytes [base, base + n), whole lines, after a later store at `a` (R241). -/
def overlayPoison (base n : Nat) (old : Bool) (a len : Nat) (new : Bool) : Bool :=
  new || (old && !(decide (a ≤ base) && decide (base + n ≤ a + len)))

/-- A line as memory holds it. -/
def Dev.lineNow (d : Dev) (l : Nat) : CacheLine := ⟨l, d.mem.read (64 * l) 64, d.mem.anyPoison (64 * l) 64⟩

/-- The copy of a line that a cluster's caches hold. -/
def Dev.heldLine (d : Dev) (cl l : Nat) : Option CacheLine := (d.cluster cl).cache.find? fun x => x.line = l

/-- Is the copy that a cluster holds older than memory? Another writer has then broken R109's rule in this stroke. -/
def Dev.staleLine (d : Dev) (cl l : Nat) : Bool := (d.heldLine cl l).any fun x => x != d.lineNow l

/-- A line as a core reads it through its cluster's caches: the copy held, or memory. Which of the two it is where they
differ is free (R109: the cluster may read stale data). -/
def Dev.clusterLine (d : Dev) (cl l : Nat) : CacheLine :=
  match d.heldLine cl l with
  | none => d.lineNow l
  | some x => if d.staleLine cl l && decide ((Config.freeByte d.freeCtr (64 * l)).toNat % 2 = 1) then d.lineNow l else x

/-- Add an item to a list of at most `n`: a full one gives up any of its items. -/
def addBounded {α : Type} (n pick : Nat) (xs : List α) (x : α) : List α :=
  if xs.length < n then xs ++ [x] else xs.set (pick % n) x

/-- A cluster's caches and a core's data cache take a line (R108): 262,144 lines in the one, 1,024 in the other. What the
cluster cache gives up, its data caches give up too. -/
def Dev.cacheLine (d : Dev) (core : Nat) (x : CacheLine) : Dev :=
  let cl := core / 8
  let k := d.cluster cl
  let held := k.cache.findIdx? fun y => y.line = x.line
  let cache := match held with
    | some i => k.cache.set i x
    | none => addBounded 262144 (Config.freeChoice d.freeCtr) k.cache x
  let d1 := d.setCluster cl { k with cache := cache }
  let d2 := if held.isSome || decide (k.cache.length < 262144) then d1
    else (List.range 8).foldl (fun d i => d.updCore (8 * cl + i) fun co =>
      { co with dcache := co.dcache.filter fun l => cache.any fun y => y.line = l }) d1
  d2.updCore core fun co => if co.dcache.contains x.line then co
    else { co with dcache := addBounded 1024 (Config.freeChoice d.freeCtr) co.dcache x.line }

/-- A core has read device bytes [a, a + n) of a CLUSTER page: its caches hold the lines. -/
def Dev.cacheRead (d : Dev) (core a n : Nat) : Dev :=
  let ls := linesOf a n
  let d1 := ls.foldl (fun e l => e.cacheLine core (d.clusterLine (core / 8) l)) d
  if ls.any fun l => d.staleLine (core / 8) l then d1.tickFree else d1

/-- A core has stored to a CLUSTER page, through its caches (R108): the copies take the bytes, and the other seven data
caches lose the lines. -/
def Dev.cacheStore (d : Dev) (core a : Nat) (bs : List Byte) (poison : Bool) : Dev :=
  (linesOf a bs.length).foldl (fun d l =>
    let x := match d.heldLine (core / 8) l with
      | none => d.lineNow l
      | some x => ⟨l, overlay (64 * l) x.data a bs, overlayPoison (64 * l) 64 x.poison a bs.length poison⟩
    let d1 := (List.range 8).foldl (fun d i => d.updCore (core / 8 * 8 + i) fun co => { co with dcache := co.dcache.filter (· != l) }) d
    d1.cacheLine core x) d

/-- A line leaves a cluster's caches (R263). -/
def Dev.cacheDrop (d : Dev) (cl l : Nat) : Dev :=
  let d1 := d.updCluster cl fun k => { k with cache := k.cache.filter fun x => x.line != l }
  (List.range 8).foldl (fun d i => d.updCore (8 * cl + i) fun co => { co with dcache := co.dcache.filter (· != l) }) d1

/-- Every cache is invalidated (R100). -/
def Dev.cachesEmpty (d : Dev) : Dev :=
  let d1 := (List.range 32).foldl (fun d cl => d.updCluster cl fun k => { k with cache := [] }) d
  (List.range 256).foldl (fun d co => d.updCore co fun x => { x with dcache := [] }) d1

/-! ### Lock-step signatures (R420) -/

/-- Is a virtual address outside every range of LS_EXCLUDE? -/
def Dev.lsCovers (d : Dev) (va : Nat) : Bool :=
  (List.range 4).all fun r =>
    let lo := d.v 0x7100 6 (2 * r)
    let hi := d.v 0x7100 6 (2 * r + 1)
    !(decide (lo ≤ hi) && decide (lo ≤ va) && decide (va ≤ hi))

/-- h of one line of a store (R420); 0 where nothing of it is covered. -/
def Dev.lsHash (d : Dev) (line va : Nat) (bs : List Byte) (poison : Bool) : Nat :=
  let bytes := (List.range 64).map fun i =>
    let a := line * 64 + i
    if decide (va ≤ a) && decide (a < va + bs.length) && d.lsCovers a then some (bs.getD (a - va) 0#8) else none
  let mask := (List.zip (List.range 64) bytes).foldl (fun m x => if x.2.isSome then setBit m x.1 else m) 0
  if mask = 0 then 0
  else leNat ((sm3 (natLe 8 (line * 64) ++ natLe 8 mask ++ bytes.map (·.getD 0#8) ++ [BitVec.ofNat 8 (b2n poison)])).take 16)

/-- Does lock-step sign this context's stores in this stroke (R419, R420)? -/
def Dev.lsSigns (d : Dev) (c : Clock) (k : Nat) : Bool :=
  decide (d.v 0x7100 1 0 = 1) && decide (d.v 0x7100 2 0 = k) && decide (d.v 0x7100 5 0 ≤ c.stroke)

/-- Add a store to its signature. -/
def Dev.lsStore (d : Dev) (c : Clock) (w : Who) (va : Nat) (bs : List Byte) (poison : Bool) : Dev :=
  if !d.lsSigns c w.ctx then d
  else
    let h := (linesOf va bs.length).foldl (fun s l => s + d.lsHash l va bs poison) 0
    let old := SMap.get (fun _ => 0) d.ls.sums w.sig
    { d with ls := { d.ls with sums := SMap.put (fun _ => 0) d.ls.sums w.sig ((old + h) % 2 ^ 128) } }

/-! ### Requests to other devices (R262, R267, R268) -/

/-- GEID a frame's device has: of the module in a slot, its link offer's (R245); none where no link reaches it. -/
def Dev.frameGeid (d : Dev) : Frame → Option Nat
  | .here _ => some d.geid
  | .board s _ => (d.slotLink s).bind fun l => (d.linkPartner l).map (·.geid)
  | .gateway g _ => some g

/-- A frame's device as a key: a slot of the board, or a GEID. -/
def frameKey : Frame → Nat
  | .here _ => 0
  | .board s _ => 2 ^ 20 + s
  | .gateway g _ => g

/-- Record a request that has been sent. -/
def Dev.addReq (d : Dev) (r : Req) : Dev := { d with reqs := d.reqs ++ [{ r with id := d.reqNext }], reqNext := d.reqNext + 1 }

/-- Send a memory request to the device of a frame: the device after, and the request's number, or none where the target
cannot be reached (R267, R307). -/
def Dev.request (d : Dev) (c : Clock) (w : Who) (owner : ReqOwner) (f : Frame) (seq : Nat) (kind : MemReqKind) : Dev × Option Nat :=
  match d.frameGeid f with
  | none => (d.bump 0x80B0 7 0 1, none)
  | some g =>
    let e := d.takeE2e g
    let part := (d.ctx w.ctx).partition
    let x : Content := .memReq ⟨BitVec.ofNat 20 d.geid, Fin.ofNat 8 part, BitVec.ofNat 16 e.2, kind⟩
    let byGw := match f with
      | .board _ _ => false
      | _ => true
    let slot := match f with
      | .board s _ => s
      | _ => 0
    let sent := if byGw then e.1.sendTo c (some w.ctx) part g e.2 x else e.1.sendSlot c (some w.ctx) part slot g e.2 x
    if sent.2 then (sent.1.addReq ⟨0, owner, w.ctx, g, e.2, byGw, slot, x, false, seq⟩, some d.reqNext) else (sent.1, none)

/-! ### Gateways and bulk transfers (R268, R309) -/

/-- Bytes of a bulk transfer. -/
def bulkBytes (rs : List BulkRange) : Nat := rs.foldl (fun n r => n + r.data.length) 0

/-- Bytes of bulk transfers sent to a device by a gateway and not acknowledged. -/
def Dev.bulkOut (d : Dev) (h g : Nat) : Nat :=
  (d.sentBulks.filter fun b => b.hdie = h && b.dest = g).foldl (fun n b => n + b.bytes) 0

/-- Send the closed transfers that the windows of R309 allow. -/
def Dev.pumpBulks (d : Dev) (c : Clock) : Dev :=
  d.openBulks.foldl (fun d b =>
    let n := bulkBytes b.ranges
    if !b.closed || decide (262144 < d.bulkOut b.hdie b.dest + n)
        || (d.openBulks.any fun x => x.closed && x.hdie = b.hdie && x.dest = b.dest && decide (x.reqs.headD 0 < b.reqs.headD 0)) then d
    else
      let s := SMap.get (fun _ => 0) d.bulkNext b.dest
      let x : Content := .bulk ⟨BitVec.ofNat 20 d.geid, Fin.ofNat 8 b.partition, BitVec.ofNat 16 s, b.ranges⟩
      let e := d.takeE2e b.dest
      let d1 : Dev := { e.1 with openBulks := d.openBulks.filter (· != b)
                                 bulkNext := SMap.put (fun _ => 0) d.bulkNext b.dest ((s + 1) % 65536) }
      let sent := d1.sendTo c (some b.ctx) b.partition b.dest e.2 x
      if sent.2 then
        ({ sent.1 with sentBulks := sent.1.sentBulks ++ [⟨b.hdie, b.src, b.dest, s, e.2, b.ctx, n, b.reqs⟩] } : Dev).bump 0x8090 7 b.hdie n
      else ({ sent.1 with reqs := sent.1.reqs.filter fun r => !b.reqs.contains r.id } : Dev).raise b.ctx .targetUnreachable) d

/-- Close the open transfers that a test selects, and send what the windows allow (R268). -/
def Dev.closeBulks (d : Dev) (c : Clock) (p : OpenBulk → Bool) : Dev :=
  ({ d with openBulks := d.openBulks.map fun b => if p b then { b with closed := true } else b } : Dev).pumpBulks c

/-- Is a store contiguous with what a transfer holds? -/
def bulkJoins (rs : List BulkRange) (a : Nat) : Bool :=
  match rs.getLast? with
  | some r => decide (r.addr.toNat + r.data.length = a)
  | none => true

/-- A store handed to a gateway (R268): it joins the open transfer of its source and destination or opens another. A full
transfer closes. -/
def Dev.gatewayStore (d : Dev) (c : Clock) (w : Who) (owner : ReqOwner) (g a : Nat) (bs : List Byte) (poison : Bool) : Dev :=
  let id := d.reqNext
  let part := (d.ctx w.ctx).partition
  let rng : BulkRange := ⟨BitVec.ofNat 41 a, bs, poison⟩
  let d1 := d.addReq ⟨0, owner, w.ctx, g, 0, true, 0, .bulk ⟨BitVec.ofNat 20 d.geid, Fin.ofNat 8 part, 0#16, [rng]⟩, false, 0⟩
  let d2 := d1.closeBulks c fun b => b.src = w.src
    && (b.ctx != w.ctx || b.dest != g || !bulkJoins b.ranges a || decide (65536 < bulkBytes b.ranges + bs.length))
  let d3 : Dev := match d2.openBulks.find? fun b => !b.closed && b.src = w.src with
    | some b =>
      { d2 with openBulks := d2.openBulks.map fun x => if x = b then { b with ranges := b.ranges ++ [rng], reqs := b.reqs ++ [id] } else x }
    | none => { d2 with openBulks := d2.openBulks ++ [⟨w.src.hdie, w.src, g, w.ctx, part, [rng], [id], false⟩] }
  d3.closeBulks c fun b => b.src = w.src && decide (65536 ≤ bulkBytes b.ranges)

/-- Has the source stores on their way to a device through its gateway? A load to it waits for them (R261). -/
def Dev.gatewayBusy (d : Dev) (w : Who) (f : Frame) : Bool :=
  match f with
  | .gateway g _ => (d.openBulks.any fun b => b.src = w.src && b.dest = g) || d.sentBulks.any fun b => b.src = w.src && b.dest = g
  | _ => false

/-- A source that waits on completion closes its transfer (R268). -/
def Dev.closeFor (d : Dev) (c : Clock) (w : Who) : Dev := d.closeBulks c fun b => b.src = w.src

/-! ### Loads and stores of a context -/

/-- The frame that the next page brought in for a partition takes (R253): none where the reserve is empty, or its next
entry is poisoned or names a frame that may not be used. -/
def Dev.reserveNext (d : Dev) (p : Nat) : Option Nat :=
  let left := d.v (0x5300 + p) 3 0
  let a := d.v (0x5300 + p) 1 0 + 8 * (d.v (0x5300 + p) 2 0 - left)
  if left = 0 || !inCistern a 8 || d.mem.anyPoison a 8 then none
  else
    let f := d.mem.le a 8
    if f % 65536 = 0 && inShare (d.share p) f 65536 then some f else none

/-- Translate an access of a context (R249 to R253). A page that cannot be brought in is not permitted. -/
def Dev.locate (d : Dev) (k va : Nat) (store : Bool) : Except Bar Mapping :=
  let x := d.ctx k
  match walk d.mem (d.share x.partition) d.straps x.tableRoot va with
  | .denied => .error .denied
  | .absent _ _ =>
    if (d.reserveNext x.partition).isNone || d.badPages.contains (k, va % 2 ^ 48 / 65536) then .error .denied
    else .error (.absent (va % 2 ^ 48))
  | .mapped m => if store && !m.writable then .error .denied else .ok m

/-- The device address that a mapping gives a virtual address. -/
def Mapping.addr (m : Mapping) (va : Nat) : Nat :=
  (match m.frame with | .here a => a | .board _ a => a | .gateway _ a => a) + va % 2 ^ m.bits

/-- The pieces of [va, va + n), none across a 4 KiB boundary. `fuel` bounds their number. -/
def piecesAux : Nat → Nat → Nat → List (Nat × Nat)
  | 0, _, _ => []
  | f + 1, va, n => if n = 0 then [] else
    let k := min n (4096 - va % 4096)
    (va, k) :: piecesAux f (va + k) (n - k)

def pieces (va n : Nat) : List (Nat × Nat) := piecesAux (n / 4096 + 2) va n

/-- The far bytes that a load of [a, a + n) asks for: through a gateway a bulk read of the lines it needs (R268). -/
def readSpan (f : Frame) (a n : Nat) : Nat × Nat :=
  match f with
  | .gateway _ _ => (a / 64 * 64, alignUp (a + n) 64 - a / 64 * 64)
  | _ => (a, n)

/-- Load device bytes of a CLUSTER page for a core, through its cluster's caches; lines held need no cistern (R30). -/
def Dev.loadCached (d : Dev) (core a n : Nat) : Except Bar (List Byte × Bool) :=
  let ls := linesOf a n
  match ls.findSome? fun l => if (d.heldLine (core / 8) l).isSome then none else d.cisternBar (64 * l) 64 with
  | some b => .error b
  | none =>
    let xs := ls.map (d.clusterLine (core / 8))
    .ok (((xs.map (·.data)).flatten.drop (a % 64)).take n, xs.any (·.poison))

/-- The core whose caches serve an access: a core's own, on a CLUSTER page (R108). -/
def Who.cacheOf (w : Who) (m : Mapping) : Option Nat :=
  match w.src, m.attr with
  | .core c, .cluster => some c
  | _, _ => none

/-- Load one piece: the bytes and their poison (R241). Bytes of another device are those that have arrived. -/
def Dev.loadPiece (d : Dev) (w : Who) (va n : Nat) : Except Bar (List Byte × Bool) :=
  match d.locate w.ctx va false with
  | .error b => .error b
  | .ok m =>
    let a := m.addr va
    match m.frame with
    | .here _ =>
      match w.cacheOf m with
      | some co => d.loadCached co a n
      | none => match d.cisternBar a n with
        | some b => .error b
        | none => .ok (d.mem.read a n, d.mem.anyPoison a n)
    | f =>
      let sp := readSpan f a n
      match d.fetched.find? fun x => x.cmd = w.cmd && x.src = w.src && x.dest = frameKey f && x.addr = sp.1 && x.data.length = sp.2 with
      | some x => .ok ((x.data.drop (a - sp.1)).take n, x.poison)
      | none => .error (.remote f sp.1 sp.2)

/-- The caches after a core has loaded [va, va + n). -/
def Dev.loaded (d : Dev) (w : Who) (va n : Nat) : Dev :=
  (pieces va n).foldl (fun d p => match d.locate w.ctx p.1 false with
    | .ok m => match w.cacheOf m with
      | some co => d.cacheRead co (m.addr p.1) p.2
      | none => d
    | .error _ => d) d

/-- Load [va, va + n) for a context's unit. -/
def Dev.load (d : Dev) (w : Who) (va n : Nat) : Except Bar (List Byte × Bool) :=
  (pieces va n).foldl (fun r p => match r with
    | .error b => .error b
    | .ok (bs, poison) => match d.loadPiece w p.1 p.2 with
      | .error b => .error b
      | .ok x => .ok (bs ++ x.1, poison || x.2)) (.ok ([], false))

/-- A store counted as one that never reached its target (R267). -/
def Dev.unreachable (d : Dev) (k : Nat) : Dev := d.raise k .targetUnreachable

/-- Bytes that a source has fetched are as new as its own later stores (R260, R261). -/
def Dev.freshen (d : Dev) (w : Who) (f : Frame) (a : Nat) (bs : List Byte) (poison : Bool) : Dev :=
  { d with fetched := d.fetched.map fun x =>
      if x.src = w.src && x.dest = frameKey f && overlaps x.addr x.data.length a bs.length then
        { x with data := overlay x.addr x.data a bs, poison := overlayPoison x.addr x.data.length x.poison a bs.length poison }
      else x }

/-- Store one piece. -/
def Dev.storePiece (d : Dev) (c : Clock) (w : Who) (owner : ReqOwner) (va : Nat) (bs : List Byte) (poison : Bool) : Except Bar Dev :=
  match d.locate w.ctx va true with
  | .error b => .error b
  | .ok m =>
    let a := m.addr va
    let noted := fun (d : Dev) => (d.lsStore c w va bs poison).updCtx w.ctx fun x => { x with poisonWritten := x.poisonWritten || poison }
    match m.frame with
    | .here _ =>
      match d.cisternBar a bs.length with
      | some b => .error b
      | none =>
        let d1 := (d.storeDev w.ctx a bs poison).lsStore c w va bs poison
        .ok (match w.cacheOf m with
          | some co => d1.cacheStore co a bs poison
          | none => d1)
    | .gateway g dev => .ok (noted ((d.freshen w (.gateway g dev) a bs poison).gatewayStore c w owner g a bs poison))
    | .board s dev =>
      let r := (d.freshen w (.board s dev) a bs poison).request c w owner (.board s dev) 0 (.store (BitVec.ofNat 41 a) bs poison)
      .ok (noted (if r.2.isSome then r.1 else r.1.unreachable w.ctx))

/-- Store bytes at va for a context's unit; each piece carries the same poison. -/
def Dev.store (d : Dev) (c : Clock) (w : Who) (owner : ReqOwner) (va : Nat) (bs : List Byte) (poison : Bool) : Except Bar Dev :=
  (pieces va bs.length).foldl (fun r p => match r with
    | .error b => .error b
    | .ok d => d.storePiece c w owner p.1 ((bs.drop (p.1 - va)).take p.2) poison) (.ok d)

/-- Does what a queue command's unit writes carry poison (R412)? -/
def Dev.spoiled (d : Dev) (id : Nat) : Bool := (d.cmd id).any (·.spoiled)

/-- Store for a queue command's unit. -/
def Dev.unitStore (d : Dev) (c : Clock) (w : Who) (va : Nat) (bs : List Byte) (poison : Bool) : Except Bar Dev :=
  d.store c w (.unitStore w.cmd w.src) va bs (poison || d.spoiled w.cmd)

/-- Store a list of well-aligned writes, each with its own poison. -/
def Dev.unitStores (d : Dev) (c : Clock) (w : Who) (ws : List WellWrite) : Except Bar Dev :=
  ws.foldl (fun r x => match r with
    | .error b => .error b
    | .ok d => d.unitStore c w x.addr x.data x.poison) (.ok d)

/-! ### A unit of a queue command at work (R376) -/

/-- Stores of a command that are not acknowledged yet. -/
def Dev.storesOut (d : Dev) (id : Nat) : Bool := d.reqs.any fun r => match r.owner with
  | .unitStore k _ => decide (k = id)
  | _ => false

/-- Stores of a command among the requests numbered below `mark` that are not acknowledged. -/
def Dev.storesBefore (d : Dev) (id mark : Nat) : Bool := d.reqs.any fun r => decide (r.id < mark) && (match r.owner with
  | .unitStore k _ => decide (k = id)
  | _ => false)

/-- A SELECT's writes have retired: it is counted, and its sorter keeps nothing of it (R156, R163). -/
def Dev.selectRetired (d : Dev) (id : Nat) : Dev :=
  match (d.selects.find? fun r => r.cmd = id).bind (·.desc) with
  | some x => ({ d with selects := d.selects.filter fun r => r.cmd != id } : Dev).bump 0x8050 1 x.sorter 1
  | none => d

/-- A unit that has finished has done its work when its stores are acknowledged and its packers have sent everything
(R186, R262, R285). -/
def Dev.unitSettle (d : Dev) (id : Nat) : Dev :=
  match d.cmd id with
  | some x => if x.ran && !x.work && !d.storesOut id && d.packQueue.all (fun j => j.cmd != id) then (d.selectRetired id).cmdWork id
    else d
  | none => d

/-- A command's unit has finished: its gateway transfer closes (R268), and the bytes fetched for the command are dropped. -/
def Dev.unitDone (d : Dev) (c : Clock) (w : Who) : Dev :=
  let d1 := ({ d with fetched := d.fetched.filter fun x => x.cmd != w.cmd } : Dev).closeFor c w
  (d1.updCmd w.cmd fun q => { q with issued := true, ran := true }).unitSettle w.cmd

/-- What a bar does to a command's unit: a page to be brought in or a cistern not yet primed leaves it waiting (it runs
again when that has changed), remote bytes are asked for, and an access that is not permitted ends the command with `st`. -/
def Dev.unitBar (d : Dev) (c : Clock) (w : Who) (st : Status) (b : Bar) : Dev :=
  let d1 := d.cmdIssue w.cmd
  match b with
  | .absent _ => d1
  | .waits => d1
  | .denied => d1.cmdFault w.cmd w.ctx st 0
  | .remote f a n =>
    if d1.reqs.any fun r => decide (r.owner = .unitLoad w.cmd w.src) then d1
    else if d1.gatewayBusy w f then d1.closeFor c w
    else
      let r := d1.request c w (.unitLoad w.cmd w.src) f 0 (.load (BitVec.ofNat 41 a) (Fin.ofNat 4097 n))
      if r.2.isSome then r.1
      else
        let dead : Fetched := ⟨w.cmd, w.src, frameKey f, a, List.replicate n 0xFF#8, true⟩
        ({ r.1 with fetched := r.1.fetched ++ [dead] } : Dev).unreachable w.ctx

/-- Does the unit wait for remote bytes, or for its stores ahead of them? Otherwise all-ones bytes stand in (R267). -/
def Dev.asked (d : Dev) (w : Who) (f : Frame) : Bool := (d.reqs.any fun r => decide (r.owner = .unitLoad w.cmd w.src)) || d.gatewayBusy w f

/-- Run part of a unit's work, going on at once past remote bytes that cannot be reached; `fin` follows when all of it has
been done; `fuel` bounds the remote accesses. -/
def unitRunAux (c : Clock) (w : Who) (fin : Dev → Dev) (f : Dev → Except Bar Dev) : Nat → Dev → Dev
  | 0, d => d
  | n + 1, d =>
    match f d with
    | .ok d1 => fin d1
    | .error (.remote fr a k) =>
      let d1 := d.unitBar c w .memoryAccessFault (.remote fr a k)
      if d1.asked w fr then d1 else unitRunAux c w fin f n d1
    | .error b => d.unitBar c w .memoryAccessFault b

/-- A unit goes on step by step as far as it can, past remote bytes that cannot be reached: each step says who makes its
accesses, or that nothing is left to do; `fuel` bounds the steps. -/
def unitSteps (c : Clock) (step : Dev → Option (Who × Except Bar Dev)) : Nat → Dev → Dev
  | 0, d => d
  | f + 1, d =>
    match step d with
    | none => d
    | some (_, .ok d1) => unitSteps c step f d1
    | some (w, .error (.remote fr a n)) =>
      let d1 := d.unitBar c w .memoryAccessFault (.remote fr a n)
      if d1.asked w fr then d1 else unitSteps c step f d1
    | some (w, .error b) => d.unitBar c w .memoryAccessFault b

/-- The steps of a unit, as many as it can make (4,194,304 at most). -/
def Dev.unitGo (d : Dev) (c : Clock) (step : Dev → Option (Who × Except Bar Dev)) : Dev := unitSteps c step 4194304 d

/-- A command's unit runs: all its effects at once when every access can be made (log entry 14). -/
def Dev.unitRun (d : Dev) (c : Clock) (w : Who) (f : Dev → Except Bar Dev) : Dev :=
  unitRunAux c w (fun d => d.unitDone c w) f 65536 d

/-- As `unitRun`, for a part of a unit's work that does not finish it. -/
def Dev.unitPart (d : Dev) (c : Clock) (w : Who) (f : Dev → Except Bar Dev) : Dev := unitRunAux c w id f 65536 d

end Sys2Proof.Machine
end

