-- ==== Sys2Proof/Machine/Pools.lean ====
section
/-! DEFINITION. Bucket pools, handles, reference counts, float valves and handle queues: spec/10_buckets_valves.md R219 to
R235 and spec/09_pumps.md R205, R209. -/

namespace Sys2Proof.Machine

/-! ### Classes and handles (R219, R222) -/

/-- Bytes of a bucket of class c. -/
def classBytes (c : Nat) : Nat := 256 * 4 ^ c

/-- The smallest class that serves a request of `n` bytes; none for 0 bytes or more than 4 MiB. -/
def classFor (n : Nat) : Option Nat := if n = 0 then none else (List.range 8).find? fun c => decide (n ≤ classBytes c)

def handleClass (h : Nat) : Nat := fld h 31 29
def handleHdie (h : Nat) : Nat := fld h 28 28
def handleBucket (h : Nat) : Nat := fld h 27 0
def handleMake (c h b : Nat) : Nat := c * 2 ^ 29 + h * 2 ^ 28 + b
def nullHandle : Nat := 0xFFFFFFFF

/-- The pool of a partition, class and H-die (R220): its key, its base and its count. -/
def poolKey (p c h : Nat) : Nat := p * 16 + 2 * c + h
def Dev.poolBase (d : Dev) (p c h : Nat) : Nat := d.v (0x5200 + p) 1 (2 * c + h)
def Dev.poolCount (d : Dev) (p c h : Nat) : Nat := d.v (0x5200 + p) 2 (2 * c + h)

/-- A bucket's key: partition and handle. -/
def bucketKey (p h : Nat) : Nat := p * 2 ^ 32 + h

/-- Device address of a handle's bucket (R220). -/
def Dev.bucketAddr (d : Dev) (p h : Nat) : Nat :=
  d.poolBase p (handleClass h) (handleHdie h) + handleBucket h * classBytes (handleClass h)

/-- May a context use a handle (R223)? -/
def Dev.handleOk (d : Dev) (k h : Nat) : Bool :=
  let p := (d.ctx k).partition
  decide (h ≠ nullHandle) && decide (handleBucket h < d.poolCount p (handleClass h) (handleHdie h)) && (d.bucket (bucketKey p h)).isSome

/-! ### Allocation and counts (R225, R226) -/

/-- A manager's answer to a request. -/
inductive AllocRes where
  | tooLarge
  | empty
  | got (h : Nat)
deriving DecidableEq, Repr

/-- The next free bucket of a pool: the head of its free list, or the first never allocated (R224, log entry 15). -/
def Pool.next (q : Pool) (count : Nat) : Option (Nat × Pool) :=
  match q.freed with
  | b :: rest => some (b, { q with freed := rest })
  | [] => if q.fresh < count then some (q.fresh, { q with fresh := q.fresh + 1 }) else none

/-- Request `n` bytes for a context from an H-die's manager (R219, R225). -/
def Dev.alloc (d : Dev) (k n hd : Nat) : Dev × AllocRes :=
  match classFor n with
  | none => (d.raise k .bucketTooLarge, .tooLarge)
  | some c =>
    let p := (d.ctx k).partition
    match (d.pool (poolKey p c hd)).next (d.poolCount p c hd) with
    | none => (d.bump 0x8080 2 (32 * p + 2 * c + hd) 1, .empty)
    | some (b, q) =>
      let h := handleMake c hd b
      (((d.setPool (poolKey p c hd) q).setBucket (bucketKey p h) (some ⟨1, k⟩)).bump 0x8080 1 hd 1, .got h)

/-- A bucket goes back to its free list, unless it is out of service (R226, R235). -/
def Dev.freeBucket (d : Dev) (p h : Nat) : Dev :=
  let key := poolKey p (handleClass h) (handleHdie h)
  let q := d.pool key
  let d1 := d.setBucket (bucketKey p h) none
  if q.quarantined.contains (handleBucket h) then d1 else d1.setPool key { q with freed := handleBucket h :: q.freed }

/-- A release of one reference (R226), with HANDLE_INVALID where the handle is not usable (R223). -/
def Dev.release (d : Dev) (k h : Nat) : Dev :=
  if !d.handleOk k h then d.raise k .handleInvalid
  else
    let p := (d.ctx k).partition
    match d.bucket (bucketKey p h) with
    | none => d
    | some b => if b.count ≤ 1 then d.freeBucket p h else d.setBucket (bucketKey p h) (some { b with count := b.count - 1 })

/-- An add of `n` references (R226): the device after, and whether it was made. -/
def Dev.addRefs (d : Dev) (k h n : Nat) : Dev × Bool :=
  if !d.handleOk k h then (d.raise k .handleInvalid, false)
  else
    let key := bucketKey (d.ctx k).partition h
    match d.bucket key with
    | none => (d, false)
    | some b => if b.count + n > 65535 then (d.raise k .refcountOverflow, false)
      else (d.setBucket key (some { b with count := b.count + n }), true)

/-- A parity error in a pool manager's state about a bucket (R235): POOL_CHECK in its owner, and the bucket leaves service. -/
def Dev.poolCheck (d : Dev) (p h : Nat) : Dev :=
  let key := poolKey p (handleClass h) (handleHdie h)
  let q := d.pool key
  let d1 := if q.quarantined.contains (handleBucket h) then d
    else (d.setPool key { q with quarantined := handleBucket h :: q.quarantined }).bump 0x8080 5 0 1
  match d.bucket (bucketKey p h) with
  | some b => d1.raiseUncorrected b.owner .poolCheck .hdie (handleHdie h)
  | none => d1

/-- A release in which the manager may find a parity error about the bucket (R235). -/
def Dev.releaseFrom (d : Dev) (k h : Nat) (parity : Bool) : Dev :=
  (if parity && d.handleOk k h then d.poolCheck (d.ctx k).partition h else d).release k h

/-- Free every bucket a context owns (R227). -/
def Dev.freeOwned (d : Dev) (k : Nat) : Dev :=
  let own := d.buckets.filter fun kv => match kv.2 with | some b => decide (b.owner = k) | none => false
  own.foldl (fun d kv => (d.freeBucket (kv.1 / 2 ^ 32) (kv.1 % 2 ^ 32)).bump 0x8080 4 0 1) d

/-- Buckets of a pool now allocated (R239). -/
def Dev.bucketsInUse (d : Dev) (p c h : Nat) : Nat :=
  (d.buckets.filter fun kv => kv.1 / 2 ^ 32 = p && handleClass (kv.1 % 2 ^ 32) = c && handleHdie (kv.1 % 2 ^ 32) = h).length

/-! ### Float valves (R228 to R235) -/

/-- Is a valve usable by a context (R229)? -/
def Dev.valveUsable (d : Dev) (k v : Nat) : Bool := decide (d.clusterOwner (v / 512) = some (d.ctx k).partition)

/-- A context operates on a valve: VALVE_CHECK where the valve's count has had a parity error in the stroke (R235). -/
def Dev.valveTouch (d : Dev) (k v : Nat) (parityError : Bool) : Dev :=
  let d1 := if parityError && !d.valveBad.contains v then { d with valveBad := v :: d.valveBad } else d
  if d1.valveBad.contains v then d1.raiseUncorrected k .valveCheck .cluster (v / 512) else d1

/-- A wait that the valve's count satisfies is over: a WAIT_TAKE takes its count (R230). -/
def Dev.grantWait (d : Dev) (k v n : Nat) (take seen : Bool) : Dev :=
  let d1 := if seen then d else d.valveTouch k v false
  if take then d1.setValve v (d1.valve v - n) else d1

/-- Test the wait of a core's sequencer on a valve. -/
def Dev.serveCore (d : Dev) (v core : Nat) : Dev :=
  match (d.core core).valveWait, (d.core core).run with
  | some w, some r =>
    if w.valve != v || w.granted || d.valve v < w.count then d
    else (d.grantWait r.ctx v w.count w.take w.seen).updCore core fun co => { co with valveWait := some { w with granted := true } }
  | _, _ => d

/-- Test the wait of a queue command on a valve. -/
def Dev.servePend (d : Dev) (v : Nat) (w : PendWait) : Dev :=
  if w.valve != v || d.valve v < w.count then d
  else
    let d1 := (d.grantWait w.ctx v w.count w.take w.seen).updCmd w.cmd fun q => { q with waitDone := true }
    { d1 with valvePend := d1.valvePend.filter (· != w) }

/-- A valve tests its waits after a signal: the cores' in ascending number, then the queue commands' in the order in which
they became pending (R230). -/
def Dev.serveValve (d : Dev) (v : Nat) : Dev :=
  let d1 := (d.cores.map (·.1)).foldl (fun d core => d.serveCore v core) d
  d1.valvePend.foldl (fun d w => d.servePend v w) d1

/-- Add k to a valve, and test its waits (R230); `who` takes VALVE_OVERFLOW. -/
def Dev.addSignal (d : Dev) (who : Option Nat) (v n : Nat) : Dev :=
  let d1 := d.bump 0x8080 7 (v / 512) 1
  let d2 :=
    if d1.valve v + n > 4294967295 then
      let d2 := d1.setValve v 4294967295
      match who with
      | some k => d2.raise k .valveOverflow
      | none => d2.countStatus .valveOverflow
    else d1.setValve v (d1.valve v + n)
  d2.serveValve v

/-- A signal operation of a context on a local valve (R229 to R231, R388). -/
def Dev.signalOp (d : Dev) (k v n : Nat) : Dev :=
  if !d.valveUsable k v then d.raise k .valveAccessFault
  else if d.clusterFaulted (v / 512) then d.raise k .functionFaulted
  else (d.valveTouch k v false).addSignal (some k) v n

/-! ### Handle queues (R205, R209) -/

/-- Is a handle queue usable by a context now (R209)? -/
def Dev.queueUsable (d : Dev) (k q : Nat) : Bool :=
  decide (d.clusterOwner (q / 32) = some (d.ctx k).partition) && (match (d.hq q).bound with | none => true | some b => decide (b = k))

/-- The first push or pop of a stroke binds the queue. -/
def Dev.bindQueue (d : Dev) (k q : Nat) : Dev := d.setHq q { d.hq q with bound := some k }

/-- Push a handle; none where the queue is full. -/
def Dev.pushHandle (d : Dev) (k q h : Nat) : Option Dev :=
  if (d.hq q).handles.length ≥ 256 then none
  else some (d.setHq q { handles := (d.hq q).handles ++ [h], bound := some k })

/-- Pop a handle; none where the queue is empty. -/
def Dev.popHandle (d : Dev) (k q : Nat) : Option (Dev × Nat) :=
  match (d.hq q).handles with
  | [] => none
  | h :: rest => some (d.setHq q { handles := rest, bound := some k }, h)

/-- Empty and unbind every queue at a turnover, releasing each handle once (R209). A queue's handles belong to the
partition of its cluster. -/
def Dev.clearQueues (d : Dev) : Dev :=
  d.hqueues.foldl (fun d kv =>
    let k := kv.2.bound.getD 0
    let d1 := kv.2.handles.foldl (fun d h =>
      (if d.handleOk k h then d.release k h else d).bump 0x8070 8 (kv.1 / 32) 1) d
    d1.setHq kv.1 {}) d

/-- Release every handle register at a turnover (R238). -/
def Dev.clearHregs (d : Dev) (k : Nat → Nat) : Dev :=
  d.cores.foldl (fun d kv =>
    let d1 := kv.2.hregs.foldl (fun d r => (if d.handleOk (k kv.1) r.2 then d.release (k kv.1) r.2 else d).bump 0x8080 6 kv.1 1) d
    d1.updCore kv.1 fun c => { c with hregs := [] }) d

end Sys2Proof.Machine
end

