-- ==== Sys2Proof/Machine/Commands.lean ====
section
/-! DEFINITION. Queue commands: the envelope, eligibility, issue, signals and completion (spec/16_control.md R376 to R378;
spec/10_buckets_valves.md R230 to R232), and what the symbol code and the cache parity find (spec/18_faults.md R406, R408). -/

namespace Sys2Proof.Machine

/-! ### The envelope (R377) -/

def envOp (e : Nat) : Nat := fld e 511 504
def envStrokeEnd (e : Nat) : Bool := bit e 503
def envBarrier (e : Nat) : Bool := bit e 502
def envTag (e : Nat) : Nat := fld e 479 448
def envWaitMode (e : Nat) : Nat := fld e 447 446
def envWaitValve (e : Nat) : Nat := fld e 445 432
def envWaitCount (e : Nat) : Nat := fld e 431 400
def envSigEn (e : Nat) : Bool := bit e 399
def envSigRemote (e : Nat) : Bool := bit e 398
def envSigValve (e : Nat) : Nat := fld e 397 384
def envSigGeid (e : Nat) : Nat := fld e 383 364
def envSigCount (e : Nat) : Nat := fld e 363 332
def envPayload (e : Nat) : Nat := fld e 255 0

/-- The opcodes of R377. -/
def envOpKnown (o : Nat) : Bool := (decide (1 ≤ o) && decide (o ≤ 0x0B)) || o = 0x10 || o = 0x11

/-- Payload bits that the opcode leaves unused are zero. The inline descriptors of RETURN, COMBINE and ATOMIC are checked
by their own rules. -/
def envPayloadOk (e : Nat) : Bool :=
  let p := envPayload e
  match envOp e with
  | 0x01 => fld p 247 48 = 0
  | 0x02 | 0x03 | 0x06 | 0x07 | 0x09 => fld p 255 48 = 0
  | 0x0A => fld p 255 6 = 0
  | 0x0B | 0x11 => p = 0
  | 0x10 => fld p 170 0 = 0
  | _ => true

/-- The rules of R377 that an envelope alone decides. A plan address that is not a multiple of 64 is refused with them
(log entry 16). -/
def envOk (e : Nat) : Bool :=
  envOpKnown (envOp e) && fld e 501 480 = 0 && fld e 331 256 = 0 && decide (envWaitMode e ≤ 2) && envPayloadOk e
    && (!envSigEn e || envSigCount e != 0) && (envSigRemote e || envSigGeid e = 0)
    && (envSigEn e || (!envSigRemote e && envSigValve e = 0 && envSigGeid e = 0 && envSigCount e = 0))
    && (envWaitMode e != 0 || (envWaitValve e = 0 && envWaitCount e = 0))
    && (envOp e != 0x01 || fld (envPayload e) 47 0 % 64 = 0)

/-! ### Eligibility and issue (R376) -/

/-- The queue's next command to issue. -/
def Dev.nextCmd (d : Dev) (q : Nat) : Option QCmd := d.inForce.find? fun x => x.q = q && !x.issued

/-- With BARRIER, every earlier command of the queue in the stroke has completed. -/
def Dev.barrierOk (d : Dev) (x : QCmd) : Bool :=
  !envBarrier x.env || (d.inForce.takeWhile fun y => y != x).all fun y => y.q != x.q || y.completed

/-- What the envelope and its wait valve decide before a command may run. -/
inductive Gate where
  | invalid (st : Status)
  | wait
  | pend        -- it waits on its valve alone
  | run
deriving DecidableEq, Repr

/-- R376, R377, R388: is the queue's next command invalid, waiting or eligible? A PLAN names a core of CLUSTERS. -/
def Dev.gate (d : Dev) (x : QCmd) : Gate :=
  let e := x.env
  if x.poison || !envOk e || envOp e = 0x10
      || (envOp e = 0x01 && !bit (d.ctx x.ctx).clusters (fld (envPayload e) 255 248 / 8)) then .invalid .commandInvalid
  else if envWaitMode e != 0 && !d.valveUsable x.ctx (envWaitValve e) then .invalid .valveAccessFault
  else if envWaitMode e != 0 && d.clusterFaulted (envWaitValve e / 512) then .invalid .functionFaulted
  else if !d.barrierOk x then .wait
  else if envWaitMode e != 0 && !x.waitDone && decide (d.valve (envWaitValve e) < envWaitCount e) then .pend
  else .run

/-- The wait of an eligible command is satisfied: WAIT_TAKE takes its count (R230), if a signal has not given it already. -/
def Dev.takeWait (d : Dev) (x : QCmd) : Dev :=
  if x.waitDone || envWaitMode x.env = 0 then d
  else d.grantWait x.ctx (envWaitValve x.env) (envWaitCount x.env) (envWaitMode x.env != 1) false

/-- A command that waits on its valve alone becomes pending there; it operates on the valve from then on (R230, R235). -/
def Dev.pendWait (d : Dev) (x : QCmd) : Dev :=
  if d.valvePend.any fun w => w.cmd = x.id then d
  else
    let v := envWaitValve x.env
    let d1 := d.valveTouch x.ctx v false
    { d1 with valvePend := d1.valvePend ++ [⟨x.id, x.ctx, v, envWaitCount x.env, envWaitMode x.env != 1, d1.valveBad.contains v⟩] }

/-- A queue command of opcode `op` issues when it is its queue's next and eligible, and its unit does `f`. An envelope that
breaks R377 completes with its status, whichever command it spells. -/
def Dev.issueCmd (d : Dev) (c : Clock) (q op : Nat) (f : Dev → QCmd → Dev) : Dev :=
  if c.stage != .work then d
  else
    match d.nextCmd q with
    | none => d
    | some x =>
      if !d.mayRun x.ctx then d
      else
        match d.gate x with
        | .invalid st => d.cmdFault x.id x.ctx st 0
        | .wait => d
        | .pend => d.pendWait x
        | .run => if envOp x.env != op then d else f ((d.takeWait x).cmdIssue x.id) x

/-- Who a queue command is where no unit does its work: a source of its own, device signature (R260, R268, R420). Its
descriptor is read so too. -/
def whoCmd (x : QCmd) : Who := ⟨x.ctx, x.id, .command x.id, 32⟩

/-! ### Completion (R376, R378) -/

/-- May a JOB_END complete (R378)? -/
def Dev.jobEndOk (d : Dev) (x : QCmd) : Bool :=
  ((d.inForce.takeWhile fun y => y != x).all fun y => y.q != x.q || y.completed)
    && d.inForce.all fun y => y.q = x.q || y.ctx != x.ctx || envOp y.env = 0x11 || y.completed

/-- The command has completed; a ROUND is counted (R190). -/
def Dev.cmdDone (d : Dev) (id : Nat) : Dev :=
  let d1 := d.updCmd id fun q => { q with completed := true }
  if (d.cmd id).any fun q => decide (envOp q.env = 3) then d1.bump 0x8060 1 0 1 else d1

/-- A command that has done its work makes its signal and completes (R376). -/
def Dev.completeCmd (d : Dev) (c : Clock) (id : Nat) : Dev :=
  match d.cmd id with
  | none => d
  | some x =>
    if !x.work || x.completed then d
    else if envOp x.env = 0x11 && !d.jobEndOk x then d
    else if x.status.isSome || !envSigEn x.env then d.cmdDone id
    else if envSigRemote x.env then
      if x.sigSent then d
      else
        let r := d.request c (whoCmd x) (.cmdSignal id) (.gateway (envSigGeid x.env) 0) 0
          (.signal (Fin.ofNat 16384 (envSigValve x.env)) (BitVec.ofNat 32 (envSigCount x.env)))
        if r.2.isSome then r.1.updCmd id fun q => { q with sigSent := true }
        else r.1.cmdFault id x.ctx .targetUnreachable 0
    else if !d.valveUsable x.ctx (envSigValve x.env) then d.cmdFault id x.ctx .valveAccessFault 0
    else if d.clusterFaulted (envSigValve x.env / 512) then d.cmdFault id x.ctx .functionFaulted 0
    else (((d.valveTouch x.ctx (envSigValve x.env) false).addSignal (some x.ctx) (envSigValve x.env) (envSigCount x.env))).cmdDone id

/-! ### Findings of the symbol code and the cache parity (R406, R408) -/

/-- The core whose well holds an address above cistern memory. -/
def wellCore (a : Nat) : Nat := (a - cisternEnd) / 0x800000

/-- One finding of the symbol code counted: in a cistern, or in a well. -/
def Dev.eccCount (d : Dev) (f : EccFinding) (a : Nat) : Dev :=
  if inCistern a 64 then d.bump 0x80F0 (if f.uncorrectable then 2 else 1) (d.cisternOf a) 1
  else d.bump 0x80F0 (if f.uncorrectable then 4 else 3) (wellCore a) 1

/-- A line of memory becomes poisoned. -/
def Dev.poisonLine (d : Dev) (l : Nat) : Dev := { d with mem := d.mem.setPoison l true }

/-- One finding of a read made for a context, or for none (R406, R410). -/
def Dev.eccOne (d : Dev) (c : Clock) (k : Option Nat) (f : EccFinding) : Dev :=
  let a := f.line * 64
  if !memExists a then d
  else if !f.uncorrectable then d.eccCount f a
  else
    match k with
    | some x => ((d.eccCount f a).poisonLine f.line).uncorrected x
    | none => ((d.eccCount f a).poisonLine f.line).tickFree.logStatus c 9 (freeStatus d.freeCtr) (Config.freeChoice d.freeCtr % 4) a
        .cistern (d.cisternOf a)

def Dev.eccAll (d : Dev) (c : Clock) (k : Option Nat) (fs : List EccFinding) : Dev := fs.foldl (fun d f => d.eccOne c k f) d

/-- What a queue command's reads find, attributed to its context: findings of the codes, and a parity error in the state that
holds it, with which it completes, its results poisoned (R406, R410, R412). -/
def Dev.seenBy (d : Dev) (c : Clock) (x : QCmd) (r : CmdRead) : Dev :=
  let d1 := d.eccAll c (some x.ctx) r.ecc
  if r.controlParity then (d1.raiseUncorrected x.ctx .controlCheck .none 0).updCmd x.id fun y => { y with spoiled := true } else d1

/-- A queue command that reads memory issues, with what its reads find. -/
def Dev.issueRead (d : Dev) (c : Clock) (r : CmdRead) (op : Nat) (f : Dev → QCmd → Dev) : Dev :=
  d.issueCmd c r.q.val op fun d x => f (d.seenBy c x r) x

/-- Cache lines of a cluster fetched again after a parity error (R408). -/
def Dev.refetched (d : Dev) (cl n : Nat) : Dev := if n = 0 then d else d.bump 0x80F0 5 cl n

end Sys2Proof.Machine
end

