-- ==== Sys2Proof/Machine/Streams.lean ====
section
/-! DEFINITION. Stream descriptors: spec/09_pumps.md R193 to R196. -/

namespace Sys2Proof.Machine

def sdState (d : Nat) : Nat := fld d 487 486
def sdRemaining (d : Nat) : Nat := fld d 485 446
def sdLastFlag (d : Nat) : Bool := bit d 445
def sdFreeSrc (d : Nat) : Bool := bit d 444
def sdQDstEn (d : Nat) : Bool := bit d 443
def sdQDst (d : Nat) : Nat := fld d 442 433
def sdQSrcEn (d : Nat) : Bool := bit d 432
def sdQSrc (d : Nat) : Nat := fld d 431 422
def sdOut (d : Nat) : Bool := fld d 421 420 = 1
/-- E: bytes of one element. -/
def sdE (d : Nat) : Nat := fld d 419 414 + 1
def sdWellAddr (d : Nat) : Nat := fld d 390 368
/-- N0 to N4. -/
def sdN (d i : Nat) : Nat := fld d (271 + 24 * i) (248 + 24 * i) + 1
def sdStride (d i : Nat) : Int := signed 40 (fld d (87 + 40 * i) (48 + 40 * i))
def sdStart (d : Nat) : Nat := fld d 47 0

/-- N of R194. -/
def sdTotal (d : Nat) : Nat := sdN d 0 * sdN d 1 * sdN d 2 * sdN d 3 * sdN d 4

/-- WS of R194. -/
def sdWellStride (d : Nat) : Nat :=
  let w := fld d 413 391
  if w = 0 then sdN d 0 * sdE d else w

/-- idx[k] of element `i` (R194). -/
def sdIdx (d i k : Nat) : Nat :=
  ((List.range k).foldl (fun r j => r / sdN d j) i) % sdN d k

/-- The memory side of place(i), before the reduction mod 2^48 (R194). -/
def sdMemInt (d i : Nat) : Int :=
  (List.range 5).foldl (fun a k => a + (sdIdx d i k : Int) * sdStride d k) (sdStart d : Int)

/-- The virtual address of element i. -/
def sdMem (d i : Nat) : Nat := wrapInt 48 (sdMemInt d i)

/-- The row of element i (R194). -/
def sdRow (d i : Nat) : Nat :=
  sdIdx d i 1 + sdN d 1 * (sdIdx d i 2 + sdN d 2 * (sdIdx d i 3 + sdN d 3 * sdIdx d i 4))

/-- The well address of element i (R194). -/
def sdWell (d i : Nat) : Nat := sdWellAddr d + sdIdx d i 0 * sdE d + sdRow d i * sdWellStride d

/-- Bytes of the well the stream touches: lowest address and length up to the highest. -/
def sdWellRange (d : Nat) : Nat × Nat :=
  (sdWellAddr d, (sdTotal d / sdN d 0 - 1) * sdWellStride d + sdN d 0 * sdE d)

/-- Highest byte offset that an element of a bucket stream reaches, plus one. -/
def sdBucketBytes (d : Nat) : Nat :=
  ((List.range 5).foldl (fun a k => a + ((sdN d k - 1 : Nat) : Int) * sdStride d k) (sdStart d : Int)).toNat + sdE d

/-- The checks of R195 that the descriptor alone decides. FREE_SRC is accepted with DIR IN where Q_SRC_EN is set, as R193
and R207 have it, against R195's list (DESIGN CHOICE, log entry 102). -/
def sdOk (d : Nat) : Bool :=
  let g := pow2AtLeast (sdE d)
  let ws := fld d 413 391
  let bucket := sdQSrcEn d || sdQDstEn d
  let strides := (List.range 5).map (sdStride d)
  fld d 511 488 = 0 && decide (fld d 421 420 ≤ 1) && sdState d = 0 && sdRemaining d = 0
    && decide (sdTotal d < 2 ^ 40)
    && sdStart d % g = 0 && strides.all (fun s => decide (s % (g : Int) = 0))
    && (ws = 0 || decide (sdN d 0 * sdE d ≤ ws))
    && decide ((sdWellRange d).1 + (sdWellRange d).2 ≤ wellBytes)
    && (sdOut d || (!sdLastFlag d && !sdQDstEn d)) && !(sdFreeSrc d && (sdOut d || !sdQSrcEn d)) && !(sdOut d && sdQSrcEn d)
    && (!bucket || (strides.all (fun s => decide (0 ≤ s)) && decide (sdBucketBytes d ≤ 2 ^ 22)))

/-- A descriptor with STATE and REMAINING written (R210, R211). -/
def sdWithState (d st remaining : Nat) : Nat :=
  d - fld d 487 446 * 2 ^ 446 + (st * 2 ^ 40 + remaining) * 2 ^ 446

/-- A STREAM body (R196). -/
structure StreamBody where
  sop : Nat
  channel : Nat
  prev : Option Nat
  next : Option Nat
  valve : Option Nat
  descAddr : Nat
  /-- Reserved bits, and a channel, PREV or NEXT encoding that the body's rules allow. -/
  ok : Bool
deriving DecidableEq, Repr

/-- PREV and NEXT: bit 8 set means none (R196). -/
def relayCore (f : Nat) : Option Nat := if f ≥ 256 then none else some f

/-- R196 asks an ARM too for a PREV and NEXT of none, where R212 promotes an ARM that names one as a RELAY: the model takes
R212 (DESIGN CHOICE, log entry 101). -/
def StreamBody.ofBody (w : Nat) : StreamBody :=
  let prev := relayCore (fld w 247 239)
  let next := relayCore (fld w 238 230)
  let sop := fld w 255 252
  { sop := sop, channel := fld w 251 248, prev := prev, next := next
    valve := if bit w 229 then some (fld w 228 215) else none
    descAddr := fld w 47 0
    ok := decide (1 ≤ sop) && decide (sop ≤ 3) && fld w 214 48 = 0 && fld w 47 0 % 64 = 0
      && (sop != 1 || (prev.isNone && next.isNone)) }

end Sys2Proof.Machine
end

