-- ==== Sys2Proof/Machine/Vector.lean ====
section
/-! DEFINITION. The vector engine: spec/05_core.md R105 to R107, arithmetic by spec/03_numerics.md R53, R64, R65. -/

namespace Sys2Proof.Machine

/-- A VECTOR_OP (R105). -/
structure VectorOp where
  vop : Nat
  fmtIn : Nat
  fmtOut : Nat
  rsvd : Nat
  sr : Bool
  stream : Nat
  indexBase : Nat
  a : Nat
  b : Nat
  c : Nat
  dst : Nat
  count : Nat
  imm : Nat
deriving DecidableEq, Repr

/-- The fields of R105; `rsvd` joins both reserved fields. -/
def VectorOp.ofBody (w : Nat) : VectorOp :=
  { vop := fld w 255 248, fmtIn := fld w 247 244, fmtOut := fld w 243 240, rsvd := fld w 239 238 + fld w 31 0,
    sr := bit w 237, stream := fld w 236 213, indexBase := fld w 212 173, a := fld w 172 150, b := fld w 149 127,
    c := fld w 126 104, dst := fld w 103 81, count := fld w 80 64, imm := fld w 63 32 }

/-- Operands an operation reads beside A: 0 none, 1 B, 2 B and C (R106). -/
def vectorArity (vop : Nat) : Nat :=
  if vop = 4 then 2 else if (1 ≤ vop && vop ≤ 3) || (5 ≤ vop && vop ≤ 7) then 1 else 0

/-- The named operation codes (R106). -/
def vopKnown (vop : Nat) : Bool :=
  decide (vop ≤ 8) || (decide (0x10 ≤ vop) && decide (vop ≤ 0x18)) || vop = 0x20 || vop = 0x21
    || (decide (0x28 ≤ vop) && decide (vop ≤ 0x2B))

/-- Scaling code of a QUANT or DEQUANT operation: OCP or fine; 0 for the others. -/
def vopScaling (vop : Nat) : Nat :=
  if vop = 0x28 || vop = 0x2A then 1 else if vop = 0x29 || vop = 0x2B then 2 else 0

def vopIsQuant (vop : Nat) : Bool := vop = 0x28 || vop = 0x29
def vopIsDequant (vop : Nat) : Bool := vop = 0x2A || vop = 0x2B
def vopIsReduce (vop : Nat) : Bool := vop = 0x20 || vop = 0x21

/-- The FP32 result of one element, before its conversion into FMT_OUT, with flags (R64, R106). -/
def vectorFn (vop imm a b c : Nat) : Nat × Nat :=
  match vop with
  | 0x00 => (a, 0)
  | 0x01 => f32Add a b
  | 0x02 => f32Sub a b
  | 0x03 => f32Mul a b
  | 0x04 => f32Fma a b c
  | 0x05 => f32Min a b
  | 0x06 => f32Max a b
  | 0x07 => (if Fp.lt (f32 a) (f32 b) then f32One else 0, if (f32 a).isNan || (f32 b).isNan then flagNan else 0)
  | 0x08 => f32Mul a imm
  | 0x10 => f32Exp2 a
  | 0x11 => f32Exp a
  | 0x12 => f32Log2 a
  | 0x13 => f32Log a
  | 0x14 => f32Rcp a
  | 0x15 => f32Sqrt a
  | 0x16 => f32Rsqrt a
  | 0x17 => f32Tanh a
  | 0x18 => f32Sigmoid a
  | _ => (a, 0)

/-- Convert an FP32 result into FMT_OUT (R53, R54, R107): `i` is the element's number within the operation. -/
def vectorOut (op : VectorOp) (seed i v : Nat) : Nat × Nat :=
  if op.fmtOut = 0 then (v, 0)
  else fmtEncode op.fmtOut (roundingOf op.sr seed op.stream ((op.indexBase + i) % 2 ^ 40)) (f32 v)

/-- Operand ranges read and result ranges written (R106). -/
def vectorRanges (op : VectorOp) : List (Nat × Nat) × List (Nat × Nat) :=
  let n := packedBytes op.fmtIn op.count
  let sc := if vopScaling op.vop = 0 then 0 else op.count / blockSize (vopScaling op.vop)
  let rd := (op.a, n) :: ((if 1 ≤ vectorArity op.vop then [(op.b, n)] else []) ++ (if vectorArity op.vop = 2 then [(op.c, n)] else [])
    ++ (if vopIsDequant op.vop then [(op.c, sc)] else []))
  let wr := (op.dst, packedBytes op.fmtOut (if vopIsReduce op.vop then 1 else op.count))
    :: (if vopIsQuant op.vop then [(op.c, sc)] else [])
  (rd, wr)

/-- The status that rejects an operation, if any (R105, R106, R49). -/
def vectorReject (op : VectorOp) : Option Status :=
  let sc := vopScaling op.vop
  let rg := vectorRanges op
  if decide (0xB ≤ op.fmtIn) || decide (0xA ≤ op.fmtOut) then some .formatInvalid
  else if !vopKnown op.vop || op.rsvd != 0 || op.count = 0 then some .vectorOpInvalid
  else if sc != 0 && (op.count % blockSize sc != 0 || !pairOk (if vopIsQuant op.vop then op.fmtOut else op.fmtIn) sc) then some .formatInvalid
  else if !((rg.1 ++ rg.2).all fun r => inWell r.1 r.2) then some .vectorOpInvalid
  else none

/-- The A operand widened to FP32, with flags (R105); a DEQUANT reads it with the scales at C_ADDR (R50, R51, R458). -/
def vectorA (mem : Memory) (base : Nat) (op : VectorOp) (i : Nat) : Nat × Nat :=
  let code := elemAt mem (base + op.a) op.fmtIn i
  if vopIsDequant op.vop then
    let sc := vopScaling op.vop
    scaledToF32 op.fmtIn sc op.imm (mem.byte (base + op.c + i / blockSize sc)).toNat code
  else widen op.fmtIn code

/-- Is the line of element `i` of a run poisoned? -/
def elPoison (mem : Memory) (a fmt i : Nat) : Bool :=
  mem.anyPoison (a + fmtBits fmt * i / 8) (ceilDiv (fmtBits fmt * i % 8 + fmtBits fmt) 8)

/-- Poison of result element `i` of an elementwise operation (R104). -/
def vectorPoison (mem : Memory) (base : Nat) (op : VectorOp) (i : Nat) : Bool :=
  elPoison mem (base + op.a) op.fmtIn i
    || (decide (1 ≤ vectorArity op.vop) && elPoison mem (base + op.b) op.fmtIn i)
    || (vectorArity op.vop = 2 && elPoison mem (base + op.c) op.fmtIn i)
    || (vopIsDequant op.vop && mem.poisoned (base + op.c + i / blockSize (vopScaling op.vop)))

/-- The byte that keeps the spare bits of a packed run of `n` elements at `a`. -/
def spareByte (mem : Memory) (a fmt n : Nat) : Byte := mem.byte (a + packedBytes fmt n - 1)

/-- An elementwise operation (R106). -/
def vectorMap (mem : Memory) (base seed : Nat) (op : VectorOp) : List WellWrite × Nat :=
  let rs := (List.range op.count).map fun i =>
    let a := vectorA mem base op i
    let b := if 1 ≤ vectorArity op.vop then widen op.fmtIn (elemAt mem (base + op.b) op.fmtIn i) else (0, 0)
    let c := if vectorArity op.vop = 2 then widen op.fmtIn (elemAt mem (base + op.c) op.fmtIn i) else (0, 0)
    let v := vectorFn op.vop op.imm a.1 b.1 c.1
    let o := vectorOut op seed i v.1
    (o.1, lor (lor (lor a.2 b.2) (lor c.2 v.2)) o.2)
  (writeByLine op.dst (packElems op.fmtOut (spareByte mem (base + op.dst) op.fmtOut op.count) (rs.map (·.1)))
     (fmtBits op.fmtOut) op.count (vectorPoison mem base op),
   rs.foldl (fun f r => lor f r.2) 0)

/-- RSUM and RMAX (R65, R106): one element. -/
def vectorReduce (mem : Memory) (base seed : Nat) (op : VectorOp) : List WellWrite × Nat :=
  let xs := (List.range op.count).map fun i => vectorA mem base op i
  let v := if op.vop = 0x20 then treeSum (xs.map (·.1))
    else match xs with
      | [] => (0, 0)
      | x :: rest => rest.foldl (fun m y => let r := f32Max m.1 y.1; (r.1, lor m.2 r.2)) (x.1, 0)
  let o := vectorOut op seed 0 v.1
  ([⟨op.dst, packElems op.fmtOut (spareByte mem (base + op.dst) op.fmtOut 1) [o.1],
     mem.anyPoison (base + op.a) (packedBytes op.fmtIn op.count)⟩],
   lor (xs.foldl (fun f x => lor f x.2) (lor v.2 o.2)) 0)

/-- QUANT_MX and QUANT_FINE (R52, R106): elements at DST, one scale byte per block at C_ADDR. -/
def vectorQuant (mem : Memory) (base seed k : Nat) (op : VectorOp) : List WellWrite × Nat :=
  let bs := blockSize (vopScaling op.vop)
  let xs := (List.range op.count).map fun i => vectorA mem base op i
  let bl := (List.zip (List.range (op.count / bs)) (chunks bs (xs.map (·.1)))).map fun (j, vals) =>
    let r := fun i => roundingOf op.sr seed op.stream ((op.indexBase + i) % 2 ^ 40)
    if op.vop = 0x28 then quantOcp op.fmtOut r (j * bs) vals else quantFine op.fmtOut op.imm k r (j * bs) vals
  let blockPz := fun j => mem.anyPoison (base + op.a + fmtBits op.fmtIn * (j * bs) / 8) (packedBytes op.fmtIn bs)
  let nBlocks := op.count / bs
  (writeByLine op.dst (packElems op.fmtOut (spareByte mem (base + op.dst) op.fmtOut op.count) (bl.map fun b => b.2.1).flatten)
      (fmtBits op.fmtOut) op.count (fun i => blockPz (i / bs))
    ++ writeByLine op.c (bl.map fun b => BitVec.ofNat 8 b.1) 8 nBlocks blockPz,
   lor (xs.foldl (fun f x => lor f x.2) 0) (bl.foldl (fun f b => lor f b.2.2) 0))

/-- Issue a VECTOR_OP (R105 to R107), on occasion `k` of undefined values. -/
def vectorIssue (mem : Memory) (core seed k : Nat) (op : VectorOp) : Except Status EngOut :=
  match vectorReject op with
  | some st => .error st
  | none =>
    let base := wellBase core
    let rg := vectorRanges op
    let r := if vopIsReduce op.vop then vectorReduce mem base seed op
      else if vopIsQuant op.vop then vectorQuant mem base seed k op
      else vectorMap mem base seed op
    .ok { EngOut.start with rd := boundRange rg.1, wr := boundRange rg.2, writes := r.1, nflags := r.2 }

end Sys2Proof.Machine
end

