-- ==== Sys2Proof/Machine/Plans.lean ====
section
/-! DEFINITION. Stroke plans: the instruction, its fetch, its place in the plan, rejection and the end of a plan
(spec/05_core.md R93 to R98, R101; spec/15_contexts.md R347). -/

namespace Sys2Proof.Machine

/-! ### Instructions (R94) -/

/-- One sequencer instruction. `ok` says that its header and body keep R94. -/
structure SeqInstr where
  op : Nat
  stealable : Bool
  itemStart : Bool
  arg : Nat
  body : Nat
  ok : Bool
deriving DecidableEq, Repr

/-- Opcodes whose body column reads "none". -/
def seqBodyless (op : Nat) : Bool := op = 0 || op = 6 || op = 7 || op = 0x0F

/-- An instruction of 40 bytes: header, then body. -/
def SeqInstr.ofBytes (bs : List Byte) : SeqInstr :=
  let h := leNat (bs.take 8)
  let body := leNat (bs.drop 8)
  let op := fld h 63 56
  let arg := fld h 47 0
  { op := op, stealable := bit h 49, itemStart := bit h 48, arg := arg, body := body
    ok := (decide (op ≤ 7) || op = 0x0F) && fld h 55 50 = 0 && (if op = 6 then arg ≤ 1 else arg = 0)
      && (!seqBodyless op || body = 0) }

/-- The core's home H-die (R19). -/
def homeHdie (core : Nat) : Nat := clusterHdie (core / 8)

/-- The number under which a core's plan fetch asks for remote bytes. -/
def seqKey (core : Nat) : Nat := 2 ^ 41 + core

/-- Who a core's sequencer is: stores of an item count for the core whose plan holds it (R420). -/
def whoSeq (core : Nat) (r : PlanRun) : Who := ⟨r.ctx, seqKey core, .core core, r.owner.getD core / 8⟩

/-- What the sequencer finds at its position. -/
inductive SeqNext where
  | none
  | bar (b : Bar)
  | poison
  | got (i : SeqInstr)
deriving DecidableEq, Repr

/-- Fetch the instruction at position `pc` of a plan (R93, R461). Caches work on in a refresh slot (R30). -/
def Dev.seqAt (d : Dev) (w : Who) (va pc : Nat) : SeqNext :=
  match d.load w ((va + 40 * pc) % 2 ^ 48) 40 with
  | .error b => .bar b
  | .ok (bs, poison) => if poison then .poison else .got (SeqInstr.ofBytes bs)

/-- The next instruction of the plan that runs on a core. -/
def Dev.seqNext (d : Dev) (core : Nat) (r : PlanRun) : SeqNext :=
  if r.ended then .none else d.seqAt (whoSeq core r) r.va r.pc

/-! ### Position, items and the end of a plan (R95, R101, R347) -/

/-- The position behind items that other cores have taken; `taken` bounds the steps. -/
def skipTaken : List (Nat × Nat) → Nat → Nat
  | [], pc => pc
  | t :: ts, pc => skipTaken ts (if pc = t.1 then t.2 else pc)

/-- Taken items in ascending order. -/
def sortTaken (ts : List (Nat × Nat)) : List (Nat × Nat) := sortBy (fun a b => decide (a.1 < b.1)) ts

/-- The plan moves to position `pc`. -/
def PlanRun.moveTo (r : PlanRun) (pc : Nat) : PlanRun :=
  let pc := skipTaken (sortTaken r.taken) pc
  { r with pc := pc, ended := r.ended || decide (r.stopAt = some pc) }

/-- Has everything that the plan's instructions started on this core finished? -/
def Core.planQuiet (co : Core) (r : PlanRun) : Bool :=
  co.board.isEmpty && co.signalAsked.isNone && co.active.all fun kv => match kv.2 with
    | some s => s.cmd != some r.cmd
    | none => true

/-- The plan of a core is complete (R95, R347): its END_PLAN has issued, its operations and taken items have finished. -/
def Core.planComplete (co : Core) : Option PlanRun :=
  co.run.bind fun r => if r.ended && co.planQuiet r && r.takenOut = 0 then some r else none

/-- The core's run is over and the next eligible plan begins. -/
def Core.nextPlan (co : Core) (r : PlanRun) : Core :=
  { co with run := co.waiting.head?, waiting := co.waiting.drop 1
            seqDone := if r.owner.isNone then co.seqDone ++ [r.cmd] else co.seqDone }

/-- A core's own plan completes, if it is complete. -/
def Dev.settleOwn (d : Dev) (core : Nat) : Dev :=
  match (d.core core).planComplete with
  | some r => if r.owner.isNone then (d.setCore core ((d.core core).nextPlan r)).cmdWork r.cmd else d
  | none => d

/-- What runs on a core completes, if it is complete: a taken item counts for the plan that holds it. -/
def Dev.settle (d : Dev) (core : Nat) : Dev :=
  match (d.core core).planComplete with
  | none => d
  | some r =>
    match r.owner with
    | none => d.settleOwn core
    | some o =>
      let d1 := d.setCore core ((d.core core).nextPlan r)
      (d1.updCore o fun co => { co with run := co.run.map fun x =>
        if x.cmd = r.cmd then { x with takenOut := x.takenOut - 1 } else x }).settleOwn o

/-- The instruction has issued: the plan goes on behind it. Its fetch has gone through the core's caches (R93, R108). -/
def Dev.advance (d : Dev) (core : Nat) (i : SeqInstr) : Dev :=
  let d0 := match (d.core core).run with
    | some r => d.loaded (whoSeq core r) ((r.va + 40 * r.pc) % 2 ^ 48) 40
    | none => d
  let d1 := d0.updCore core fun co => { co with
    run := co.run.map fun r => { r.moveTo (r.pc + 1) with itemOpen := if i.op = 7 then false else r.itemOpen || i.itemStart }
    valveWait := none, queueWaits := false }
  ({ d1 with fetched := d1.fetched.filter fun x => x.cmd != seqKey core } : Dev).settle core

/-- A status of an instruction becomes the plan's command's own (R379), the first one alone. -/
def Dev.planStatus (d : Dev) (r : PlanRun) (st : Status) : Dev :=
  d.updCmd r.cmd fun q => { q with status := if q.status.isSome then q.status else some st }

/-- An instruction is rejected (R110): it has no effect but its status, and the plan goes on. -/
def Dev.reject (d : Dev) (core : Nat) (r : PlanRun) (i : SeqInstr) (st : Status) : Dev :=
  ((d.planStatus r st).raiseAt r.ctx st 0 .core core).advance core { i with itemStart := false, op := 0 }

/-- An instruction that cannot be read as one. -/
def badInstr : SeqInstr := ⟨0, false, false, 0, 0, false⟩

/-- What stands in the way of a plan fetch (R252, R253, R267): a fetch that is not permitted stops the command. -/
def Dev.seqBar (d : Dev) (c : Clock) (core : Nat) (r : PlanRun) (b : Bar) : Dev :=
  match b with
  | .denied => ((d.cmdFault r.cmd r.ctx .memoryAccessFault 0).updCore core fun co =>
      { co with run := co.run.map fun x => { x with ended := true } }).settle core
  | .remote f a n => d.unitBar c (whoSeq core r) .memoryAccessFault (.remote f a n)
  | _ => d

/-! ### Reserved operation codes -/

def fopKnown (f : Nat) : Bool := (decide (1 ≤ f) && decide (f ≤ 3)) || (decide (8 ≤ f) && decide (f ≤ 0x0C))

/-- An instruction whose operation code is reserved, whatever command runs it, and its status. -/
def opReserved (i : SeqInstr) : Option Status :=
  match i.op with
  | 2 => if vopKnown (fld i.body 255 248) then none else some .vectorOpInvalid
  | 3 => if [0x01, 0x08, 0x10, 0x11, 0x12, 0x13, 0x14].contains (fld i.body 255 248) then none else some .sparseOpInvalid
  | 4 => if (StreamBody.ofBody i.body).ok then none else some .streamInvalid
  | 5 => if fopKnown (fld i.body 255 252) then none else some .valveOpInvalid
  | _ => none

/-- One step of a core's sequencer under a command: `mine` tells the command's instructions. The next instruction of the
plan is rejected, or, where it is the command's, does `f`; another command's instruction stays (log entry 17). -/
def Dev.seqStep (d : Dev) (c : Clock) (core : Nat) (mine : SeqInstr → Bool) (f : Dev → PlanRun → SeqInstr → Dev) : Dev :=
  let co := d.core core
  match co.run with
  | none => d
  | some r =>
    if c.stage != .work || co.switchTo.isSome || co.signalAsked.isSome || !d.mayRun r.ctx then d
    else
      match d.seqNext core r with
      | .none => d
      | .bar b => d.seqBar c core r b
      | .poison => d.reject core r badInstr .planInvalid
      | .got i =>
        if !i.ok then d.reject core r i .planInvalid
        else if decide (1 ≤ i.op) && decide (i.op ≤ 4) && decide ((d.cluster (core / 8)).holder ≠ some r.ctx) then
          d.reject core r i .wellNotOwned
        else
          match opReserved i with
          | some st => d.reject core r i st
          | none => if mine i then f d r i else d

/-! ### VALVE instructions and handle queues (R209, R236) -/

/-- A VALVE body. -/
structure ValveBody where
  fop : Nat
  remote : Bool
  geid : Nat
  valve : Nat
  value : Nat
  queue : Nat
  hreg : Nat
  keep : Bool
  rsvd : Nat
deriving DecidableEq, Repr

def ValveBody.ofBody (w : Nat) : ValveBody :=
  ⟨fld w 255 252, bit w 251, fld w 250 231, fld w 230 217, fld w 216 185, fld w 184 175, fld w 174 171, bit w 170, fld w 169 0⟩

/-- Fields the operation does not use are zero, and VALUE is not 0 where that is refused (R236). -/
def ValveBody.ok (b : ValveBody) : Bool :=
  let noValve := b.valve = 0
  let noQueue := b.queue = 0
  let noHreg := b.hreg = 0
  b.rsvd = 0 && (b.remote || b.geid = 0) && (b.fop = 1 || !b.remote) && (b.fop = 0x0B || !b.keep)
    && match b.fop with
      | 1 => noQueue && noHreg && b.value != 0
      | 2 | 3 => noQueue && noHreg
      | 8 => noValve && noQueue
      | 9 => noValve && noQueue && b.value != 0
      | 0x0A => noValve && noQueue && b.value = 0
      | 0x0B | 0x0C => noValve && b.value = 0
      | _ => false

def Core.hreg (co : Core) (h : Nat) : Nat := SMap.get (fun _ => nullHandle) co.hregs h
def Dev.setHreg (d : Dev) (core h x : Nat) : Dev := d.updCore core fun co => { co with hregs := SMap.put (fun _ => nullHandle) co.hregs h x }

/-- A VALVE instruction of well-formed body. -/
def Dev.valveStep (d : Dev) (core : Nat) (r : PlanRun) (i : SeqInstr) (f : ValveBody → Dev) : Dev :=
  let b := ValveBody.ofBody i.body
  if b.ok then f b else d.reject core r i .valveOpInvalid

/-- A local valve of the instruction: not usable, or on a FAULTED cluster (R229, R388). -/
def Dev.valveBar (d : Dev) (k v : Nat) : Option Status :=
  if !d.valveUsable k v then some .valveAccessFault else if d.clusterFaulted (v / 512) then some .functionFaulted else none

/-- Why a handle queue is refused (R209, R236, R388). -/
def Dev.queueBar (d : Dev) (k q : Nat) : Option Status :=
  if d.clusterFaulted (q / 32) then some .functionFaulted else if !d.queueUsable k q then some .streamInvalid else none

/-- A sequencer's push or pop finds its queue full or empty: it holds issue, and is served in its core's place (R208). -/
def Dev.queueHold (d : Dev) (core : Nat) : Dev := d.updCore core fun co => { co with queueWaits := true }

/-- QUEUE_PUSH (R236). -/
def Dev.seqPush (d : Dev) (core : Nat) (r : PlanRun) (i : SeqInstr) : Dev :=
  d.valveStep core r i fun b =>
    let h := (d.core core).hreg b.hreg
    match d.queueBar r.ctx b.queue with
    | some st => d.reject core r i st
    | none =>
      if !d.handleOk r.ctx h then d.reject core r i .handleInvalid
      else if decide ((d.hq b.queue).handles.length ≥ 256) then d.queueHold core
      else
        let a := if b.keep then d.addRefs r.ctx h 1 else (d, true)
        if !a.2 then (a.1.planStatus r .refcountOverflow).advance core i
        else
          match a.1.pushHandle r.ctx b.queue h with
          | none => d
          | some d1 => (if b.keep then d1 else d1.setHreg core b.hreg nullHandle).advance core i

/-- QUEUE_POP (R236). -/
def Dev.seqPop (d : Dev) (core : Nat) (r : PlanRun) (i : SeqInstr) : Dev :=
  d.valveStep core r i fun b =>
    match d.queueBar r.ctx b.queue with
    | some st => d.reject core r i st
    | none =>
      if (d.core core).hreg b.hreg != nullHandle then d.reject core r i .valveOpInvalid
      else
        match d.popHandle r.ctx b.queue with
        | none => d.queueHold core
        | some (d1, h) => (d1.setHreg core b.hreg h).advance core i

/-! ### The scoreboard (R97, R198) -/

/-- Well range a stream holds in the scoreboard: (start, length). Until its descriptor has been read its rows may lie
anywhere, and it holds the whole well (DEDUCED from R198, log entry 100). -/
def Stream.wellRange (s : Stream) : Nat × Nat := if s.descRead then sdWellRange s.desc else (0, wellBytes)

/-- Streams in active slots. -/
def Core.streams (co : Core) : List (Nat × Stream) := co.active.filterMap fun kv => kv.2.map fun s => (kv.1, s)

/-- Channels of streams whose descriptors are still to be read. -/
def Core.unread (co : Core) : List Nat := (co.streams.filter fun s => !s.2.descRead).map (·.1)

/-- Scoreboard entries in use. -/
def Core.boardUse (co : Core) : Nat := co.board.length + co.streams.length

/-- Does an operation that reads `rd` and writes `wr` have to wait (R97, R198)? -/
def Core.hazard (co : Core) (rd wr : Nat × Nat) : Bool :=
  let meets := fun (orr ow : Nat × Nat) => overlaps ow.1 ow.2 rd.1 rd.2 || overlaps ow.1 ow.2 wr.1 wr.2 || overlaps orr.1 orr.2 wr.1 wr.2
  (co.board.any fun e => meets e.out.rd e.out.wr) || co.streams.any fun s =>
    if s.2.descRead && sdOut s.2.desc then meets s.2.wellRange (0, 0) else meets (0, 0) s.2.wellRange

/-- The lowest free scoreboard slot. -/
def Core.freeSlot (co : Core) : Option Nat := (List.range 64).find? fun n => co.board.all fun e => e.slot != n

end Sys2Proof.Machine
end

