-- ==== Sys2Proof/Machine/Pumps.lean ====
section
/-! DEFINITION. The pumps at work: starting, moving, halting, completing and arming streams (spec/09_pumps.md R191 to R215). -/

namespace Sys2Proof.Machine

/-- The number under which a stream asks for remote bytes. -/
def streamKey (core ch : Nat) : Nat := 2 ^ 40 + core * 16 + ch

/-- Who a stream is. -/
def whoStream (core ch : Nat) (s : Stream) : Who := ⟨s.ctx, streamKey core ch, .core core, s.owner / 8⟩

def Core.stream (co : Core) (ch : Nat) : Option Stream := SMap.get (fun _ => none) co.active ch
def Core.setStream (co : Core) (ch : Nat) (s : Option Stream) : Core := { co with active := SMap.put (fun _ => none) co.active ch s }
def Core.armedSlot (co : Core) (ch : Nat) : Option Armed := SMap.get (fun _ => none) co.armed ch
def Core.setArmed (co : Core) (ch : Nat) (a : Option Armed) : Core := { co with armed := SMap.put (fun _ => none) co.armed ch a }

def Dev.stream (d : Dev) (core ch : Nat) : Option Stream := (d.core core).stream ch
def Dev.setStream (d : Dev) (core ch : Nat) (s : Option Stream) : Dev := d.updCore core fun co => co.setStream ch s

/-- The channels whose active slots hold streams: core and channel, in ascending order. -/
def Dev.busyChannels (d : Dev) : List (Nat × Nat) := (d.cores.map fun kv => kv.2.active.map fun s => (kv.1, s.1)).flatten

/-- The stream's remote stores that are not acknowledged. -/
def Dev.streamStores (d : Dev) (core ch : Nat) : Bool := d.reqs.any fun r => decide (r.owner = .streamStore core ch)

/-! ### Checks (R195, R202, R209, R388) -/

/-- Queues a descriptor names. -/
def sdQueues (desc : Nat) : List Nat :=
  (if sdQSrcEn desc then [sdQSrc desc] else []) ++ (if sdQDstEn desc then [sdQDst desc] else [])

/-- Why a descriptor is rejected for a context, if it is. -/
def Dev.descReject (d : Dev) (k desc : Nat) : Option Status :=
  if !sdOk desc then some .streamInvalid
  else if (sdQueues desc).any fun q => d.clusterFaulted (q / 32) then some .functionFaulted
  else if (sdQueues desc).any fun q => !d.queueUsable k q then some .streamInvalid
  else none

/-- Why a RELAY is rejected (R202). -/
def Dev.relayReject (d : Dev) (k core desc : Nat) (prev next : Option Nat) : Option Status :=
  let bad := fun (x : Option Nat) => match x with
    | none => false
    | some n => n = core || decide (d.clusterOwner (n / 8) ≠ some (d.ctx k).partition)
  if sdOut desc || (prev.isNone && next.isNone) || bad prev || bad next then some .streamInvalid else none

/-- Why a stream's VALVE is rejected (R196, R388). -/
def Dev.valveReject (d : Dev) (k : Nat) (v : Option Nat) : Option Status :=
  match v with
  | none => none
  | some v => if !d.valveUsable k v then some .streamInvalid else if d.clusterFaulted (v / 512) then some .functionFaulted else none

/-! ### Write-backs and stops (R210, R211) -/

/-- STATE and REMAINING, bits [487:446] of the descriptor in memory, are written (R193): six bytes, the low bits of the
first as they stand. -/
def Dev.writeState (d : Dev) (c : Clock) (core ch : Nat) (s : Stream) (st remaining : Nat) : Except Bar Dev :=
  let w := whoStream core ch s
  let va := (s.descAddr + 55) % 2 ^ 48
  let low := match d.load w va 1 with
    | .ok x => leNat x.1 % 64
    | .error _ => fld s.desc 445 440
  d.store c w (.streamStore core ch) va (natLe 6 (low + (st * 2 ^ 40 + remaining) * 64)) false

/-- Elements read so far: those moved, and those that wait in the staging buffer (R200). -/
def Stream.readPos (s : Stream) : Nat := s.pos + s.inq.length

/-- The stream stops at this element: its channel and scoreboard entry stay held until the turnover. -/
def Dev.stopStream (d : Dev) (core ch : Nat) (s : Stream) (st : Status) : Dev :=
  let d1 := d.setStream core ch (some { s with stopped := true, halted := false })
  let d2 := match s.cmd with
    | some id => d1.updCmd id fun q => { q with status := if q.status.isSome then q.status else some st }
    | none => d1
  d2.raiseAt s.ctx st 0 .core core

/-- The write-back of a halt is made, once the elements already read have completed (R210). -/
def Dev.haltWrite (d : Dev) (c : Clock) (core ch : Nat) : Dev :=
  match d.stream core ch with
  | none => d
  | some s => match s.haltAt with
    | none => d
    | some n =>
      if !s.inq.isEmpty && !s.relay then d
      else match d.writeState c core ch s 1 n with
        | .ok d1 => d1.setStream core ch (some { s with haltAt := none })
        | .error .denied => d.stopStream core ch { s with haltAt := none } .streamAccessFault
        | .error _ => d

/-- The stream halts on an absent page (R210): counted and written back once. A descriptor that has not been read has no
REMAINING yet. -/
def Dev.haltStream (d : Dev) (c : Clock) (core ch : Nat) (s : Stream) : Dev :=
  if s.halted then d
  else ((d.setStream core ch (some { s with halted := true, haltAt := if s.descRead then some (sdTotal s.desc - s.readPos) else none })).bump
    0x8070 5 core 1).haltWrite c core ch

/-! ### Movement (R194, R203, R206, R207) -/

/-- What one try at moving a stream on does. -/
inductive Move where
  | stuck (d : Dev)      -- it waits; the device after what the try itself has done
  | moved (d : Dev)

/-- An access that cannot be made now. -/
def Dev.moveBar (d : Dev) (c : Clock) (core ch : Nat) (s : Stream) (b : Bar) : Move :=
  match b with
  | .absent _ => .stuck (d.haltStream c core ch s)
  | .denied => .stuck (d.stopStream core ch s .streamAccessFault)
  | .waits => .stuck d
  | .remote f a n =>
    if s.asked.isSome then .stuck d
    else if d.gatewayBusy (whoStream core ch s) f then .stuck (d.closeFor c (whoStream core ch s))
    else
      let r := d.request c (whoStream core ch s) (.streamLoad core ch) f 0 (.load (BitVec.ofNat 41 a) (Fin.ofNat 4097 n))
      match r.2 with
      | some id => .stuck (r.1.setStream core ch (some { s with asked := some id }))
      | none =>
        let dead : Fetched := ⟨streamKey core ch, .core core, frameKey f, a, List.replicate n 0xFF#8, true⟩
        .moved (({ r.1 with fetched := r.1.fetched ++ [dead] } : Dev).unreachable s.ctx)

/-- The core downstream accepts one more element: its own RELAY on the channel names this core, and its staging buffer
has room (R203, R204). -/
def Dev.relayAccepts (d : Dev) (core ch : Nat) (s : Stream) : Bool :=
  match s.next with
  | none => true
  | some n => match d.stream n ch with
    | some t => t.relay && t.descRead && !t.stopped && t.prev = some core && t.ctx = s.ctx
        && decide ((t.inq.length + 1) * sdE t.desc ≤ 2048)
    | none => false

/-- Pass an element on. A chain whose cores differ in N or E moves undefined bytes (R203). -/
def Dev.relayPass (d : Dev) (ch : Nat) (s : Stream) (bs : List Byte) (poison : Bool) : Dev :=
  match s.next with
  | none => d
  | some n => match d.stream n ch with
    | none => d
    | some t =>
      let same := sdE t.desc = sdE s.desc && sdTotal t.desc = sdTotal s.desc
      let x := if same then bs else freeBytes d.freeCtr 0 (sdE t.desc)
      let d1 := if same then d else d.tickFree
      d1.setStream n ch (some { t with inq := t.inq ++ [(x, poison)] })

/-- The stream as it is after an access: what had been fetched for the access is dropped. -/
def Dev.accessDone (d : Dev) (core ch : Nat) (s : Stream) : Dev :=
  ({ d with fetched := d.fetched.filter fun x => x.cmd != streamKey core ch } : Dev).setStream core ch
    (some { s with halted := false, asked := none })

/-- Element `s.pos` has been moved. -/
def Dev.elemDone (d : Dev) (core ch : Nat) (s : Stream) : Dev := d.accessDone core ch { s with pos := s.pos + 1 }

/-- An IN element reaches the well (R215), and the next core of a relay. An offset beyond its bucket contributes nothing
(R207): no bytes. -/
def Dev.elemIn (d : Dev) (core ch : Nat) (s : Stream) (bs : List Byte) (poison : Bool) : Dev :=
  let a := wellBase core + sdWell s.desc s.pos
  if bs.isEmpty then (d.elemDone core ch s).raiseAt s.ctx .streamAccessFault 0 .core core
  else (((({ d with mem := d.mem.write a bs poison } : Dev).bump 0x8070 2 core bs.length).elemDone core ch s).relayPass ch s bs poison)

/-- The bucket address of an element, and whether it lies in the bucket (R206, R207). -/
def Dev.bucketElem (d : Dev) (s : Stream) (h : Nat) : Nat × Bool :=
  let off := (sdMemInt s.desc s.pos).toNat
  (d.bucketAddr (d.ctx s.ctx).partition h + off, decide (off < classBytes (handleClass h)))

/-- Read the next element of an IN stream in memory, and do `f` with it. -/
def Dev.readElem1 (d : Dev) (c : Clock) (core ch : Nat) (s : Stream) (f : Dev → List Byte → Bool → Dev) : Move :=
  match s.handle with
  | some h =>
    let e := d.bucketElem { s with pos := s.readPos } h
    if !e.2 then .moved (f d [] false)
    else
      match d.cisternBar e.1 (sdE s.desc) with
      | some b => d.moveBar c core ch s b
      | none => .moved (f d (d.mem.read e.1 (sdE s.desc)) (d.mem.anyPoison e.1 (sdE s.desc)))
  | none =>
    let w := whoStream core ch s
    match d.load w (sdMem s.desc s.readPos) (sdE s.desc) with
    | .error b => d.moveBar c core ch s b
    | .ok (bs, poison) => .moved (f (d.loaded w (sdMem s.desc s.readPos) (sdE s.desc)) bs poison)

/-- Does the core's phase keep the pump off its well (R98)? -/
def Core.wellClosed (co : Core) : Bool := co.compute || co.switchTo.isSome

/-- Move an IN stream on by one element: out of its staging buffer into the well, from memory into the well, or, while the
well is closed, from memory into the buffer as long as that has room (R98, R200, R204). -/
def Dev.moveIn (d : Dev) (c : Clock) (core ch : Nat) (s : Stream) : Move :=
  let wellOpen := !(d.core core).wellClosed && d.relayAccepts core ch s
  let member := s.relay && s.prev.isSome
  match s.inq, wellOpen with
  | (bs, poison) :: rest, true => .moved (d.elemIn core ch { s with inq := rest } bs poison)
  | [], true => if member then .stuck d else d.readElem1 c core ch s fun d bs poison => d.elemIn core ch s bs poison
  | _, false =>
    if member || decide (2048 < (s.inq.length + 1) * sdE s.desc) || decide (sdTotal s.desc ≤ s.readPos) then .stuck d
    else d.readElem1 c core ch s fun d bs poison => d.accessDone core ch { s with inq := s.inq ++ [(bs, poison)] }

/-- Does element `i` lie in the line of the stream's last element, with every element after it (R193, R201)? -/
def sdLastLine (desc i : Nat) : Bool :=
  let n := sdTotal desc
  decide (n ≤ i + 64) && (List.range (n - i)).all fun j => sdMem desc (i + j) / 64 = sdMem desc (n - 1) / 64

/-- The source whose store a request carries. -/
def ReqOwner.storer : ReqOwner → Option Source
  | .streamStore core _ => some (.core core)
  | .unitStore _ src => some src
  | _ => none

/-- Is the request a store of the stream's own to the line of device address `a`, over the board mesh? -/
def Req.ownLine (r : Req) (core ch a : Nat) : Bool :=
  decide (r.owner = .streamStore core ch) && (match r.content with
    | .memReq m => match m.kind with
      | .store x _ _ => decide (x.toNat / 64 = a / 64)
      | _ => false
    | _ => false)

/-- Must a store with the FLAG attribute to device address `a` still wait for earlier stores of its core (R260)? -/
def Dev.flagHeld (d : Dev) (core ch a : Nat) : Bool :=
  d.reqs.any fun r => decide (r.owner.storer = some (.core core)) && !r.ownLine core ch a

/-- A store that carries the FLAG attribute, where the line of the last element has it (R193): its device address, where it
may have to wait. Through a gateway FLAG brings no further holding (R261). -/
def Dev.flagAt (d : Dev) (s : Stream) : Option Nat :=
  if !sdLastFlag s.desc || !sdLastLine s.desc s.pos then none
  else match s.handle with
    | some h => some (d.bucketElem s h).1
    | none => match d.locate s.ctx (sdMem s.desc s.pos) true with
      | .ok m => match m.frame with
        | .gateway _ _ => none
        | _ => some (m.addr (sdMem s.desc s.pos))
      | .error _ => none

/-- Move one element of an OUT stream. -/
def Dev.moveOut (d : Dev) (c : Clock) (core ch : Nat) (s : Stream) : Move :=
  let a := wellBase core + sdWell s.desc s.pos
  let bs := d.mem.read a (sdE s.desc)
  let poison := d.mem.anyPoison a (sdE s.desc)
  let done := fun (d : Dev) => Move.moved ((d.bump 0x8070 3 core (sdE s.desc)).elemDone core ch s)
  if (d.core core).wellClosed then .stuck d
  else if (d.flagAt s).any fun x => d.flagHeld core ch x then .stuck (d.closeFor c (whoStream core ch s))
  else
    match s.handle with
    | some h =>
      let e := d.bucketElem s h
      match d.cisternBar e.1 (sdE s.desc) with
      | some b => d.moveBar c core ch s b
      | none => done (d.storeDev s.ctx e.1 bs poison)
    | none =>
      match d.store c (whoStream core ch s) (.streamStore core ch) (sdMem s.desc s.pos) bs poison with
      | .error b => d.moveBar c core ch s b
      | .ok d1 => done d1

/-- May the stream act now: is it neither stopped nor its context kept from running? -/
def Dev.streamRuns (d : Dev) (s : Stream) : Bool := !s.stopped && decide ((d.ctx s.ctx).state = .running)

/-- A stream with Q_SRC_EN pops its handle (R207). -/
def Dev.movePop (d : Dev) (core ch : Nat) : Move :=
  match d.stream core ch with
  | none => .stuck d
  | some s =>
    if !d.streamRuns s || !s.descRead || !sdQSrcEn s.desc || s.handle.isSome then .stuck d
    else if !d.queueUsable s.ctx (sdQSrc s.desc) then .stuck (d.stopStream core ch s .streamInvalid)
    else
      match d.popHandle s.ctx (sdQSrc s.desc) with
      | none => .stuck d
      | some (d1, h) =>
        if d1.handleOk s.ctx h then .moved (d1.setStream core ch (some { s with handle := some h }))
        else .stuck (d1.stopStream core ch s .handleInvalid)

/-- A stream with Q_DST_EN requests its bucket (R206). -/
def Dev.moveAlloc (d : Dev) (core ch : Nat) (s : Stream) : Move :=
  if s.poolWait then .stuck d
  else
    let r := d.alloc s.ctx (sdBucketBytes s.desc) (homeHdie core)
    match r.2 with
    | .got h => .moved (r.1.setStream core ch (some { s with handle := some h }))
    | .empty => .stuck (r.1.setStream core ch (some { s with poolWait := true }))
    | .tooLarge => .stuck (r.1.stopStream core ch s .bucketTooLarge)

/-- A stream with Q_DST_EN whose elements have all been moved and whose stores have retired pushes its handle (R199,
R206). -/
def Dev.movePush (d : Dev) (core ch : Nat) : Move :=
  match d.stream core ch with
  | none => .stuck d
  | some s =>
    if !d.streamRuns s || !s.descRead || !sdQDstEn s.desc || s.pushed || decide (s.pos < sdTotal s.desc) || d.streamStores core ch then
      .stuck d
    else if !d.queueUsable s.ctx (sdQDst s.desc) then .stuck (d.stopStream core ch s .streamInvalid)
    else
      match s.handle with
      | none => .stuck d
      | some h => match d.pushHandle s.ctx (sdQDst s.desc) h with
        | none => .stuck d
        | some d1 => .moved (d1.setStream core ch (some { s with pushed := true }))

/-- Do the rows of a stream whose descriptor has now been read have to wait, for operations and streams that were there
before it (R97, R198)? -/
def Dev.descHazard (d : Dev) (core ch : Nat) (s : Stream) (desc : Nat) : Bool :=
  let co := d.core core
  let others : Core := { co with active := co.active.filter fun kv => kv.1 != ch && kv.2.any (·.descRead) }
  let rg := sdWellRange desc
  (s.behind.any fun x => (co.stream x).any fun t => !t.descRead)
    || others.hazard (if sdOut desc then rg else (0, 0)) (if sdOut desc then (0, 0) else rg)

/-- The descriptor of a started stream is read, once its page is there (R197). -/
def Dev.moveDesc (d : Dev) (c : Clock) (core ch : Nat) (s : Stream) : Move :=
  match d.load (whoStream core ch s) s.descAddr 64 with
  | .error b => d.moveBar c core ch s b
  | .ok (bs, poison) =>
    let desc := leNat bs
    let st := if poison then some Status.streamInvalid
      else match d.descReject s.ctx desc with
        | some st => some st
        | none => if s.relay then d.relayReject s.ctx core desc s.prev s.next else none
    match st with
    | some st =>
      let d1 := (d.stopStream core ch s st).setStream core ch none
      .stuck (d1.settle core)
    | none =>
      if d.descHazard core ch s desc then .stuck d
      else .moved ((d.loaded (whoStream core ch s) s.descAddr 64).accessDone core ch { s with desc := desc, descRead := true })

/-- One try at one channel's memory side. -/
def Dev.moveOne (d0 : Dev) (c : Clock) (core ch : Nat) : Move :=
  let d := d0.haltWrite c core ch
  match d.stream core ch with
  | none => .stuck d
  | some s =>
    if !d.streamRuns s then .stuck d
    else if !s.descRead then d.moveDesc c core ch s
    else if sdQSrcEn s.desc && s.handle.isNone then .stuck d
    else if sdQDstEn s.desc && s.handle.isNone then d.moveAlloc core ch s
    else if s.pos ≥ sdTotal s.desc then .stuck (d.closeFor c (whoStream core ch s))
    else if sdOut s.desc then d.moveOut c core ch s
    else d.moveIn c core ch s

/-- Does the stream go on in the same line with the next element? -/
def Stream.sameAccess (s t : Stream) : Bool :=
  s.descRead && decide (t.readPos = s.readPos + 1) && decide (t.readPos < sdTotal s.desc)
    && sdMem s.desc s.readPos / 64 = sdMem s.desc t.readPos / 64

/-- One access of a channel (R201): its elements that fall in one line in consecutive order; `fuel` bounds them. -/
def moveAccess (c : Clock) (core ch : Nat) : Nat → Dev → Dev × Bool
  | 0, d => (d, false)
  | n + 1, d =>
    match d.moveOne c core ch with
    | .stuck d1 => (d1, false)
    | .moved d1 => match d.stream core ch, d1.stream core ch with
      | some s, some t => if s.sameAccess t then ((moveAccess c core ch n d1).1, true) else (d1, true)
      | _, _ => (d1, true)

/-- The first of several channels with work ready makes one access. -/
def serveOne (c : Clock) (core : Nat) : List Nat → Dev → Dev × Bool
  | [], d => (d, false)
  | ch :: rest, d =>
    let r := moveAccess c core ch 64 d
    if r.2 then (r.1.updCore core fun co => { co with lastServed := ch }, true) else serveOne c core rest r.1

/-- A pump's turn: the next channel with work ready in rotation from the one last served (R201). -/
def Dev.pumpTurn (d : Dev) (c : Clock) (core : Nat) : Dev × Bool :=
  let from_ := (d.core core).lastServed + 1
  let order := ((List.range 16).map fun i => (from_ + i) % 16).filter fun ch => (d.stream core ch).isSome
  serveOne c core order d

/-- A sequencer that waits on a handle queue tries its instruction again, in its core's place (R208). -/
def Dev.seqQueue (d : Dev) (c : Clock) (core fop : Nat) (f : Dev → PlanRun → SeqInstr → Dev) : Dev × Bool :=
  if !(d.core core).queueWaits then (d, false)
  else
    let d1 := d.seqStep c core (fun i => i.op = 5 && fld i.body 255 252 = fop) f
    (d1, !(d1.core core).queueWaits)

/-- Pushes or pops of one core that can be served now: its channels in ascending number, then its sequencer (R208). -/
def Dev.queueTurn (d : Dev) (one : Dev → Nat → Move) (seq : Dev → Dev × Bool) : Dev × Bool :=
  let r := (List.range 16).foldl (fun r ch => match one r.1 ch with
    | .stuck d1 => (d1, r.2)
    | .moved d1 => (d1, true)) (d, false)
  let s := seq r.1
  (s.1, r.2 || s.2)

/-- One turn of each core in ascending number, and whether anything was done. -/
def turns (f : Dev → Nat → Dev × Bool) (cores : List Nat) (r : Dev × Bool) : Dev × Bool :=
  cores.foldl (fun r core => let m := f r.1 core; (m.1, r.2 || m.2)) r

/-- One round: each pump makes an access; then every push enters its queue, and after them the pops are served (R208). -/
def Dev.pumpRound (d : Dev) (c : Clock) : Dev × Bool :=
  let cores := (d.cores.filter fun kv => !kv.2.streams.isEmpty || kv.2.queueWaits).map (·.1)
  let moved := turns (fun d core => d.pumpTurn c core) cores (d, false)
  let pushed := turns (fun d core => d.queueTurn (fun d ch => d.movePush core ch)
    fun d => d.seqQueue c core 0x0B fun d r i => d.seqPush core r i) cores moved
  turns (fun d core => d.queueTurn (fun d ch => d.movePop core ch)
    fun d => d.seqQueue c core 0x0C fun d r i => d.seqPop core r i) cores pushed

/-- Rounds until nothing moves; `fuel` bounds them. -/
def pumpRounds (c : Clock) : Nat → Dev → Dev
  | 0, d => d
  | n + 1, d => let r := d.pumpRound c; if r.2 then pumpRounds c n r.1 else r.1

/-- The pumps run: every stream moves as far as it can within the work window. -/
def Dev.pump (d : Dev) (c : Clock) : Dev := if c.stage = .work then pumpRounds c (2 ^ 41) d else d

/-! ### Start and completion (R197 to R199) -/

/-- A stream in its active slot at its start. -/
def Stream.fresh (k descAddr owner : Nat) (b : StreamBody) (cmd : Option Nat) : Stream :=
  { ctx := k, desc := 0, descAddr := descAddr, descRead := false, relay := b.sop = 3, prev := b.prev, next := b.next,
    valve := b.valve, owner := owner, cmd := cmd }

/-- Has a stream met every condition of R199? -/
def Dev.streamFinished (d : Dev) (core ch : Nat) (s : Stream) : Bool :=
  s.descRead && !s.stopped && s.haltAt.isNone && decide (sdTotal s.desc ≤ s.pos) && !d.streamStores core ch && (!sdQDstEn s.desc || s.pushed)

/-- The well lines an IN stream has written, or the local memory lines an OUT stream has, become poisoned: the stream
completed on channel state that failed its parity (R412). -/
def Dev.poisonStream (d : Dev) (core : Nat) (s : Stream) : Dev :=
  (List.range (sdTotal s.desc)).foldl (fun d i =>
    let at_ := fun (d : Dev) (a : Nat) => ({ d with mem := (linesOf a (sdE s.desc)).foldl (fun m l => m.setPoison l true) d.mem } : Dev)
    if !sdOut s.desc then at_ d (wellBase core + sdWell s.desc i)
    else
      let d1 := d.updCtx s.ctx fun x => { x with poisonWritten := true }
      match s.handle with
      | some h => at_ d1 (d1.bucketElem { s with pos := i } h).1
      | none => match d1.locate s.ctx (sdMem s.desc i) true with
        | .ok m => match m.frame with
          | .here _ => at_ d1 (m.addr (sdMem s.desc i))
          | _ => d1
        | .error _ => d1) d

/-- A stream completes (R199): its source bucket is released, its valve signalled, its channel freed. -/
def Dev.completeStream (d : Dev) (c : Clock) (core ch : Nat) (controlParity poolParity : Bool) : Dev :=
  match d.stream core ch with
  | none => d
  | some s =>
    if c.stage != .work || !d.streamFinished core ch s then d
    else
      let d0 := if controlParity then (d.poisonStream core s).raiseUncorrected s.ctx .controlCheck .core core else d
      let d1 := match s.handle with
        | some h => if sdFreeSrc s.desc then d0.releaseFrom s.ctx h poolParity else d0
        | none => d0
      let d2 := match s.valve with
        | some v => d1.signalOp s.ctx v 1
        | none => d1
      (((d2.setStream core ch none).bump 0x8070 1 core 1).settle core).pump c

/-! ### Armed slots (R211 to R214) -/

/-- Discard an armed slot. -/
def Dev.discardArmed (d : Dev) (core ch : Nat) : Dev :=
  match (d.core core).armedSlot ch with
  | none => d
  | some _ => (d.updCore core fun co => co.setArmed ch none).bump 0x8070 7 core 1

/-- The armed slot becomes the active stream at phase 0 (R212). -/
def Dev.startArmed (d : Dev) (core ch : Nat) (a : Armed) : Dev :=
  (d.updCore core fun co => co.setArmed ch none).setStream core ch (some
    { ctx := a.ctx, desc := a.desc, descAddr := a.descAddr, descRead := true, relay := a.prev.isSome || a.next.isSome
      prev := a.prev, next := a.next, valve := a.valve, owner := core, cmd := none })

/-- An unfinished stream is abandoned at the turnover (R211). -/
def Dev.abandonStream (d : Dev) (c : Clock) (core ch : Nat) : Dev :=
  match d.stream core ch with
  | none => d
  | some s =>
    let d1 := if !s.descRead then d
      else match d.writeState c core ch s 2 (sdTotal s.desc - s.pos) with
        | .ok d1 => d1
        | .error _ => d
    (d1.setStream core ch none).discardArmed core ch

end Sys2Proof.Machine
end

