-- ==== Sys2Proof/Machine/Sequencer.lean ====
section
/-! DEFINITION. What the sequencer's commands do: engine operations, phases, items, streams and VALVE instructions
(spec/05_core.md R93 to R101; spec/09_pumps.md R196 to R213; spec/10_buckets_valves.md R225 to R238; spec/15_contexts.md
R347; spec/03_numerics.md R67, R68). -/

namespace Sys2Proof.Machine

/-! ### Engine operations (R93, R97, R98) -/

/-- Operations an engine's queue holds (R93). -/
def EngineKind.depth : EngineKind → Nat
  | .array => 32 | .vector => 8 | .sparse => 8

/-- Is there room for another operation: a scoreboard entry and a place in the engine's queue? -/
def Core.boardRoom (co : Core) (e : EngineKind) : Option Nat :=
  if co.boardUse ≥ 64 || decide (e.depth ≤ (co.board.filter fun x => x.engine = e).length) then none else co.freeSlot

/-- Begin a phase switch (R98). -/
def Dev.beginSwitch (d : Dev) (core : Nat) (toCompute : Bool) : Dev :=
  (d.updCore core fun co => { co with switchTo := some toCompute }).bump 0x8030 3 core 1

/-- An engine operation with outcome `out` issues: after the hazard check, and after the implicit switch to COMPUTE (R98,
R198). `keep` is what the engine keeps on the core. -/
def Dev.boardIssue (d : Dev) (core : Nat) (r : PlanRun) (i : SeqInstr) (e : EngineKind) (out : EngOut) (keep : Core → Core) : Dev :=
  let co := d.core core
  match co.boardRoom e with
  | none => d
  | some slot =>
    if co.hazard out.rd out.wr then d
    else if !co.compute then d.beginSwitch core true
    else (d.tickFree.updCore core fun co =>
      { keep co with board := co.board ++ [⟨slot, e, r.ctx, out, i.body, d.freeCtr⟩] }).advance core i

/-- ARRAY (R77 to R90). What the operation's own fields break rejects it at once. Whether its rectangle is free is judged
when it could issue: after the waits for a place in the queue and for its operands (R78, R97). -/
def Dev.issueArray (d : Dev) (core : Nat) (r : PlanRun) (i : SeqInstr) : Dev :=
  let op := ArrayOp.ofBody i.body
  let co := d.core core
  match arrayReject op with
  | some st => d.reject core r i st
  | none =>
    let rg := arrayRanges op op.kPass (!op.reuse)
    if (co.boardRoom .array).isNone || co.hazard (boundRange rg.1) rg.2 then d
    else match arrayIssue d.mem core d.freeCtr co.rects op with
      | .error st => d.reject core r i st
      | .ok (rects, out) => d.boardIssue core r i .array out fun co => { co with rects := rects }

/-- VECTOR (R105 to R107). -/
def Dev.issueVector (d : Dev) (core : Nat) (r : PlanRun) (i : SeqInstr) : Dev :=
  match vectorIssue d.mem core (d.ctx r.ctx).srSeed d.freeCtr (VectorOp.ofBody i.body) with
  | .error st => d.reject core r i st
  | .ok out => d.boardIssue core r i .vector out id

/-- SPARSE (R117 to R136). An operation waits for a place in the queue, and while a descriptor, reference, plane, table or
list that it reads is still being written, before it is judged (R97, R117). -/
def Dev.issueSparse (d : Dev) (core : Nat) (r : PlanRun) (i : SeqInstr) : Dev :=
  let op := SparseOp.ofBody i.body
  let co := d.core core
  if (co.boardRoom .sparse).isNone || (sparseReads d.mem core op).any fun x => co.hazard x (0, 0) then d
  else match sparseIssue d.mem core d.freeCtr co.rects co.session op with
    | .error st => d.reject core r i st
    | .ok (rects, ses, out) => d.boardIssue core r i .sparse out fun co => { co with rects := rects, session := ses }

/-- Counter of an engine's residue mismatches (R74). -/
def EngineKind.residueSub : EngineKind → Nat
  | .array => 1 | .vector => 2 | .sparse => 2

/-- RESIDUE_ERROR in a context, RESIDUE_SEEN in its flag word, and the counter of the adders it arose in (R68). -/
def Dev.residueError (d : Dev) (k sub : Nat) (kind : UnitKind) (unit : Nat) : Dev :=
  ((d.raiseUncorrected k .residueError kind unit).flagN k 64).bump 0x8010 sub 0 1

/-- Does operation `x` come before `e` in order: one rectangle runs its operations in issue order (R78), and the sparse unit
all of its own (R117)? -/
def BoardEntry.before (x e : BoardEntry) : Bool :=
  (x.engine = .sparse && e.engine = .sparse) || (x.out.rect.isSome && decide (x.out.rect = e.out.rect))

/-- May an operation finish, those before it being done? -/
def Core.mayFinish (co : Core) (e : BoardEntry) : Bool := (co.board.takeWhile (· != e)).all fun x => !x.before e

/-- An entry whose results are all poisoned. -/
def BoardEntry.spoiled (e : BoardEntry) : BoardEntry :=
  { e with out := { e.out with writes := e.out.writes.map fun w => { w with poison := true } } }

/-- Spoil the entries that carry on what an operation began, up to the one that ends it: the entries, and whether that one
was among them. -/
def spoilUntil (mine ends : BoardEntry → Bool) : List BoardEntry → List BoardEntry × Bool
  | [] => ([], false)
  | e :: es =>
    if mine e && ends e then (e.spoiled :: es, true)
    else
      let r := spoilUntil mine ends es
      ((if mine e then e.spoiled else e) :: r.1, r.2)

/-- An error in an operation that works on a rectangle or a session poisons what that comes to: the results of the open
accumulation (R68, R86), every later record of the session (R136). -/
def Core.errorSpreads (co : Core) (e : BoardEntry) : Core :=
  let co1 :=
    if e.out.rect.isNone || e.out.drains then co
    else
      let r := spoilUntil (fun x => decide (x.out.rect = e.out.rect)) (fun x => x.out.drains) co.board
      { co with board := r.1, rects := if r.2 then co.rects else rectPoisoned co.rects e.out }
  if e.out.session != .adds then co1
  else
    let r := spoilUntil (fun x => x.out.session != .none) (fun x => x.out.session = .closes) co1.board
    { co1 with board := r.1, session := if r.2 then co1.session else co1.session.map fun s => { s with poison := true } }

/-- Which of the lines that an operation read were found uncorrectable (R104)? -/
def BoardEntry.linesLost (core : Nat) (e : BoardEntry) (ecc : List EccFinding) : List Nat :=
  (ecc.filter fun f => f.uncorrectable && overlaps (f.line * 64) 64 (wellBase core + e.out.rd.1) e.out.rd.2).map (·.line)

/-- The outcome of an operation whose reading found lines uncorrectable, in a memory where they are poisoned: a vector
operation's results by element, every result of any other (R86, R104, R136). -/
def Dev.outAfter (d : Dev) (core : Nat) (e : BoardEntry) (lost : Bool) : BoardEntry :=
  if !lost then e
  else match e.engine with
    | .vector => match vectorIssue d.mem core (d.ctx e.ctx).srSeed e.occasion (VectorOp.ofBody e.body) with
      | .ok out => { e with out := out }
      | .error _ => e.spoiled
    | _ => e.spoiled

/-- What a checker saw raises its status (R68, R412). -/
def Dev.checkSeen (d : Dev) (core : Nat) (e : BoardEntry) (check : EngineCheck) : Dev :=
  match check with
  | .clean => d
  | .arith step => if stepMismatch step then d.residueError e.ctx e.engine.residueSub .core core else d
  | .controlParity => d.raiseUncorrected e.ctx .controlCheck .core core

/-- Is the result of an operation poisoned by what its checker saw? -/
def checkBad : EngineCheck → Bool
  | .clean => false
  | .arith step => stepMismatch step
  | .controlParity => true

/-- An operation has finished (R97): its writes are in the well, its flags, statuses and counts are delivered. -/
def Dev.finishOp (d : Dev) (c : Clock) (core slot : Nat) (check : EngineCheck) (ecc : List EccFinding) : Dev :=
  match (d.core core).board.find? fun e => e.slot = slot with
  | none => d
  | some e0 =>
    if !(d.core core).mayFinish e0 then d
    else
    let lost := !(e0.linesLost core ecc).isEmpty
    let d0 := d.eccAll c (some e0.ctx) ecc
    let e := d0.outAfter core e0 lost
    let mem := e.out.writes.foldl (fun m w => m.write (wellBase core + w.addr) w.data (w.poison || checkBad check)) d0.mem
    let d1 := ({ d0 with mem := mem } : Dev).updCore core fun co =>
      let co1 := { co with board := co.board.filter (· != e0), rects := rectDrained co.rects e.out }
      if checkBad check || lost then co1.errorSpreads e else co1
    let d2 := d1.checkSeen core e check
    let d3 := e.out.counts.foldl (fun d x => d.bumpKey x.1 x.2) ((d2.flagN e.ctx e.out.nflags).flagS e.ctx e.out.sflags)
    ((e.out.statuses.foldl (fun d st => d.raiseAt e.ctx st 0 .core core) d3).settle core).pump c

/-! ### STREAM instructions (R196, R197, R202, R212) -/

/-- START and RELAY: into the active slot of a free channel. A START waits for operations and streams that meet its rows,
as an engine operation does (DEDUCED from R198, log entry 100). -/
def Dev.issueStream (d : Dev) (c : Clock) (core : Nat) (r : PlanRun) (i : SeqInstr) (ecc : List EccFinding) (refetch : Nat) : Dev :=
  let b := StreamBody.ofBody i.body
  match d.valveReject r.ctx b.valve with
  | some st => d.reject core r i st
  | none =>
    if (d.stream core b.channel).isSome || decide ((d.core core).boardUse ≥ 64) then d
    else
      let s : Stream := { Stream.fresh r.ctx b.descAddr (r.owner.getD core) b (some r.cmd) with behind := (d.core core).unread }
      let found := fun (d : Dev) => (d.eccAll c (some r.ctx) ecc).refetched (core / 8) refetch
      let e := found d
      let enter := fun (d : Dev) (s : Stream) => ((d.setStream core b.channel (some s)).advance core i).pump c
      match e.load (whoStream core b.channel s) b.descAddr 64 with
      | .error .denied => (e.stopStream core b.channel s .streamAccessFault).advance core i
      | .error _ => enter e s
      | .ok (bs, poison) =>
        let desc := leNat bs
        if poison then e.reject core r i .streamInvalid
        else
          match e.descReject r.ctx desc, (if s.relay then e.relayReject r.ctx core desc b.prev b.next else none) with
          | some st, _ => e.reject core r i st
          | none, some st => e.reject core r i st
          | none, none =>
            let rg := sdWellRange desc
            if (d.core core).hazard (if sdOut desc then rg else (0, 0)) (if sdOut desc then (0, 0) else rg) then d
            else enter (e.loaded (whoStream core b.channel s) b.descAddr 64) { s with desc := desc, descRead := true }

/-- ARM (R212, R213). One that names PREV or NEXT is to run as a RELAY and is checked as one (R202). -/
def Dev.issueArm (d : Dev) (c : Clock) (core : Nat) (r : PlanRun) (i : SeqInstr) : Dev :=
  let b := StreamBody.ofBody i.body
  match d.valveReject r.ctx b.valve with
  | some st => d.reject core r i st
  | none =>
    match d.load (whoSeq core r) b.descAddr 64 with
    | .error .denied => d.reject core r i .streamAccessFault
    | .error x => d.seqBar c core r x
    | .ok (bs, poison) =>
      let desc := leNat bs
      if poison then d.reject core r i .streamInvalid
      else
        match d.descReject r.ctx desc, (if b.prev.isSome || b.next.isSome then d.relayReject r.ctx core desc b.prev b.next else none) with
        | some st, _ => d.reject core r i st
        | none, some st => d.reject core r i st
        | none, none =>
          let overrun := ((d.core core).armedSlot b.channel).isSome
          let d1 := (d.loaded (whoSeq core r) b.descAddr 64).updCore core fun co => co.setArmed b.channel (some { ctx := r.ctx, desc := desc, descAddr := b.descAddr, prev := b.prev, next := b.next, valve := b.valve })
          let d2 := if overrun then (d1.updCmd r.cmd fun q => { q with note := if q.note.isSome then q.note else some .descOverrun }).bump 0x8070 6 core 1 else d1
          d2.advance core i

/-! ### VALVE instructions (R236, R237) -/

/-- SIGNAL: after every operation issued earlier in the plan has retired (R231, R232). -/
def Dev.issueSignal (d : Dev) (c : Clock) (core : Nat) (r : PlanRun) (i : SeqInstr) (parity : Bool) : Dev :=
  d.valveStep core r i fun b =>
    if !(d.core core).planQuiet r then d
    else if b.remote then
      let q := d.request c (whoSeq core r) (.seqSignal core) (.gateway b.geid 0) 0 (.signal (Fin.ofNat 16384 b.valve) (BitVec.ofNat 32 b.value))
      match q.2 with
      | some id => (q.1.updCore core fun co => { co with signalAsked := some id }).advance core i
      | none => q.1.reject core r i .targetUnreachable
    else
      match d.valveBar r.ctx b.valve with
      | some st => d.reject core r i st
      | none => (((d.valveTouch r.ctx b.valve parity).addSignal (some r.ctx) b.valve b.value).advance core i)

/-- WAIT and WAIT_TAKE (R230). One that the count does not satisfy waits at the valve, which tests it at every signal. -/
def Dev.issueWait (d : Dev) (core : Nat) (r : PlanRun) (i : SeqInstr) (take parity : Bool) : Dev :=
  d.valveStep core r i fun b =>
    match d.valveBar r.ctx b.valve with
    | some st => d.reject core r i st
    | none =>
      match (d.core core).valveWait with
      | some w => if w.granted then d.advance core i else d
      | none =>
        let d1 := d.valveTouch r.ctx b.valve parity
        if d.valve b.valve < b.value then
          d1.updCore core fun co => { co with valveWait := some ⟨b.valve, b.value, take, false, d1.valveBad.contains b.valve⟩ }
        else (if take then d1.setValve b.valve (d1.valve b.valve - b.value) else d1).advance core i

/-- The answer to a sequencer's bucket request. -/
def Dev.allocAnswer (d : Dev) (core : Nat) (r : PlanRun) (i : SeqInstr) (b : ValveBody) (parity : Bool) : Dev :=
  let a := d.alloc r.ctx b.value (homeHdie core)
  match a.2 with
  | .tooLarge => (a.1.planStatus r .bucketTooLarge).advance core i
  | .empty => a.1.updCore core fun co => { co with poolWait := true }
  | .got h =>
    let d1 := (a.1.setHreg core b.hreg h).updCore core fun co => { co with poolWait := false }
    (if parity then d1.poolCheck (d1.ctx r.ctx).partition h else d1).advance core i

/-- BUCKET_ALLOC (R225, R236). -/
def Dev.issueAlloc (d : Dev) (core : Nat) (r : PlanRun) (i : SeqInstr) (parity : Bool) : Dev :=
  d.valveStep core r i fun b =>
    if (d.core core).hreg b.hreg != nullHandle then d.reject core r i .valveOpInvalid
    else if (d.core core).poolWait then d
    else d.allocAnswer core r i b parity

/-- BUCKET_ADD (R226). -/
def Dev.issueBucketAdd (d : Dev) (core : Nat) (r : PlanRun) (i : SeqInstr) (parity : Bool) : Dev :=
  d.valveStep core r i fun b =>
    let h := (d.core core).hreg b.hreg
    let d1 := if parity && d.handleOk r.ctx h then d.poolCheck (d.ctx r.ctx).partition h else d
    let a := d1.addRefs r.ctx h b.value
    (if a.2 then a.1 else a.1.planStatus r (if d.handleOk r.ctx h then .refcountOverflow else .handleInvalid)).advance core i

/-- BUCKET_RELEASE (R226): the register becomes null. -/
def Dev.issueRelease (d : Dev) (core : Nat) (r : PlanRun) (i : SeqInstr) (parity : Bool) : Dev :=
  d.valveStep core r i fun b =>
    let h := (d.core core).hreg b.hreg
    if !d.handleOk r.ctx h then ((d.release r.ctx h).planStatus r .handleInvalid).advance core i
    else
      ((d.releaseFrom r.ctx h parity).setHreg core b.hreg nullHandle).advance core i

/-- A request answered POOL_EMPTY is repeated (R225): by a stream or a sequencer. The manager may find a parity error about
the bucket it grants (R235). -/
def Dev.retryStream (d : Dev) (c : Clock) (core ch : Nat) (parity : Bool) : Dev :=
  match d.stream core ch with
  | none => d
  | some s =>
    if !s.poolWait || c.stage != .work then d
    else
      let d1 := (d.setStream core ch (some { s with poolWait := false })).pump c
      match (d1.stream core ch).bind (·.handle) with
      | some h => if parity then d1.poolCheck (d1.ctx s.ctx).partition h else d1
      | none => d1

def Dev.retrySequencer (d : Dev) (c : Clock) (core : Nat) (parity : Bool) : Dev :=
  if !(d.core core).poolWait then d
  else d.seqStep c core (fun i => i.op = 5 && fld i.body 255 252 = 8) fun d r i =>
    d.valveStep core r i fun b => d.allocAnswer core r i b parity

/-! ### Phases (R98) -/

/-- COMPUTE and TRANSFER. A transfer waits for the core's engine operations; pump transfers are never part done here. -/
def Dev.issuePhase (d : Dev) (core : Nat) (i : SeqInstr) (toCompute : Bool) : Dev :=
  let co := d.core core
  if co.compute = toCompute then d.advance core i
  else if !toCompute && !co.board.isEmpty then d
  else (d.beginSwitch core toCompute).advance core i

/-- The switch has taken its 4 cycles. -/
def Dev.switchDone (d : Dev) (c : Clock) (core : Nat) : Dev :=
  match (d.core core).switchTo with
  | none => d
  | some b => (d.updCore core fun co => { co with compute := b, switchTo := none }).pump c

/-- An END_PLAN or END_ITEM reached with a session open raises SPARSE_OP_INVALID (R128). It ends its plan or item all the
same, and the session stays open (DESIGN CHOICE, log entry 99). -/
def Dev.sessionOpen (d : Dev) (core : Nat) (r : PlanRun) : Dev :=
  if (d.core core).session.isNone then d
  else (d.planStatus r .sparseOpInvalid).raiseAt r.ctx .sparseOpInvalid 0 .core core

/-- END_PLAN (R95). -/
def Dev.issueEndPlan (d : Dev) (core : Nat) (r : PlanRun) (i : SeqInstr) : Dev :=
  ((d.sessionOpen core r).updCore core fun co => { co with run := co.run.map fun r => { r with ended := true } }).advance core i

/-! ### Taken items (R101, R347) -/

/-- Scan a plan from position `pc` for STEALABLE items: the start and the end of each; `opened` is the start of the
stealable item that is open. `fuel` bounds the instructions. -/
def scanItems (d : Dev) (w : Who) (va : Nat) : Nat → Nat → Option Nat → List (Nat × Nat)
  | 0, _, _ => []
  | fuel + 1, pc, opened =>
    match d.seqAt w va pc with
    | .got i =>
      if !i.ok then scanItems d w va fuel (pc + 1) opened
      else if i.op = 0x0F then []
      else
        let o := if i.itemStart then (if i.stealable then some pc else none) else opened
        if i.op = 7 then (match o with | some s => [(s, pc + 1)] | none => []) ++ scanItems d w va fuel (pc + 1) none
        else scanItems d w va fuel (pc + 1) o
    | .poison => scanItems d w va fuel (pc + 1) opened
    | _ => []

/-- Items of a core's own plan that have not begun and are not taken. -/
def Dev.itemsLeft (d : Dev) (core k : Nat) : List (Nat × Nat) :=
  match (d.core core).run with
  | none => []
  | some r =>
    if r.ctx != k || r.owner.isSome || r.ended then []
    else (scanItems d (whoSeq core r) r.va (2 ^ 32) r.pc none).filter fun t => !r.taken.contains t

/-- Of several cores, the one with the most items left, then the lowest number. -/
def Dev.richest (d : Dev) (k : Nat) (cores : List Nat) : Option (Nat × List (Nat × Nat)) :=
  (cores.map fun x => (x, d.itemsLeft x k)).foldl (fun b x => match b with
    | none => if x.2.isEmpty then none else some x
    | some y => if y.2.length < x.2.length then some x else some y) none

/-- Has an eligible PLAN for this core not begun yet? -/
def Dev.planWaits (d : Dev) (core : Nat) : Bool :=
  d.inForce.any fun x => envOp x.env = 1 && fld (envPayload x.env) 255 248 = core && !x.issued && decide (d.nextCmd x.q = some x)
    && decide (d.gate x = .run)

/-- ITEM_TAKE: an idle core that has completed its plan takes the last item that has not begun. -/
def Dev.takeItem (d : Dev) (c : Clock) (core : Nat) : Dev :=
  let co := d.core core
  match (d.cluster (core / 8)).holder with
  | none => d
  | some k =>
    if c.stage != .work || !(d.ctx k).loadBalance || !d.mayRun k || co.run.isSome || !co.waiting.isEmpty || co.seqDone.isEmpty
        || co.switchTo.isSome || d.planWaits core then d
    else
      let cl := core / 8
      let near := (List.range 8).map fun j => cl * 8 + j
      let far := ((d.heldBy k).filter (· != cl)).flatMap fun x => (List.range 8).map fun j => x * 8 + j
      match (match d.richest k near with | some x => some x | none => d.richest k far) with
      | none => d
      | some (o, items) =>
        match items.getLast?, (d.core o).run with
        | some t, some r =>
          let d1 := d.updCore o fun x => { x with run := some { ({ r with taken := r.taken ++ [t] } : PlanRun).moveTo r.pc with takenOut := r.takenOut + 1 } }
          (d1.updCore core fun x => { x with run := some { cmd := r.cmd, ctx := k, va := r.va, pc := t.1, stopAt := some t.2, owner := some o } }).bump
            0x8030 7 core 1
        | _, _ => d

/-! ### PLAN (R347, R377) -/

/-- A plan is handed to its core. -/
def Dev.handPlan (d : Dev) (x : QCmd) (refetch : Nat) : Dev :=
  let core := fld (envPayload x.env) 255 248
  let r : PlanRun := { cmd := x.id, ctx := x.ctx, va := fld (envPayload x.env) 47 0 }
  (d.updCore core fun co => if co.run.isNone then { co with run := some r } else { co with waiting := co.waiting ++ [r] }).refetched (core / 8) refetch

end Sys2Proof.Machine
end

