-- ==== Sys2Proof/Machine/Coll.lean ====
section
/-! DEFINITION. The sum over all: collective groups, ALLSUM commands, nodes, collective packets, confirmation, verdict and
poison (spec/14_collectives.md R316 to R332). Readings that the manual leaves to the model are in log entry 19. -/

namespace Sys2Proof.Machine

/-! ### Groups (R316 to R319) -/

/-- The members of a group's list, as (GEID, H-die). -/
def memberList (bs : List Byte) : List Nat := (chunks 4 bs).map leNat

/-- Is slot `k` free? -/
def Dev.slotFree (d : Dev) (k : Nat) : Bool := (d.group k).isNone

/-- Does another group of the partition hold GROUP_ID `g`? -/
def Dev.groupIdUsed (d : Dev) (p g : Nat) : Bool :=
  d.groups.any fun kv => match kv.2 with
    | some x => decide (x.partition = p) && decide (x.groupId = g)
    | none => false

/-- Member `j` of a list, as its neighbour keeps it. -/
def memberAt (l : List Nat) (j : Nat) : Member := ⟨j, l.getD j 0 % 2 ^ 20, fld (l.getD j 0) 20 20⟩

/-- Children of member `i` (R317). -/
def treeChildren (f m i : Nat) : List Nat := ((List.range f).map fun j => f * i + 1 + j).filter fun j => decide (j < m)

/-- The group that a descriptor's 64 bytes and list describe (R316, R317), or none where R319 rejects it. -/
def Dev.formGroup (d : Dev) (k : Nat) (head : List Byte) (l : List Nat) : Option (Nat × CollGroup) :=
  let m := leNat (head.take 4)
  let gid := leNat ((head.drop 4).take 2)
  let f := (head.getD 6 0#8).toNat
  let slot := (head.getD 7 0#8).toNat
  let geids := l.map (· % 2 ^ 20)
  let p := (d.ctx k).partition
  if (head.drop 8).any (· != 0#8) || (l.any fun e => decide (2 ^ 21 ≤ e)) || decide (63 < slot) || (dedupe geids).length != m
      || !d.slotFree slot || d.groupIdUsed p gid then none
  else
    match geids.findIdx? fun g => decide (g = d.geid) with
    | none => none
    | some i =>
      some (slot, { state := .pendingCreate, groupId := gid, ctx := k, partition := p, m := m, f := f, self := memberAt l i
                    parent := if i = 0 then none else some (memberAt l ((i - 1) / f))
                    children := (treeChildren f m i).map (memberAt l) })

/-- The GROUP_CREATE command at work. -/
def Dev.runGroupCreate (d : Dev) (c : Clock) (q : QCmd) : Dev :=
  let w := whoCmd q
  let va := fld (envPayload q.env) 47 0
  let bad := fun (d : Dev) => d.cmdFault q.id q.ctx .collInvalid 0
  d.unitRun c w fun d =>
    if va % 64 != 0 then .ok (bad d)
    else
      match d.load w va 64 with
      | .error b => .error b
      | .ok (head, poison) =>
        let m := leNat (head.take 4)
        let f := (head.getD 6 0#8).toNat
        if poison || m = 0 || decide (16384 < m) || decide (f < 2) || decide (8 < f) then .ok (bad d)
        else
          (d.load w (va + 64) (4 * m)).map fun x =>
            if x.2 then bad d
            else
              match d.formGroup q.ctx head (memberList x.1) with
              | none => bad d
              | some (slot, g) => d.setGroup slot (some g)

/-- The GROUP_DESTROY command at work. -/
def Dev.runGroupDestroy (d : Dev) (q : QCmd) : Dev :=
  let slot := fld (envPayload q.env) 5 0
  match (d.group slot).filter fun g => g.ctx = q.ctx && g.state != .pendingCreate with
  | some g => (d.setGroup slot (some { g with state := .pendingDestroy })).cmdWork q.id
  | none => d.cmdFault q.id q.ctx .collInvalid 0

/-- Groups as a turnover changes them (R318). -/
def Dev.applyGroups (d : Dev) : Dev :=
  (List.range 64).foldl (fun d k =>
    match d.group k with
    | some g => d.setGroup k (if g.state = .pendingDestroy then none else some { g with state := .inForce })
    | none => d) d

/-- The groups of a context are destroyed at its teardown (R318). -/
def Dev.dropGroups (d : Dev) (ctx : Nat) : Dev :=
  (List.range 64).foldl (fun d k =>
    match d.group k with
    | some g => if g.ctx = ctx then d.setGroup k none else d
    | none => d) d

/-! ### The ALLSUM descriptor (R320, R321) -/

/-- An ALLSUM as a descriptor word gives it. -/
def Allsum.ofWord (cmd ctx x : Nat) : Allsum :=
  { cmd := cmd, ctx := ctx, slot := fld x 137 132, seq := fld x 145 138, n := fld x 123 96, fmtIn := fld x 127 124
    fmtOut := fld x 131 128, src := fld x 47 0, dst := fld x 95 48, chunkValve := if bit x 146 then some (fld x 160 147) else none }

/-- Is an ALLSUM accepted? -/
def Dev.allsumOk (d : Dev) (word : Nat) (a : Allsum) : Bool :=
  fld word 511 161 = 0 && decide (a.fmtIn ≤ 1) && decide (a.fmtOut ≤ 1) && a.n != 0 && a.src % 64 = 0 && a.dst % 64 = 0
    && (if a.dst = a.src then a.fmtIn = a.fmtOut
        else !overlaps a.src (a.n * collBytes a.fmtIn) a.dst (a.n * collBytes a.fmtOut))
    && (match d.group a.slot with
      | some g => g.state != .pendingCreate && g.ctx = a.ctx && !g.used.contains a.seq
      | none => false)
    && (match a.chunkValve with
      | some v => d.valveUsable a.ctx v
      | none => true)

/-! ### Parts of a running ALLSUM -/

def Allsum.chunk (a : Allsum) (c : Nat) : Chunk := (a.chunks.find? fun k => k.c = c).getD { c := c }
def Allsum.setChunk (a : Allsum) (k : Chunk) : Allsum := { a with chunks := (a.chunks.filter fun x => x.c != k.c) ++ [k] }
def Dev.allsum (d : Dev) (cmd : Nat) : Option Allsum := d.allsums.find? fun a => a.cmd = cmd
def Dev.setAllsum (d : Dev) (a : Allsum) : Dev := { d with allsums := d.allsums.map fun x => if x.cmd = a.cmd then a else x }

/-- Who a node is: the issuing context, through the gateway of its own H-die. -/
def whoNode (a : Allsum) (g : CollGroup) : Who := ⟨a.ctx, a.cmd, .node a.cmd g.self.hdie, 32⟩

/-- The edges of a node. -/
def CollGroup.edges (g : CollGroup) : List Member := g.parent.toList ++ g.children

/-! ### Sending (R326) -/

/-- Bytes of a packet's payload (R300, R326). -/
def collPayload (n : Nat) : Nat := 16 + alignUp n 16

/-- Send one collective packet to a neighbour. `codes` are the elements of an UP or DOWN in format `fmt`. -/
def Dev.collSend (d : Dev) (c : Clock) (a : Allsum) (g : CollGroup) (dest : Member) (op chunk fmt : Nat) (poison : Bool) (flags : Nat)
    (codes : List Nat) : Dev :=
  let e := d.takeE2e dest.geid
  let h := chMake op g.groupId a.seq g.self.index chunk codes.length fmt poison flags a.n
  let m : CollIn := ⟨BitVec.ofNat 12 (d.domainOf g.partition), BitVec.ofNat 128 h, collPack fmt codes⟩
  let s := (e.1.sendTo c (some a.ctx) g.partition dest.geid e.2 (.collective m)).1
  if op = 1 || op = 2 then s.bump 0x80C0 4 g.self.hdie (collPayload (codes.length * collBytes fmt)) else s

/-- Send to each of several neighbours. -/
def Dev.collSendAll (d : Dev) (c : Clock) (a : Allsum) (g : CollGroup) (dests : List Member) (op chunk fmt : Nat) (poison : Bool) (flags : Nat)
    (codes : List Nat) : Dev :=
  dests.foldl (fun d m => d.collSend c a g m op chunk fmt poison flags codes) d

/-! ### Poison after use (R330) -/

/-- The lines of [va, va + n) of a context that lie in this device become poisoned; bytes `bs` that have been written on
another device are stored again with poison. What is still to be written will be written with poison. -/
def Dev.poisonDst (d : Dev) (c : Clock) (w : Who) (va n : Nat) (bs : List Byte) : Dev :=
  (pieces va n).foldl (fun d p =>
    match d.locate w.ctx p.1 true with
    | .error _ => d
    | .ok m =>
      match m.frame with
      | .here _ => { d with mem := (linesOf (m.addr p.1) p.2).foldl (fun (x : Memory) l => x.setPoison l true) d.mem }
      | _ => if bs.isEmpty then d else match d.storePiece c w (.unitStore w.cmd w.src) p.1 ((bs.drop (p.1 - va)).take p.2) true with
        | .ok d1 => d1
        | .error _ => d) d

/-- Bytes of chunk k in the result. -/
def chunkBytes (a : Allsum) (k : Chunk) : List Byte := collPack a.fmtOut (k.down.getD [])

/-- A chunk is found poisoned after use, or its notice arrives from member `from_`: one notice along every other edge, and
every DST line of it is poisoned, whether or not it has been written (R330). -/
def Dev.noticeChunk (d : Dev) (c : Clock) (a : Allsum) (g : CollGroup) (n : Nat) (from_ : Option Nat) : Dev :=
  let k := a.chunk n
  let d1 := d.setAllsum (a.setChunk { k with poisoned := true, noticed := true })
  if k.noticed then d1
  else
    let d2 := d1.collSendAll c a g (g.edges.filter fun m => some m.index != from_) 3 n 0 true 0 []
    (d2.poisonDst c (whoNode a g) (a.dst + 1024 * n * collBytes a.fmtOut) (chunkCount a.n n * collBytes a.fmtOut)
      (if k.written then chunkBytes a k else [])).updCtx a.ctx fun x => { x with poisonWritten := true }

/-! ### The node (R323 to R328) -/

/-- Elements of a packet as FP32 patterns: its own FMT is read, and positions it lacks are free (log entry 19). -/
def collElems (free fmt count n : Nat) (body : List Byte) : List Nat :=
  let xs := collWiden (if fmt = 0 then 0 else 1) (collCodes fmt (min count n) body)
  xs ++ (List.range (n - xs.length)).map fun i => Config.freeChoice (free + i) % 2 ^ 32

/-- Sum the next chunk, if its UP packets are there: send it on (R323). -/
def Dev.nodeSum (d : Dev) (c : Clock) (a : Allsum) (g : CollGroup) : Except Bar (Option Dev) :=
  let n := a.next
  let k := a.chunk n
  if decide (chunkTotal a.n ≤ n) || !(g.children.all fun m => k.ups.any fun u => u.1 = m.index) then .ok none
  else
    let cnt := chunkCount a.n n
    match d.load (whoNode a g) (a.src + 1024 * n * collBytes a.fmtIn) (cnt * collBytes a.fmtIn) with
    | .error b => .error b
    | .ok (bs, srcPoison) =>
      let own := collCodes a.fmtIn cnt bs
      let sum := g.children.foldl (fun s m => match k.ups.find? fun u => u.1 = m.index with
        | some u => let r := collAdd s.1 u.2; (r.1, lor s.2 r.2)
        | none => s) (collWiden a.fmtIn own, 0)
      let poisoned := k.poisoned || srcPoison || d.spoiled a.cmd
      let d1 := ({ d with fetched := d.fetched.filter fun x => x.cmd != a.cmd } : Dev).bump 0x80C0 2 g.self.hdie (cnt * g.children.length)
      match g.parent with
      | none =>
        let r := collConvert a.fmtOut sum.1
        let flags := lor (lor k.flags sum.2) r.2 % 64
        let d2 := d1.setAllsum ({ a with next := n + 1 }.setChunk { k with ups := [], down := some r.1, poisoned := poisoned, upSent := true, flags := flags })
        .ok (some (d2.collSendAll c a g g.children 2 n a.fmtOut poisoned flags r.1))
      | some p =>
        let flags := lor k.flags sum.2 % 64
        let leaf := g.children.isEmpty
        let d2 := d1.setAllsum ({ a with next := n + 1 }.setChunk { k with ups := [], poisoned := poisoned, upSent := true, flags := flags })
        .ok (some (d2.collSend c a g p 1 n (if leaf then a.fmtIn else 0) poisoned flags (if leaf then own else sum.1)))

/-- The first chunk not yet written. -/
def Allsum.writeNext (a : Allsum) : Nat := (a.chunks.filter fun k => k.written).length

/-- Write the next chunk of the result, if it is there (R323, R329). -/
def Dev.nodeWrite (d : Dev) (c : Clock) (a : Allsum) (g : CollGroup) : Except Bar (Option Dev) :=
  let n := a.writeNext
  let k := a.chunk n
  match k.down with
  | none => .ok none
  | some codes =>
    if k.written || decide (chunkTotal a.n ≤ n) then .ok none
    else
      (d.unitStore c (whoNode a g) (a.dst + 1024 * n * collBytes a.fmtOut) (collPack a.fmtOut codes) k.poisoned).map fun d1 =>
        let d2 := if k.poisoned then d1.updCtx a.ctx fun x => { x with poisonWritten := true } else d1
        some ((d2.setAllsum (a.setChunk { k with written := true, mark := d2.reqNext })).closeFor c (whoNode a g))

/-- Chunk signals that are due (R328): the chunk and every earlier one written and retired. -/
def Dev.nodeSignals (d : Dev) (a : Allsum) : Option Dev :=
  match a.chunkValve with
  | none => none
  | some v =>
    if a.valves < a.writeNext && !d.storesBefore a.cmd (a.chunk a.valves).mark then
      some ((d.setAllsum { a with valves := a.valves + 1 }).signalOp a.ctx v 1)
    else none

/-- POISON and FLAGS of a member's CONFIRM (R327). -/
def Allsum.confirmOf (a : Allsum) : Bool × Nat :=
  a.confirms.foldl (fun x y => (x.1 || y.2.1, lor x.2 y.2.2)) ((a.chunks.any fun k => k.poisoned), a.chunks.foldl (fun f k => lor f k.flags) 0)

/-- A VERDICT ends the ALLSUM on this member (R327): forwarded, its flags taken, the command's work done. -/
def Dev.takeVerdict (d : Dev) (c : Clock) (a : Allsum) (g : CollGroup) (poison : Bool) (flags count : Nat) : Dev :=
  let d1 := d.collSendAll c a g g.children 5 count 0 poison flags []
  let d2 := ({ d1 with allsums := d1.allsums.filter fun x => x.cmd != a.cmd } : Dev).flagN a.ctx (flags % 64)
  let d3 := (d2.bump 0x80C0 1 0 1).bump 0x80C0 5 0 (if poison then count else 0)
  if poison then
    ((d3.updCmd a.cmd fun q => { q with status := if q.status.isSome then q.status else some .collPoisoned }).raise a.ctx .collPoisoned).unitDone c
      (whoNode a g)
  else d3.unitDone c (whoNode a g)

/-- A member that has written everything and holds its children's CONFIRMs sends its own; the root sends the VERDICT. -/
def Dev.nodeConfirm (d : Dev) (c : Clock) (a : Allsum) (g : CollGroup) : Option Dev :=
  if a.confirmed || decide (a.writeNext < chunkTotal a.n) || d.storesOut a.cmd
      || !(g.children.all fun m => a.confirms.any fun x => x.1 = m.index) then none
  else
    let x := a.confirmOf
    let d1 := d.setAllsum { a with confirmed := true }
    match g.parent with
    | some p => some (d1.collSend c a g p 4 0 0 x.1 x.2 [])
    | none => some (d1.takeVerdict c a g x.1 x.2 ((a.chunks.filter fun k => k.poisoned).length))

/-- The next step of a node: a chunk written, a chunk summed, a chunk signalled, or its confirmation; none where it waits. -/
def Dev.nodeStep (d : Dev) (c : Clock) (a : Allsum) (g : CollGroup) : Option (Except Bar Dev) :=
  match d.nodeWrite c a g with
  | .error b => some (.error b)
  | .ok (some d1) => some (.ok d1)
  | .ok none =>
    match d.nodeSum c a g with
    | .error b => some (.error b)
    | .ok (some d1) => some (.ok d1)
    | .ok none => ((d.nodeSignals a).or (d.nodeConfirm c a g)).map .ok

/-- An ALLSUM goes on as far as it can: an absent page halts its node at its chunk, an access not permitted stops it (R324). -/
def Dev.nodeGo (d : Dev) (c : Clock) (a : Allsum) : Dev := d.unitGo c fun d =>
  match d.allsum a.cmd with
  | none => none
  | some a =>
    match a.started, d.group a.slot with
    | true, some g => (d.nodeStep c a g).map fun r => (whoNode a g, r)
    | _, _ => none

/-! ### Packets that arrive (R324, R329) -/

/-- The slot of the group in force that a packet names, if its SENDER is the neighbour its OP needs. -/
def Dev.collSlot (d : Dev) (m : CollIn) : Option Nat :=
  let h := m.header.toNat
  (List.range 64).find? fun k => match d.group k with
    | none => false
    | some g =>
      g.state != .pendingCreate && g.groupId = chGroup h && d.domainOf g.partition = m.domain.toNat
        && (match chOp h with
          | 1 | 4 => g.children.any fun x => x.index = chSender h
          | 2 | 5 => g.parent.any fun x => x.index = chSender h
          | 3 => g.edges.any fun x => x.index = chSender h
          | _ => false)

/-- COLL_MISMATCH of a chunk (R329). -/
def Dev.collMismatch (d : Dev) (a : Allsum) (g : CollGroup) : Dev := d.raiseAt a.ctx .collMismatch 0 .hdie g.self.hdie

/-- An UP packet for a started ALLSUM. A residue mismatch in the adders that sum it is found after the chunk has been
sent, if it can be sent (R330). -/
def Dev.upIn (d : Dev) (c : Clock) (a : Allsum) (g : CollGroup) (x : CollSeen) : Dev :=
  let m := x.m
  let residue := x.seen.any stepMismatch
  let h := m.header.toNat
  let n := chChunk h
  let from_ := chSender h
  let expect := if decide (g.f * from_ + 1 < g.m) then 0 else a.fmtIn
  let bad := chN h != a.n || chFmt h != expect
  let d0 := if bad then d.collMismatch a g else d
  if chunkTotal a.n ≤ n then d0
  else
    let k := a.chunk n
    let xs := collElems d0.freeCtr (chFmt h) (chCount h) (chunkCount a.n n) m.body
    let late := k.upSent
    let lost := x.bufferError && !late
    let k1 : Chunk := { k with ups := (k.ups.filter fun u => u.1 != from_) ++ [(from_, xs)], flags := lor k.flags (chFlags h)
                               poisoned := k.poisoned || chPoison h || bad || lost }
    let d1 := ((if lost then d0.uncorrected a.ctx else d0).tickFree.setAllsum (a.setChunk (if late then { k with poisoned := k1.poisoned } else k1))).nodeGo c a
    let d2 := if residue then
        ((d1.raiseUncorrected a.ctx .residueError .hdie g.self.hdie).flagN a.ctx 64).bump 0x8010 3 0 1
      else d1
    match d2.allsum a.cmd with
    | some a2 =>
      let sent := (a2.chunk n).upSent
      if residue && !sent then d2.setAllsum (a2.setChunk { a2.chunk n with poisoned := true })
      else if residue || (late && (chPoison h || bad)) then d2.noticeChunk c a2 g n none
      else d2
    | none => d2

/-- A DOWN packet for a started ALLSUM: forwarded unchanged, but for the poison it has gained (R323, R329). -/
def Dev.downIn (d : Dev) (c : Clock) (a : Allsum) (g : CollGroup) (x : CollSeen) : Dev :=
  let m := x.m
  let h := m.header.toNat
  let n := chChunk h
  let bad := chFmt h != a.fmtOut
  let d0 := if bad then d.collMismatch a g else d
  let k := a.chunk n
  if chunkTotal a.n ≤ n || k.down.isSome then d0
  else
    let cnt := chunkCount a.n n
    let codes := collCodes (if chFmt h = 0 then 0 else 1) (min (chCount h) cnt) m.body
    let own := if bad then (collConvert a.fmtOut (collElems d0.freeCtr (chFmt h) (chCount h) cnt m.body)).1
      else codes ++ (List.range (cnt - codes.length)).map fun i => Config.freeChoice (d0.freeCtr + i) % 2 ^ (8 * collBytes a.fmtOut)
    let poison := k.poisoned || chPoison h || bad || x.bufferError
    let a1 := a.setChunk { k with down := some own, poisoned := poison }
    let d1 := ((if x.bufferError then d0.uncorrected a.ctx else d0).tickFree.setAllsum a1).collSendAll c a1 g g.children 2 n (chFmt h) poison (chFlags h) codes
    let d2 := if bad then d1.noticeChunk c a1 g n none else d1
    d2.nodeGo c a1

/-- A packet for a started ALLSUM. -/
def Dev.collTake (d : Dev) (c : Clock) (a : Allsum) (g : CollGroup) (x : CollSeen) : Dev :=
  let h := x.m.header.toNat
  match chOp h with
  | 1 => d.upIn c a g x
  | 2 => d.downIn c a g x
  | 3 => if chChunk h < chunkTotal a.n then d.noticeChunk c a g (chChunk h) (some (chSender h)) else d
  | 4 =>
    let a1 := { a with confirms := (a.confirms.filter fun x => x.1 != chSender h) ++ [(chSender h, chPoison h, chFlags h)] }
    (d.setAllsum a1).nodeGo c a1
  | _ => d.takeVerdict c a g (chPoison h) (chFlags h) (chChunk h)

/-- A packet at its node: taken, or held until its ALLSUM starts. -/
def Dev.collDeliver (d : Dev) (c : Clock) (slot : Nat) (x : CollSeen) : Dev :=
  match d.allsums.find? fun a => a.started && a.slot = slot && a.seq = chSeq x.m.header.toNat, d.group slot with
  | some a, some g => d.collTake c a g x
  | _, _ => { d with collHeld := d.collHeld ++ [x] }

/-- ALLSUMs that run on an H-die (R322). -/
def Dev.sumsRunning (d : Dev) (h : Nat) : Nat :=
  (d.allsums.filter fun a => a.started && (d.group a.slot).any fun g => decide (g.self.hdie = h)).length

/-- ALLSUMs whose command has ended with a fault are gone, and waiting ones start, in the order in which they became
eligible; `fuel` bounds the starts. -/
def startSums (c : Clock) : Nat → Dev → Dev
  | 0, d => d
  | f + 1, d0 =>
    let d : Dev := { d0 with allsums := d0.allsums.filter fun a => (d0.cmd a.cmd).any fun q => !q.completed }
    match d.allsums.find? fun a => a.known && !a.started && (d.group a.slot).any fun g => decide (d.sumsRunning g.self.hdie < 8) with
    | none => d
    | some a =>
      let mine := fun (x : CollSeen) => d.collSlot x.m = some a.slot && chSeq x.m.header.toNat = a.seq
      let d1 := ({ d with collHeld := d.collHeld.filter fun x => !mine x } : Dev).setAllsum { a with started := true }
      let d2 := (d.collHeld.filter mine).foldl (fun d x => d.collDeliver c a.slot x) d1
      startSums c f (match d2.allsum a.cmd with
        | some x => d2.nodeGo c x
        | none => d2)

def Dev.startAllsums (d : Dev) (c : Clock) : Dev := startSums c (2 * d.allsums.length + 2) d

/-- A COLLECTIVE packet of operation `op` arrives at this device (R324). After the deadline its node has stopped, and holds
it until the turnover clears it (R331). -/
def Dev.collIn (d : Dev) (c : Clock) (op : Nat) (x : CollSeen) : Dev :=
  let m := x.m
  let h := m.header.toNat
  if chOp h != op && decide (1 ≤ chOp h) && decide (chOp h ≤ 5) then d
  else
    match d.collSlot m with
    | none => d.bump 0x80C0 6 0 1
    | some slot =>
      let g := (d.group slot).map fun g => g.self.hdie
      let d1 := if op = 1 || op = 2 then d.bump 0x80C0 3 (g.getD 0) (collPayload m.body.length) else d
      if c.stage != .work then { d1 with collHeld := d1.collHeld ++ [x] } else (d1.collDeliver c slot x).startAllsums c

/-! ### The ALLSUM command (R320 to R322) -/

/-- The place of an ALLSUM whose descriptor is still to be read, in the order in which they became eligible (R322). -/
def Allsum.unread (q : QCmd) : Allsum :=
  { cmd := q.id, ctx := q.ctx, slot := 0, seq := 0, n := 0, fmtIn := 0, fmtOut := 0, src := 0, dst := 0, chunkValve := none, known := false }

/-- An ALLSUM whose descriptor has been read takes its place, if it is accepted. -/
def Dev.enterAllsum (d : Dev) (q : QCmd) (word : Nat) (poison : Bool) : Dev :=
  let a := Allsum.ofWord q.id q.ctx word
  if poison || !d.allsumOk word a then d.cmdFault q.id q.ctx .collInvalid 0
  else
    let d1 := ({ d with fetched := d.fetched.filter fun y => y.cmd != q.id } : Dev).setAllsum a
    match d1.group a.slot with
    | some g => d1.setGroup a.slot (some { g with used := g.used ++ [a.seq] })
    | none => d1

/-- The ALLSUM command at work: it takes its place, is checked once its descriptor is there, and goes on where it had to
wait. -/
def Dev.runAllsum (d0 : Dev) (c : Clock) (q : QCmd) : Dev :=
  let d : Dev := if (d0.allsum q.id).isSome then d0 else { d0 with allsums := d0.allsums ++ [Allsum.unread q] }
  match (d.allsum q.id).filter (·.known) with
  | some a => (d.nodeGo c a).startAllsums c
  | none =>
    let va := fld (envPayload q.env) 47 0
    if va % 64 != 0 then (d.cmdFault q.id q.ctx .collInvalid 0).startAllsums c
    else (d.unitPart c (whoCmd q) fun d => (d.load (whoCmd q) va 64).map fun x => d.enterAllsum q (leNat x.1) x.2).startAllsums c

/-! ### The buffers (R325) -/

/-- Bytes in a half of the collective buffer of an H-die's node: UP chunks not yet summed and packets held, or DOWN chunks not
yet written. -/
def Dev.collFill (d : Dev) (h : Nat) (up : Bool) : Nat :=
  let here := fun (slot : Nat) => (d.group slot).any fun g => decide (g.self.hdie = h)
  let op := if up then 1 else 2
  let held := d.collHeld.filter fun x => decide (chOp x.m.header.toNat = op) && (d.collSlot x.m).any here
  let ofChunk := fun (a : Allsum) (k : Chunk) => if up then k.ups.foldl (fun n u => n + 4 * u.2.length) 0
    else if k.written then 0 else (k.down.getD []).length * collBytes a.fmtOut
  held.foldl (fun n x => n + x.m.body.length) 0
    + ((d.allsums.filter fun a => a.started && here a.slot).map fun a => a.chunks.foldl (fun n k => n + ofChunk a k) 0).foldl (· + ·) 0

/-- Is a half of 4 MiB full, on either H-die? -/
def Dev.collFull (d : Dev) : Bool := (List.range 2).any fun h => decide (4194304 ≤ d.collFill h true) || decide (4194304 ≤ d.collFill h false)

/-- Every link's frames carry the XOFF bits that the receive buffers, the Tridal ingress and the collective buffer call for. -/
def Dev.flowControl (d : Dev) : Dev := d.advertise (!d.tridalWait.isEmpty) d.collFull

/-! ### The turnover (R331) -/

/-- Every node's buffer, held packets and ALLSUM state are cleared; group slots stay. -/
def Dev.clearColl (d : Dev) : Dev :=
  let d1 : Dev := { d with allsums := [], collHeld := [] }
  { d1 with groups := d1.groups.map fun kv => (kv.1, kv.2.map fun g => { g with used := [] }) }

end Sys2Proof.Machine
end

