-- ==== Sys2Proof/Machine/Sorter.lean ====
section
/-! DEFINITION. The score sorters: the SELECT command (spec/07_tridal_scoring.md R141 to R162). -/

namespace Sys2Proof.Machine

/-- The configuration of a layer slot in force (R162, R189); reserved values count as the default (R4). -/
def Dev.layer (d : Dev) (s : Nat) : LayerCfg :=
  let v := fun sub => d.v (0x6100 + s) sub 0
  { k := v 1, spares := v 2, weightMode := if v 3 = 0 then 0 else 1, exitEnable := v 4 = 1, confSource := if v 5 = 1 then 1 else 0
    exitThr := v 6, fullMode := if v 0x10 = 1 then 1 else 0, spillPasses := v 0x11, priority := if v 0x12 = 1 then 1 else 0, renorm := v 0x13 }

/-- A context's unit reads a control structure of `n` bytes: its word, or none where a line of it is poisoned (R461). -/
def Dev.loadWord (d : Dev) (w : Who) (va n : Nat) : Except Bar (Option Nat) :=
  (d.load w va n).map fun x => if x.2 then none else some (leNat x.1)

/-- Bytes of a list of 16-byte entries. -/
def entryBytes (es : List Nat) : List Byte := (es.map (natLe 16)).flatten

/-- The sorter of a cluster, at work for a SELECT: its accesses are the context's (R145), its stores its cluster's (R420). -/
def whoSorter (r : SelectRun) (x : SelectDesc) : Who := ⟨r.ctx, r.cmd, .sorter x.sorter, x.sorter⟩

/-- Residue mismatches among the steps of a token's weights (R149): there are steps only where weights are formed. -/
def weightFaults (l : LayerCfg) (scores : List Nat) (t : Nat) (steps : List StepSeen) : Nat :=
  if l.weightMode = 0 || ((rankRow (listLen l) scores).head?).any (fun x => (f32 x.2).isNan) then 0
  else ((mismatches steps).filter (· = t)).length

/-- One token of a SELECT (R145 to R158). -/
def Dev.selectOne (d : Dev) (c : Clock) (q : QCmd) (r : SelectRun) (x : SelectDesc) : Except Bar Dev :=
  let t := r.next
  let w := whoSorter r x
  let l := d.layer x.layer
  let slot := (x.slotBase + t) % 2 ^ 17
  let n := listLen l
  let out := (x.outAddr + t * n * 16) % 2 ^ 48
  let mapAt := (x.exitMapAddr + slot) % 2 ^ 48
  match (if x.exitMapEn then d.load w mapAt 1 else .ok ([0#8], false)) with
  | .error b => .error b
  | .ok (m, mp) =>
    let home : Dev := { d with slotHome := SMap.put (fun _ => 0) d.slotHome slot (x.sorter + 1) }
    if (m.headD 0#8) != 0#8 then
      ((home.unitStore c w out (entryBytes (exitRecord l d.geid slot mp)) false).map fun d =>
        (if mp then d.flagT w.ctx 4 else d).bump 0x8050 4 x.sorter 1)
    else
      let e := fmtBits x.fmt / 8
      match d.load w ((x.scoreAddr + t * x.stride) % 2 ^ 48) (scoreRowBytes l x) with
      | .error b => .error b
      | .ok (bs, sp) =>
        let wide := (chunks e bs).map fun y => widen x.fmt (leNat y)
        let vals := wide.map (·.1)
        let disagree := q.found.contains t
        let faults := weightFaults l (vals.take x.e) t q.steps
        let o := selectToken l d.geid slot (vals.take x.e) (vals.getD x.e 0) (sp || mp) (disagree || faults != 0)
        let d1 := ((home.bump 0x8050 2 x.sorter 1).flagT w.ctx o.tflags).flagN w.ctx (wide.foldl (fun f y => lor f y.2) o.nflags)
        let d2 := if disagree then d1.raiseUncorrected w.ctx .sorterCheck .cluster x.sorter else d1
        let d3 := (List.range faults).foldl (fun d _ => d.residueError w.ctx 2 .cluster x.sorter) d2
        let d4 := if anyNan (vals.take x.e) then d3.bump 0x8050 5 x.sorter 1 else d3
        let d5 := if o.exits then d4.bump 0x8050 3 x.sorter 1 else d4
        match d5.unitStore c w out (entryBytes o.record) false with
        | .error b => .error b
        | .ok d6 => if o.exits && x.exitMapEn then d6.unitStore c w mapAt [1#8] false else .ok d6

def Dev.setSelect (d : Dev) (r : SelectRun) : Dev := { d with selects := d.selects.map fun x => if x.cmd = r.cmd then r else x }

/-- The descriptor of a SELECT is read and judged (R144, R388, R461). -/
def Dev.readSelect (d : Dev) (q : QCmd) (r : SelectRun) : Except Bar Dev :=
  (d.loadWord (whoCmd q) (envPayload q.env) 64).map fun word =>
    match word with
    | none => d.cmdFault q.id q.ctx .selectInvalid 0
    | some word =>
      let x := SelectDesc.ofWord word
      if !selectOk (d.layer x.layer) x || decide (d.clusterOwner x.sorter ≠ some (d.ctx q.ctx).partition) then
        d.cmdFault q.id q.ctx .selectInvalid 0
      else if d.clusterFaulted x.sorter then d.cmdFault q.id q.ctx .functionFaulted 0
      else { d.setSelect { r with desc := some x } with fetched := d.fetched.filter fun y => y.cmd != q.id }

/-- Has a SELECT neither ended nor read its last score? -/
def Dev.selecting (d : Dev) (r : SelectRun) : Bool := (d.cmd r.cmd).any fun q => !q.ran && !q.completed

/-- Is the sorter still taken by a SELECT that became eligible earlier (R141)? One whose descriptor has not been read may
name any sorter of its partition (log entry 104). -/
def Dev.sorterTaken (d : Dev) (r : SelectRun) (x : SelectDesc) : Bool :=
  (d.selects.takeWhile fun y => y.cmd != r.cmd).any fun y => d.selecting y && (match y.desc with
    | some z => decide (z.sorter = x.sorter)
    | none => decide ((d.ctx y.ctx).partition = (d.ctx r.ctx).partition))

/-- The next step of a SELECT: its descriptor, a token, or its end; none while its sorter serves another. -/
def Dev.selectStep (d : Dev) (c : Clock) (cmd : Nat) : Option (Who × Except Bar Dev) :=
  match d.selects.find? fun r => r.cmd = cmd, d.cmd cmd with
  | some r, some q =>
    if !d.selecting r then none
    else
      match r.desc with
      | none => some (whoCmd q, d.readSelect q r)
      | some x =>
        if d.sorterTaken r x then none
        else if r.next < x.t then
          some (whoSorter r x, (d.selectOne c q r x).map fun d =>
            { d.setSelect { r with next := r.next + 1 } with fetched := d.fetched.filter fun y => y.cmd != cmd })
        else some (whoSorter r x, .ok (d.unitDone c (whoSorter r x)))
  | _, _ => none

/-- Every SELECT goes on as far as it can, in the order in which they became eligible (R141, R145). -/
def Dev.selectsGo (d : Dev) (c : Clock) : Dev :=
  (d.selects.map (·.cmd)).foldl (fun d cmd => d.unitGo c fun d => d.selectStep c cmd) d

/-- A SELECT becomes eligible, with what its checkers will see. -/
def Dev.enterSelect (d : Dev) (c : Clock) (q : QCmd) (disagree : List Nat) (steps : List StepSeen) : Dev :=
  (({ d with selects := d.selects ++ [({ cmd := q.id, ctx := q.ctx } : SelectRun)] } : Dev).updCmd q.id fun y =>
    { y with found := disagree, steps := steps }).selectsGo c

end Sys2Proof.Machine
end

