-- ==== Sys2Proof/Machine/Tridal.lean ====
section
/-! DEFINITION. Rounds: capacity, grants, dispatch, return and combine (spec/08_tridal_dispatch.md R164 to R187). -/

namespace Sys2Proof.Machine

/-! ### Rounds of the device -/

def Dev.roundOf (d : Dev) (group id : Nat) : Option RoundRun :=
  d.rounds.find? fun r => r.desc.groupId = group && r.desc.roundId = id

def Dev.setRound (d : Dev) (r : RoundRun) : Dev := { d with rounds := d.rounds.map fun x => if x.cmd = r.cmd then r else x }

/-- Records of `n` entries each. -/
def roundN (r : RoundRun) : Nat := listLen r.layer

/-- Who makes a round's own accesses: descriptor, group table, owner map, inboxes and stage (log entry 105). -/
def whoRound (r : RoundRun) : Who := ⟨r.ctx, r.cmd, .command r.cmd, 32⟩

/-- Who makes the accesses of its packer on an H-die: selection list, grant list, activation rows (R178). -/
def whoPacker (r : RoundRun) (h : Nat) : Who := ⟨r.ctx, r.cmd, .packer h, 32⟩

/-- Does the round go on? Its command has not ended with a fault (R252). -/
def Dev.roundLive (d : Dev) (r : RoundRun) : Bool := (d.cmd r.cmd).any fun q => q.status.isNone

/-- The key of a record: its rank-0 tag's. -/
def recKey (x : RoundRec) : Nat := tagKey (x.entries.headD 0)

/-! ### Messages (R171) -/

/-- Send one message of a round to a member's GEID. -/
def Dev.tridalSend (d : Dev) (c : Clock) (r : RoundRun) (dest type pass count : Nat) (body : List Byte) : Dev :=
  let e := d.takeE2e dest
  let h := thMake type r.desc.roundId r.desc.groupId pass r.self count
  let s := e.1.sendTo c (some r.ctx) r.partition dest e.2 (.tridal ⟨BitVec.ofNat 64 h, BitVec.ofNat 16 e.2, body, []⟩)
  if s.2 then (if type = 1 || type = 2 then { s.1 with demandsOut := s.1.demandsOut ++ [(dest, e.2, r.ctx)] } else s.1)
  else s.1.unreachable r.ctx

/-- Entries in packets of at most 4,096 bytes (R300). -/
def Dev.tridalEntries (d : Dev) (c : Clock) (r : RoundRun) (dest type pass w : Nat) (es : List Nat) : Dev :=
  (chunks (4088 / w) es).foldl (fun d g => d.tridalSend c r dest type pass g.length (g.map (natLe w)).flatten) d

/-- The END message with the number of entries. -/
def Dev.tridalEnd (d : Dev) (c : Clock) (r : RoundRun) (dest type pass n : Nat) : Dev :=
  d.tridalSend c r dest type pass 0 (natLe 8 n)

/-- What a list of (member, entry) holds for each member, in member order. -/
def RoundRun.perMember (r : RoundRun) (xs : List (Nat × Nat)) : List (Nat × List Nat) :=
  (List.zip (List.range r.members.length) r.members).map fun m => (m.2, (xs.filter fun x => x.1 = m.1).map (·.2))

/-- The demands of a record: (owner's member index, DEMAND entry). An expert beyond the owner map has no owner: it is
refused without a demand (log entry 18). -/
def demandsOf (r : RoundRun) (x : RoundRec) : List (Nat × Nat) :=
  if !x.live then []
  else x.want.filterMap fun i =>
    let e := x.entries.getD i 0
    let ex := tagExpert e
    if ex < r.desc.e then some (r.owner.getD ex 0, deMake (fld e 127 96) ex (recKey x) i) else none

/-- Send the demands of the pass under way to every member (R170, R173). -/
def Dev.sendDemands (d : Dev) (c : Clock) (r : RoundRun) : Dev :=
  let all := r.recs.map (demandsOf r)
  let cnt := fun (h : Nat) => (List.zip all r.homes).foldl (fun n x => if x.2 = h then n + x.1.length else n) 0
  let d1 := (d.bump 0x8060 2 0 (cnt 0)).bump 0x8060 2 1 (cnt 1)
  (r.perMember all.flatten).foldl (fun d m =>
    (d.tridalEntries c r m.1 1 r.opass 16 m.2).tridalEnd c r m.1 2 r.opass m.2.length) d1

/-! ### Opening (R164 to R170) -/

/-- A list of `n` little-endian numbers of `w` bytes, or none where a line of it is poisoned. -/
def Dev.loadList (d : Dev) (w : Who) (va n width : Nat) : Except Bar (Option (List Nat)) :=
  (d.load w va (n * width)).map fun x => if x.2 then none else some ((chunks width x.1).map leNat)

/-- The inbox entries of the experts a member owns, or none where R167 or R461 refuses them. -/
def Dev.loadInboxes (d : Dev) (w : Who) (x : RoundDesc) (self : Nat) (owner : List Nat) : Except Bar (Option (List Expert)) :=
  (List.zip (List.range owner.length) owner).foldl (fun r o => match r with
    | .error b => .error b
    | .ok none => .ok none
    | .ok (some es) =>
      if o.2 != self then .ok (some es)
      else match d.loadWord w ((x.inboxTable + 16 * o.1) % 2 ^ 48) 16 with
        | .error b => .error b
        | .ok none => .ok none
        | .ok (some e) =>
          if inboxRsvd e != 0 || inboxAddr e % 64 != 0 || decide (131072 < inboxCapacity e) then .ok none
          else .ok (some (es ++ [({ e := o.1, entry := e } : Expert)]))) (.ok (some []))

/-- One record of the selection list as the round takes it (R170). -/
def openRecord (l : LayerCfg) (geid slot : Nat) (bs : List Byte) (poison : Bool) : RoundRec :=
  let es := (chunks 16 bs).map leNat
  if es.any fun e => tagSlot e != slot || tagGeid e != geid then
    { entries := exitRecord l geid slot false, mismatch := true, sels := poison }
  else if tagExit (es.headD 0) then { entries := es, sels := poison }
  else { entries := es, live := true, want := List.range l.k, out := l.k, nxt := l.k, sels := poison }

/-- Sequence numbers of the records (R169). -/
def Dev.loadSeqs (d : Dev) (w : Who) (x : RoundDesc) : Except Bar (List Nat) :=
  if x.seqMap = 0 then .ok [] else (d.load w x.seqMap (2 * x.t)).map fun y => (chunks 2 y.1).map fun b => leNat b % 4096

/-- The members and owner map of a round, or none where R167 refuses them. -/
def Dev.loadGroup (d : Dev) (w : Who) (x : RoundDesc) : Except Bar (Option (List Nat × Nat × List Nat)) :=
  match d.loadWord w x.group 4 with
  | .error b => .error b
  | .ok none => .ok none
  | .ok (some m) =>
    if m = 0 || decide (1024 < m) then .ok none
    else match d.loadList w ((x.group + 4) % 2 ^ 48) m 4, d.loadList w x.ownerMap x.e 2 with
      | .error b, _ => .error b
      | _, .error b => .error b
      | .ok (some ms), .ok (some ow) =>
        match ms.findIdx? fun g => decide (g = d.geid) with
        | none => .ok none
        | some self => .ok (if ms.any (fun g => decide (2 ^ 20 ≤ g)) || !nodup ms || ow.any (fun o => decide (m ≤ o)) then none else some (ms, self, ow))
      | _, _ => .ok none

/-- A round as it opens, or none where it is rejected. Its records are still to be read. -/
def Dev.formRound (d : Dev) (w : Who) (q : QCmd) : Except Bar (Option RoundRun) :=
  match d.loadWord w (envPayload q.env) 128 with
  | .error b => .error b
  | .ok none => .ok none
  | .ok (some word) =>
    let x := RoundDesc.ofWord word
    let l := d.layer x.layer
    if !roundDescOk l x || d.roundsOpened.contains (x.groupId, x.roundId) || decide (16 ≤ d.roundsOpened.length) then .ok none
    else
      match d.loadGroup w x with
      | .error b => .error b
      | .ok none => .ok none
      | .ok (some (ms, self, ow)) =>
        match d.loadInboxes w x self ow, d.loadSeqs w x with
        | .error b, _ => .error b
        | _, .error b => .error b
        | .ok none, _ => .ok none
        | .ok (some ex), .ok seqs =>
          if 262144 < ex.foldl (fun n e => n + inboxCapacity e.entry) 0 then .ok none
          else .ok (some { cmd := q.id, ctx := q.ctx, partition := (d.ctx q.ctx).partition, desc := x, layer := l, members := ms, self := self
                           owner := ow, experts := ex, recs := List.replicate x.t {}, seqs := seqs
                           homes := (List.range x.t).map fun t => clusterHdie (SMap.get (fun _ => 0) d.slotHome (x.slotBase + t) - 1) })

/-- Record `t` of a round. -/
def RoundRun.record (r : RoundRun) (t : Nat) : RoundRec := r.recs.getD t {}

/-- The packer of an H-die in a round. -/
def RoundRun.packer (r : RoundRun) (h : Nat) : PackerRun := r.packers.getD h {}
def RoundRun.setPacker (r : RoundRun) (h : Nat) (p : PackerRun) : RoundRun := { r with packers := r.packers.set h p }

/-- The first record from `t` on whose home is an H-die. -/
def RoundRun.nextAt (r : RoundRun) (h t : Nat) : Option Nat := ((r.homes.drop t).findIdx? fun x => decide (x = h)).map (· + t)

/-- A packer reads its next record of the selection list (R170). -/
def Dev.takeRecord (d : Dev) (r : RoundRun) (h t : Nat) : Except Bar Dev :=
  let n := roundN r
  (d.load (whoPacker r h) ((r.desc.sel + t * n * 16) % 2 ^ 48) (n * 16)).map fun y =>
    let x := openRecord r.layer d.geid (r.desc.slotBase + t) y.1 y.2
    let d1 := d.setRound ({ r with recs := r.recs.set t x }.setPacker h { r.packer h with taken := t + 1 })
    { (if x.mismatch then d1.raiseAt r.ctx .slotMismatch 0 .hdie h else d1) with fetched := d.fetched.filter fun z => z.cmd != r.cmd }

/-- Have both packers read every record? -/
def RoundRun.allTaken (r : RoundRun) : Bool := [0, 1].all fun h => (r.nextAt h (r.packer h).taken).isNone

/-! ### The packers (R178) -/

/-- One record: 16-byte header, row padded with zeros to a multiple of 16. -/
def packRecord (tag pos : Nat) (row : List Byte) : List Byte :=
  natLe 8 tag ++ natLe 4 pos ++ natLe 4 0 ++ row ++ List.replicate (alignUp row.length 16 - row.length) 0#8

/-- Records of one destination in buckets of whole records: (records, bytes requested). -/
def packBuckets (recs : List (List Byte × Bool)) : List (List (List Byte × Bool) × Nat) :=
  let size := fun (g : List (List Byte × Bool)) => g.foldl (fun n x => n + x.1.length) 0
  let st := recs.foldl (fun (st : List (List (List Byte × Bool) × Nat) × List (List Byte × Bool)) r =>
    if 262144 < r.1.length then (st.1 ++ [([r], r.1.length)], st.2)
    else if 262144 < size st.2 + r.1.length then (st.1 ++ [(st.2, 262144)], [r])
    else (st.1, st.2 ++ [r])) ([], [])
  st.1 ++ (if st.2.isEmpty then [] else [(st.2, size st.2)])

/-- The jobs of one packer for a list of (destination GEID, record) in sorted order. -/
def packJobs (r : RoundRun) (cmd hdie type : Nat) (recs : List (Nat × List Byte × Bool)) : List PackJob :=
  (dedupe (recs.map (·.1))).flatMap fun g =>
    (packBuckets ((recs.filter fun x => x.1 = g).map (·.2))).map fun b =>
      ⟨cmd, r.ctx, hdie, g, thMake type r.desc.roundId r.desc.groupId 0 r.self b.1.length, b.1, b.2⟩

/-- A packer writes a bucket and sends its message; the bucket is freed when the transfer has completed end to end. -/
def Dev.sendJob (d : Dev) (c : Clock) (j : PackJob) (h : Nat) : Dev :=
  let p := (d.ctx j.ctx).partition
  let base := d.bucketAddr p h
  let spoiled := d.spoiled j.cmd
  let put := j.recs.foldl (fun (x : Dev × Nat) r => (x.1.storeDev j.ctx (base + x.2) r.1 (r.2 || spoiled), x.2 + r.1.length)) (d, 0)
  let e := put.1.takeE2e j.dest
  let bad := ((List.zip (List.range j.recs.length) j.recs).filter fun x => x.2.2 || spoiled).map (·.1)
  let m : TridalIn := ⟨BitVec.ofNat 64 j.header, BitVec.ofNat 16 e.2, (j.recs.map (·.1)).flatten, bad⟩
  let s := e.1.sendTo c (some j.ctx) p j.dest e.2 (.tridal m)
  if s.2 then
    let id := s.1.reqNext
    let d1 := s.1.addReq ⟨0, .unitStore j.cmd (.packer j.hdie), j.ctx, j.dest, e.2, true, 0, .tridal m, false, 0⟩
    { d1 with packOut := d1.packOut ++ [(id, j.ctx, h)] }
  else (s.1.unreachable j.ctx).release j.ctx h

/-- One packer works through its jobs until its pool is empty; `fuel` bounds them. `parity` says that the manager finds a
parity error about the first bucket (R235). -/
def packerRun (c : Clock) (hdie : Nat) : Bool → Nat → Dev → Dev
  | _, 0, d => d
  | parity, n + 1, d =>
    if d.packWait.contains hdie then d
    else match d.packQueue.find? fun j => j.hdie = hdie with
      | none => d
      | some j =>
        let a := d.alloc j.ctx j.bucket hdie
        match a.2 with
        | .got h =>
          let d1 := if parity then a.1.poolCheck (a.1.ctx j.ctx).partition h else a.1
          packerRun c hdie false n ((({ d1 with packQueue := d1.packQueue.erase j } : Dev).sendJob c j h).unitSettle j.cmd)
        | _ => { a.1 with packWait := a.1.packWait ++ [hdie] }

def Dev.packersRun (d : Dev) (c : Clock) : Dev := packerRun c 1 false (d.packQueue.length + 1) (packerRun c 0 false (d.packQueue.length + 1) d)

/-- POOL_EMPTY_RETRY of a packer (R225). -/
def Dev.retryPacker (d : Dev) (c : Clock) (hdie : Nat) (parity : Bool) : Dev :=
  if c.stage = .work && d.packWait.contains hdie then
    packerRun c hdie parity (d.packQueue.length + 1) { d with packWait := d.packWait.filter (· != hdie) }
  else d

/-- A transfer has completed end to end: its bucket is freed. -/
def Dev.freePacked (d : Dev) (req : Nat) : Dev :=
  match d.packOut.find? fun x => x.1 = req with
  | none => d
  | some x =>
    let d1 : Dev := { d with packOut := d.packOut.filter fun y => y.1 != req }
    if d1.handleOk x.2.1 x.2.2 then d1.release x.2.1 x.2.2 else d1

/-! ### The ledger (R172 to R174) -/

/-- Does a device hold every END message of a pass, and as many entries as they give? -/
def passFull (r : RoundRun) (p : Nat) (ends entries : List (Nat × Nat × Nat)) : Bool :=
  (List.range r.members.length).all fun i =>
    ends.any fun e => e.1 = p && e.2.1 = i
      && decide (e.2.2 ≤ (entries.filter fun x => x.1 = p && x.2.1 = i).length)

/-- Signal the valve of an expert once (R179). -/
def Dev.signalExpert (d : Dev) (r : RoundRun) (e : Expert) : Dev := d.signalOp r.ctx (inboxValve e.entry) 1

/-- Close pass `lpass` of the ledger: the experts after it and the grants, by member index. -/
def closePass (r : RoundRun) : List Expert × List (Nat × Nat) :=
  let ds := (r.demands.filter fun x => x.1 = r.lpass).map (·.2)
  r.experts.foldl (fun st e =>
    let mine := ds.filter fun x => deExpert x.2 = e.e
    let g := closeExpert r.layer (inboxCapacity e.entry) e.a (r.suspect.contains e.e) mine
    (st.1 ++ [{ e with a := g.1 }], st.2 ++ g.2)) ([], [])

/-- The expert after its inbox has been told A_e: a whole line, its reserved bytes zero (R5, R165). -/
def Dev.writeInbox (d : Dev) (c : Clock) (r : RoundRun) (e : Expert) : Except Bar Dev :=
  (d.unitStore c (whoRound r) (inboxAddr e.entry) (natLe 64 e.a) false).map fun d =>
    d.setRound { r with experts := r.experts.map fun x => if x.e = e.e then { x with written := true, mark := d.reqNext } else x }

/-- The ledger goes on, if it can (R173): it closes its pass and sends the grants, after the last pass writes A_e into each
inbox, and sends the GRANT_ENDs. -/
def Dev.ledgerStep (d : Dev) (c : Clock) (r : RoundRun) : Option (Except Bar Dev) :=
  let last := decide (r.lpass + 1 = passCount r.layer)
  match r.closing with
  | some gs =>
    match if last then r.experts.find? fun e => !e.written else none with
    | some e => some (d.writeInbox c r e)
    | none =>
      let d1 := (r.perMember gs).foldl (fun d m => d.tridalEnd c r m.1 4 r.lpass m.2.length) (d.closeFor c (whoRound r))
      some (.ok (d1.setRound { r with lpass := r.lpass + 1, closing := none, suspect := [] }))
  | none =>
    if r.lpass ≥ passCount r.layer || !passFull r r.lpass r.demandEnds r.demands then none
    else
      let g := closePass r
      let bad := r.suspect.filter fun e => r.experts.any fun x => x.e = e
      let d1 := bad.foldl (fun d _ => d.raiseUncorrected r.ctx .ledgerCheck .hdie 0) d
      let d2 := (r.perMember g.2).foldl (fun d m => d.tridalEntries c r m.1 3 r.lpass 8 m.2) d1
      some (.ok (d2.setRound { r with experts := g.1, closing := some g.2 }))

/-- Experts whose writes have all been made and have retired are signalled, once each (R179, R231). -/
def Dev.signalFull (d : Dev) (c : Clock) (cmd : Nat) : Dev :=
  match d.rounds.find? fun r => r.cmd = cmd with
  | none => d
  | some r =>
    if c.stage != .work || !d.roundLive r || r.lpass < passCount r.layer then d
    else
      let full := fun (e : Expert) => !e.signalled && decide (e.a ≤ e.rows.length) && !d.storesBefore r.cmd e.mark
      let d1 := d.setRound { r with experts := r.experts.map fun e => if full e then { e with signalled := true } else e }
      (r.experts.filter full).foldl (fun d e => d.signalExpert r e) d1

/-! ### The origin (R175, R176, R178) -/

/-- Counters of the origin (R190). -/
def Dev.countGrants (d : Dev) (r : RoundRun) : Dev :=
  let acc := r.recs.foldl (fun n x => n + x.pos.length) 0
  let spare := r.recs.foldl (fun n x => n + (x.pos.filter fun p => decide (r.layer.k ≤ p.1)).length) 0
  let drop := r.recs.foldl (fun n x => n + x.dropped.length) 0
  let d1 := ((d.bump 0x8060 3 0 acc).bump 0x8060 4 0 spare).bump 0x8060 5 0 drop
  (List.zip r.recs r.seqs).foldl (fun d x =>
    if x.1.live then d.bump 0x8060 0x0B x.2 (r.layer.k - x.1.pos.length) else d) d1

/-- Have the passes of the origin ended (R175)? -/
def RoundRun.settled (r : RoundRun) : Bool := r.begun && decide (passCount r.layer ≤ r.opass)

/-- Has the grant list of record `t` been written (R176)? -/
def RoundRun.listed (r : RoundRun) (t : Nat) : Bool := r.settled && decide (t < (r.packer (r.homes.getD t 0)).wrote)

/-- The grant list's entries of a record, with flags (R176). -/
def RoundRun.grantsOf (r : RoundRun) (t : Nat) : List Nat × Nat := grantRecord r.layer.renorm (r.record t)

/-- A packer writes the grants of its next record; steps of the weights are checked where they are formed (R67, R176). -/
def Dev.writeGrants (d : Dev) (c : Clock) (r : RoundRun) (h t : Nat) (steps : List StepSeen) : Except Bar Dev :=
  let x := r.record t
  let faults := if r.layer.renorm = 1 && !x.pos.isEmpty then ((mismatches steps).filter (· = t)).length else 0
  let r1 := { r with recs := r.recs.set t { x with bad := faults != 0 } }.setPacker h { r.packer h with wrote := t + 1 }
  let g := r1.grantsOf t
  let d1 := (List.range faults).foldl (fun d _ => d.residueError r.ctx 2 .hdie h) d
  (d1.unitStore c (whoPacker r h) ((r.desc.grant + t * roundN r * 16) % 2 ^ 48) (entryBytes g.1) x.sels).map fun d =>
    (d.setRound r1).flagN r.ctx g.2

def parcelAhead (a b : Parcel) : Bool :=
  if a.owner != b.owner then decide (a.owner < b.owner)
  else if a.expert != b.expert then decide (a.expert < b.expert)
  else decide (a.pos < b.pos)

/-- A packer reads the activation row of its next record and forms a record for each accepted entry (R178). -/
def Dev.readRow (d : Dev) (r : RoundRun) (h t : Nat) : Except Bar Dev :=
  let x := r.record t
  let p := r.packer h
  if x.pos.isEmpty then .ok (d.setRound (r.setPacker h { p with read := t + 1 }))
  else (d.load (whoPacker r h) ((r.desc.act + t * r.desc.actStride) % 2 ^ 48) r.desc.rowBytes).map fun row =>
    let ps := x.pos.map fun y =>
      let tag := ((r.grantsOf t).1.getD y.1 0) % 2 ^ 64
      (⟨r.owner.getD (tagExpert tag) 0, tagExpert tag, y.2.1, packRecord tag y.2.1 row.1, row.2 || x.sels⟩ : Parcel)
    { d.setRound (r.setPacker h { p with read := t + 1, parcels := p.parcels ++ ps }) with
      fetched := d.fetched.filter fun z => z.cmd != r.cmd }

/-- A packer has formed all its records: it sorts and packs them (R178). The ROUND's own work is done with the second
packer's. -/
def Dev.dispatch (d : Dev) (c : Clock) (r : RoundRun) (h : Nat) : Dev :=
  let p := r.packer h
  let jobs := packJobs r r.cmd h 5 ((sortBy parcelAhead p.parcels).map fun x => (r.members.getD x.owner 0, x.bytes, x.poison))
  let d1 := d.setRound (r.setPacker h { p with parcels := [], sent := true })
  let d2 := (({ d1 with packQueue := d1.packQueue ++ jobs } : Dev).closeFor c (whoPacker r h)).packersRun c
  if (r.packer (1 - h)).sent then d2.unitDone c (whoRound r) else d2

/-- The next step of a packer: a record, its grants, its row, or the dispatch. -/
def Dev.packerStep (d : Dev) (c : Clock) (cmd h : Nat) : Option (Who × Except Bar Dev) :=
  match d.rounds.find? fun r => r.cmd = cmd, d.cmd cmd with
  | some r, some q =>
    if !d.roundLive r || (r.packer h).sent then none
    else
      match r.nextAt h (r.packer h).taken with
      | some t => some (whoPacker r h, d.takeRecord r h t)
      | none =>
        if !r.settled then none
        else
          match r.nextAt h (r.packer h).wrote with
          | some t => some (whoPacker r h, d.writeGrants c r h t q.steps)
          | none =>
            match r.nextAt h (r.packer h).read with
            | some t => some (whoPacker r h, d.readRow r h t)
            | none => some (whoPacker r h, .ok (d.dispatch c r h))
  | _, _ => none

/-- The origin completes its pass, if it can (R175): the next pass's demands, or the end of the passes. -/
def Dev.originStep (d : Dev) (c : Clock) (r : RoundRun) : Option Dev :=
  if !r.begun then
    if r.allTaken then some ((d.setRound { r with begun := true }).sendDemands c { r with begun := true }) else none
  else if r.settled || !passFull r r.opass r.grantEnds r.grants then none
  else
    let gs := (r.grants.filter fun x => x.1 = r.opass).map (·.2.2)
    let recs := r.recs.map fun x => settleRec (roundN r) (recKey x) (gs.filter fun g => grKey g = recKey x) x
    let r1 := { r with recs := recs, opass := r.opass + 1 }
    let d1 := d.setRound r1
    some (if r1.settled then d1.countGrants r1 else d1.sendDemands c r1)

/-- The next step of an open round's ledger and origin. -/
def Dev.roundStep (d : Dev) (c : Clock) (cmd : Nat) : Option (Who × Except Bar Dev) :=
  match d.rounds.find? fun r => r.cmd = cmd with
  | none => none
  | some r =>
    if !d.roundLive r then none
    else ((d.ledgerStep c r).or ((d.originStep c r).map .ok)).map fun x => (whoRound r, x)

/-- An open round goes on as far as it can: a page to be brought in halts its packer, or its ledger, where it is (R186). -/
def Dev.roundGo (d : Dev) (c : Clock) (cmd : Nat) : Dev :=
  if c.stage != .work then d
  else
    let packers := fun (d : Dev) => (d.unitGo c fun d => d.packerStep c cmd 0).unitGo c fun d => d.packerStep c cmd 1
    let control := fun (d : Dev) => d.unitGo c fun d => d.roundStep c cmd
    (packers (control (packers (control d)))).signalFull c cmd

/-- Messages held for a round that has opened (R171). -/
def heldFor (group id : Nat) (m : TridalIn) : Bool := thGroup m.header.toNat = group && thRound m.header.toNat = id

/-! ### Demand and grant messages -/

/-- Entries of a message's body, as many as COUNT says. -/
def bodyEntries (m : TridalIn) (w : Nat) : List Nat := ((chunks w m.body).take (thCount m.header.toNat)).map leNat

/-- A DEMAND or DEMAND_END taken by the ledger of an open round. -/
def Dev.takeDemand (d : Dev) (r : RoundRun) (m : TridalIn) (disagree : List Nat) : Dev :=
  let h := m.header.toNat
  if thType h = 1 then
    d.setRound { r with demands := r.demands ++ (bodyEntries m 16).map fun e => (thPass h, thSender h, e), suspect := dedupe (r.suspect ++ disagree) }
  else d.setRound { r with demandEnds := r.demandEnds ++ [(thPass h, thSender h, leNat (m.body.take 4))], suspect := dedupe (r.suspect ++ disagree) }

/-- The ROUND command opens its round and takes the held demands (R167 to R171). -/
def Dev.openRound (d : Dev) (q : QCmd) : Except Bar Dev :=
  match d.formRound (whoCmd q) q with
  | .error b => .error b
  | .ok none => .ok (d.cmdFault q.id q.ctx .roundInvalid 0)
  | .ok (some r) =>
    let x := r.desc
    let held := d.tridalHeld.filter fun m => heldFor x.groupId x.roundId m.1
    let d1 : Dev := { d with rounds := d.rounds ++ [r], roundsOpened := d.roundsOpened ++ [(x.groupId, x.roundId)]
                             tridalHeld := d.tridalHeld.filter fun m => !heldFor x.groupId x.roundId m.1
                             fetched := d.fetched.filter fun y => y.cmd != q.id }
    .ok (held.foldl (fun d m => match d.rounds.find? fun y => y.cmd = r.cmd with
      | some y => d.takeDemand y m.1 m.2
      | none => d) d1)

/-- The ROUND command at work: it opens, or goes on where it had to wait. -/
def Dev.runRound (d : Dev) (c : Clock) (q : QCmd) : Dev :=
  (if d.rounds.any fun r => r.cmd = q.id then d else d.unitPart c (whoCmd q) fun d => d.openRound q).roundGo c q.id

/-- A demand message is taken (R171): kept in the ingress until its round opens. -/
def Dev.demandIn (d : Dev) (c : Clock) (m : TridalIn) (disagree : List Nat) : Dev :=
  match d.roundOf (thGroup m.header.toNat) (thRound m.header.toNat) with
  | none => { d with tridalHeld := d.tridalHeld ++ [(m, disagree)] }
  | some r => (d.takeDemand r m disagree).roundGo c r.cmd

/-- A GRANT or GRANT_END arrives at its origin. -/
def Dev.grantIn (d : Dev) (c : Clock) (m : TridalIn) : Dev :=
  let h := m.header.toNat
  match d.roundOf (thGroup h) (thRound h) with
  | none => d
  | some r =>
    let r1 := if thType h = 3 then { r with grants := r.grants ++ (bodyEntries m 8).map fun e => (thPass h, thSender h, e) }
      else { r with grantEnds := r.grantEnds ++ [(thPass h, thSender h, leNat (m.body.take 4))] }
    (d.setRound r1).roundGo c r1.cmd

/-! ### ROWS and RETURN_ROWS (R179, R181) -/

/-- The records of a ROWS or RETURN_ROWS message, each with its poison. -/
def bodyRecords (m : TridalIn) (rowBytes : Nat) : List (List Byte × Bool) :=
  let n := 16 + alignUp rowBytes 16
  let rs := (chunks n m.body).take (thCount m.header.toNat)
  (List.zip (List.range rs.length) rs).map fun x => (x.2, m.poisoned.contains x.1)

/-- One ROWS record at its owner. -/
def Dev.rowIn (d : Dev) (c : Clock) (cmd : Nat) (rec_ : List Byte × Bool) : Except Bar Dev :=
  match d.rounds.find? fun r => r.cmd = cmd with
  | none => .ok d
  | some r =>
    let tag := leNat (rec_.1.take 8)
    let pos := leNat ((rec_.1.drop 8).take 4)
    match r.experts.find? fun e => e.e = tagExpert tag with
    | none => .ok (d.raiseAt r.ctx .rowUnexpected 0 .hdie 0)
    | some e =>
      if e.a ≤ pos || e.rows.contains pos then .ok (d.raiseAt r.ctx .rowUnexpected 0 .hdie 0)
      else
        let base := inboxAddr e.entry
        let w := whoRound r
        let row := (rec_.1.drop 16).take r.desc.rowBytes
        match d.unitStore c w ((base + inboxRowOffset (inboxCapacity e.entry) + pos * r.desc.inStride) % 2 ^ 48) row rec_.2 with
        | .error b => .error b
        | .ok d1 => (d1.unitStore c w ((base + 64 + 8 * pos) % 2 ^ 48) (natLe 8 tag) false).map fun d2 =>
          d2.setRound { r with experts := r.experts.map fun x =>
            if x.e = e.e then { x with rows := x.rows ++ [pos], mark := d2.reqNext } else x }

/-- One RETURN_ROWS record at its origin. -/
def Dev.returnIn (d : Dev) (c : Clock) (cmd : Nat) (rec_ : List Byte × Bool) : Except Bar Dev :=
  match d.rounds.find? fun r => r.cmd = cmd with
  | none => .ok d
  | some r =>
    let tag := leNat (rec_.1.take 8)
    let slot := tagSlot tag
    let rank := tagRank tag
    let t := slot - r.desc.slotBase
    let i := t * roundN r + rank
    let accepted := r.listed t && decide (r.desc.slotBase ≤ slot) && (r.record t).pos.any fun p => p.1 = rank
    if !accepted || r.stage.contains i then .ok (d.raiseAt r.ctx .rowUnexpected 0 .hdie 0)
    else
      (d.unitStore c (whoRound r) ((r.desc.stage + i * r.desc.retStride) % 2 ^ 48) ((rec_.1.drop 16).take r.desc.retBytes) rec_.2).map fun d1 =>
        d1.setRound { r with stage := r.stage ++ [i] }

/-- A ROWS or RETURN_ROWS message arrives: written, and acknowledged end to end. A message that meets a page to be
brought in is held whole. A message for a round that is not open is discarded and counted (log entry 18). -/
def Dev.rowsIn (d : Dev) (c : Clock) (m : TridalIn) : Dev :=
  let h := m.header.toNat
  match d.roundOf (thGroup h) (thRound h) with
  | none => d.bump 0x8060 7 0 1
  | some r =>
    let back := thType h = 6
    let recs := bodyRecords m (if back then r.desc.retBytes else r.desc.rowBytes)
    let all : Except Bar Dev := recs.foldl (fun x y => match x with
      | .error b => .error b
      | .ok d => if back then d.returnIn c r.cmd y else d.rowIn c r.cmd y) (.ok d)
    match all with
    | .error .denied => d.cmdFault r.cmd r.ctx .memoryAccessFault 0
    | .error _ => { d with tridalHeld := d.tridalHeld ++ [(m, [])] }
    | .ok d1 =>
      ((d1.closeFor c (whoRound r)).respond c (r.members.getD (thSender h) 0) m.e2e.toNat
        (.memResp ⟨BitVec.ofNat 20 d.geid, m.e2e, .ack, false⟩)).signalFull c r.cmd

/-- A Tridal message of a type its command does not carry: a reserved TYPE is discarded and counted (R171). -/
def Dev.tridalOther (d : Dev) (m : TridalIn) : Dev :=
  let t := thType m.header.toNat
  if t = 0 || 7 ≤ t then d.bump 0x8060 7 0 1 else d

/-- Messages held for pages are taken again. -/
def Dev.retryRows (d : Dev) (c : Clock) : Dev :=
  let late := fun (m : TridalIn × List Nat) => decide (5 ≤ thType m.1.header.toNat)
  (d.tridalHeld.filter late).foldl (fun d m => d.rowsIn c m.1) { d with tridalHeld := d.tridalHeld.filter fun m => !late m }

/-! ### The ingress (R171) -/

/-- DEMAND entries of a message. -/
def demandCount (m : TridalIn) : Nat := if thType m.header.toNat = 1 then (bodyEntries m 16).length else 0

/-- DEMAND entries in the ingress. -/
def Dev.ingressUsed (d : Dev) : Nat := d.tridalHeld.foldl (fun n m => n + demandCount m.1) 0

/-- Can the ledger take no further class-2 message: is its ingress full, or too full for this one? -/
def Dev.ingressFull (d : Dev) (m : TridalIn) : Bool :=
  decide (65536 ≤ d.ingressUsed)
    || ((d.roundOf (thGroup m.header.toNat) (thRound m.header.toNat)).isNone && decide (65536 < d.ingressUsed + demandCount m))

/-- A class-2 message is taken. -/
def Dev.classTwoTake (d : Dev) (c : Clock) (m : TridalIn) (disagree : List Nat) : Dev :=
  if thType m.header.toNat < 3 then d.demandIn c m disagree else d.rowsIn c m

/-- A class-2 message arrives: behind those in the receive buffers, if there are any. -/
def Dev.classTwoIn (d : Dev) (c : Clock) (m : TridalIn) (disagree : List Nat) : Dev :=
  if d.tridalWait.isEmpty && !d.ingressFull m then d.classTwoTake c m disagree
  else { d with tridalWait := d.tridalWait ++ [(m, disagree)] }

/-- The messages in the receive buffers are taken, in order, while there is room. -/
def Dev.ingressDrain (d : Dev) (c : Clock) : Dev :=
  d.tridalWait.foldl (fun d m => d.classTwoIn c m.1 m.2) { d with tridalWait := [] }

/-! ### RETURN (R180) -/

/-- The records a RETURN sends: (origin's member order, GEID, record). -/
def Dev.returnRecords (d : Dev) (w : Who) (r : RoundRun) (e : Expert) (outAddr outStride : Nat) : Except Bar (List (Nat × Nat × List Byte × Bool)) :=
  match d.load w ((inboxAddr e.entry + 64) % 2 ^ 48) (8 * e.a) with
  | .error b => .error b
  | .ok (tags, tp) =>
    (List.range e.a).foldl (fun x g => match x with
      | .error b => .error b
      | .ok rs => (d.load w ((outAddr + g * outStride) % 2 ^ 48) r.desc.retBytes).map fun row =>
          let tag := leNat ((tags.drop (8 * g)).take 8)
          let geid := tagGeid tag
          rs ++ [(((r.members.findIdx? fun m => decide (m = geid)).getD r.members.length), geid, packRecord tag 0 row.1, row.2 || tp)]) (.ok [])

/-- The round and the expert of a RETURN, or none where it is rejected. -/
def Dev.returnOf (d : Dev) (q : QCmd) : Option (RoundRun × Expert) :=
  let p := envPayload q.env
  ((d.roundOf (fld p 177 162) (fld p 185 178)).filter fun r => r.ctx = q.ctx).bind fun r =>
    (r.experts.find? fun e => e.e = fld p 201 186).bind fun e =>
      if fld p 255 202 != 0 || fld p 137 48 != 0 || decide (r.lpass < passCount r.layer) || e.returned.any (· != q.id)
          || fld p 161 138 % 64 != 0 then none
      else some (r, e)

/-- The RETURN command at work: it claims its expert, and H-die 0's packer sends the rows (log entry 18). -/
def Dev.runReturn (d : Dev) (c : Clock) (q : QCmd) : Dev :=
  let p := envPayload q.env
  match d.returnOf q with
  | none => d.cmdFault q.id q.ctx .returnInvalid 0
  | some (r, e) =>
    let r1 := { r with experts := r.experts.map fun x => if x.e = e.e then { x with returned := some q.id } else x }
    let w : Who := ⟨q.ctx, q.id, .packer 0, 32⟩
    (d.setRound r1).unitRun c w fun d =>
      (d.returnRecords w r1 e (fld p 47 0) (fld p 161 138)).map fun rs =>
        let sorted := sortBy (fun a b => decide (a.1 < b.1)) rs
        ({ d with packQueue := d.packQueue ++ packJobs r1 q.id 0 6 (sorted.map (·.2)) } : Dev).packersRun c

/-! ### COMBINE (R182 to R184) -/

/-- Is a COMBINE rejected? -/
def Dev.combineOk (d : Dev) (q : QCmd) (x : CombineDesc) : Bool :=
  match (d.roundOf x.groupId x.roundId).filter fun r => r.ctx = q.ctx with
  | none => false
  | some r =>
    x.rsvd = 0 && decide (x.fmtIn ≤ 1) && decide (x.fmtOut ≤ 1) && decide (1 ≤ x.d) && decide (x.d ≤ 65536) && decide (1 ≤ x.count)
      && decide (x.count ≤ 131072) && decide (x.first + x.count ≤ r.desc.t) && decide (x.d * (if x.fmtIn = 0 then 4 else 2) ≤ r.desc.retBytes)
      && x.outStride % 64 = 0 && decide (d.clusterOwner x.unit = some (d.ctx q.ctx).partition)

/-- The COMBINE command queues at its unit. -/
def Dev.runCombine (d : Dev) (q : QCmd) : Dev :=
  let x := CombineDesc.ofWord (envPayload q.env)
  if d.combines.any fun k => k.cmd = q.id then d
  else if !d.combineOk q x then d.cmdFault q.id q.ctx .combineInvalid 0
  else if d.clusterFaulted x.unit then d.cmdFault q.id q.ctx .functionFaulted 0
  else
    ({ d with combines := d.combines ++ [{ cmd := q.id, ctx := q.ctx, desc := x }] } : Dev).updCluster x.unit fun k =>
      { k with combines := k.combines ++ [q.id] }

/-- Is the next record of a COMBINE ready (R183): the grant list written, every accepted entry's row arrived? -/
def combineReady (r : RoundRun) (x : RoundRec) (t : Nat) : Bool :=
  r.listed t && x.pos.all fun p => r.stage.contains (t * roundN r + p.1)

/-- Stage rows of a record's accepted entries in ascending rank: (w′, row, poison). -/
def Dev.combineTerms (d : Dev) (w : Who) (r : RoundRun) (x : CombineDesc) (t : Nat) (rec_ : RoundRec) (grants : List Nat) :
    Except Bar (List (Nat × List Nat × Bool)) :=
  let e := if x.fmtIn = 0 then 4 else 2
  ((List.range (roundN r)).filter fun i => rec_.pos.any fun p => p.1 = i).foldl (fun a i => match a with
    | .error b => .error b
    | .ok ts => (d.load w ((r.desc.stage + (t * roundN r + i) * r.desc.retStride) % 2 ^ 48) (x.d * e)).map fun y =>
        ts ++ [(fld (grants.getD i 0) 95 64, (chunks e y.1).map fun b => (widen x.fmtIn (leNat b)).1, y.2)]) (.ok [])

/-- One record of a COMBINE (R183, R184); `k.seen` is a step of its sums (R67). -/
def Dev.combineOne (d : Dev) (c : Clock) (w : Who) (r : RoundRun) (k : CombineRun) : Except Bar Dev :=
  let x := k.desc
  let t := x.first + k.next
  let grants := (r.grantsOf t).1
  match d.combineTerms w r x t (r.record t) grants with
  | .error b => .error b
  | .ok ts =>
    let residue := !ts.isEmpty && k.seen.any stepMismatch
    let ys := (List.range x.d).map fun j => combineElem x.fmtOut (ts.map fun y => (y.1, y.2.1.getD j 0))
    let poison := (grants.any fun g => tagPoison (g % 2 ^ 64)) || (ts.any fun y => y.2.2) || residue
    let bytes := (ys.map fun y => natLe (if x.fmtOut = 0 then 4 else 2) y.1).flatten
    let d1 := if residue then d.residueError k.ctx 2 .cluster x.unit else d
    (d1.unitStore c w ((x.outAddr + k.next * x.outStride) % 2 ^ 48) bytes poison).map fun d2 =>
      ((d2.flagN k.ctx (ys.foldl (fun f y => lor f y.2) 0)).bump 0x8060 9 x.unit 1)

/-- Who a COMBINE's unit is. -/
def whoCombine (k : CombineRun) : Who := ⟨k.ctx, k.cmd, .combine k.desc.unit, k.desc.unit⟩

def Dev.setCombine (d : Dev) (k : CombineRun) : Dev := { d with combines := d.combines.map fun x => if x.cmd = k.cmd then k else x }

/-- A COMBINE leaves its unit. -/
def Dev.dropCombine (d : Dev) (k : CombineRun) : Dev :=
  ({ d with combines := d.combines.filter fun y => y.cmd != k.cmd } : Dev).updCluster k.desc.unit fun y =>
    { y with combines := y.combines.filter (· != k.cmd) }

/-- The COMBINE at the head of a unit's queue. -/
def Dev.combineHead (d : Dev) (cl : Nat) : Option CombineRun := (d.cluster cl).combines.head?.bind fun id => d.combines.find? fun k => k.cmd = id

/-- The record that a combine unit has begun. -/
def Dev.combineStep (d : Dev) (c : Clock) (cl : Nat) : Option (Who × Except Bar Dev) :=
  (d.combineHead cl).bind fun k =>
    ((d.roundOf k.desc.groupId k.desc.roundId).filter fun r => r.ctx = k.ctx && k.begun).map fun r =>
      (whoCombine k, (d.combineOne c (whoCombine k) r k).map fun d =>
        let d1 : Dev := { d.setCombine { k with next := k.next + 1, begun := false, seen := none } with
          fetched := d.fetched.filter fun y => y.cmd != k.cmd }
        if k.next + 1 < k.desc.count then d1 else (d1.dropCombine k).unitDone c (whoCombine k))

/-- A combine unit goes on with the record it has begun (R186). An access not permitted ends the COMBINE (R252). -/
def Dev.combineGo (d : Dev) (c : Clock) (cl : Nat) : Dev :=
  let d1 := d.unitGo c fun d => d.combineStep c cl
  match d1.combineHead cl with
  | some k => if (d1.cmd k.cmd).any fun q => q.status.isSome then d1.dropCombine k else d1
  | none => d1

/-- The combine unit of a cluster begins its next record, if it is ready (R183). -/
def Dev.combineBegin (d : Dev) (c : Clock) (cl : Nat) (seen : Option ArithStep) : Dev :=
  match d.combineHead cl with
  | none => d
  | some k =>
    let t := k.desc.first + k.next
    let ready := (d.roundOf k.desc.groupId k.desc.roundId).any fun r => decide (r.ctx = k.ctx) && combineReady r (r.record t) t
    if c.stage != .work || k.begun || !ready then d else (d.setCombine { k with begun := true, seen := seen }).combineGo c cl

/-- Every combine unit goes on. -/
def Dev.combinesGo (d : Dev) (c : Clock) : Dev := (dedupe (d.combines.map (·.desc.unit))).foldl (fun d cl => d.combineGo c cl) d

/-! ### The turnover (R187) -/

/-- Every round, ledger, table and queue of these units and of the sorters is cleared (R159, R187); sequence counters stay.
What waits in the receive buffers is late (R34). -/
def Dev.clearTridal (d : Dev) : Dev :=
  let held := d.tridalHeld.foldl (fun n m => n + (if thType m.1.header.toNat = 1 then demandCount m.1 else 1)) 0
  let d1 := d.clusters.foldl (fun d kv => d.updCluster kv.1 fun k => { k with combines := [] }) d
  (({ d1 with selects := [], rounds := [], roundsOpened := [], tridalHeld := [], tridalWait := [], combines := [], slotHome := []
              packQueue := [], packWait := [], packOut := [] } : Dev).bump 0x8060 7 0 held).bump 0x8000 2 0 d.tridalWait.length

end Sys2Proof.Machine
end

