-- ==== Sys2Proof/Machine/Update.lean ====
section
/-! DEFINITION. The cistern update units at work: UPDATE and the phases of FACTORED, and the schedules at a turnover
(spec/12_update_unit.md R272 to R286). -/

namespace Sys2Proof.Machine

/-- What every slice of a command is computed with: η, λ, the seed, the group's step, and the numbers of the blocks (rows in
phase 2, 0 in phase 3) in whose work a mismatch is found (R67, R281). -/
structure UpdEnv where
  eta : Nat
  lam : Nat
  seed : Nat
  step : Nat
  bad : List Nat
deriving DecidableEq, Repr

/-- The environment of a command (R275, R283). -/
def Dev.updEnv (d : Dev) (k : Nat) (x : UpdDesc) (steps : List StepSeen) : UpdEnv :=
  { eta := d.v 0x5400 4 x.group, lam := d.v 0x5400 5 x.group, seed := (d.ctx k).srSeed, step := d.v 0x5400 3 x.group
    bad := mismatches steps }

/-- Block `i` of a plane's slices of `w`-byte elements (R274), with its poison; `scaled` says whether the slice has scales. -/
def Dev.readBlock (d : Dev) (w : Who) (base slice wd : Nat) (scaled : Bool) (i : Nat) : Except Bar (BlockIn × Bool) :=
  let at_ := base + i / 32 * slice
  match d.load w ((at_ + 32 * wd * (i % 32)) % 2 ^ 48) (32 * wd) with
  | .error b => .error b
  | .ok (bs, p) =>
    let codes := (chunks wd bs).map leNat
    if !scaled then .ok (⟨codes, 0⟩, p)
    else (d.load w ((at_ + 1024 * wd + i % 32) % 2 ^ 48) 1).map fun s => (⟨codes, (s.1.headD 0#8).toNat⟩, p || s.2)

/-- A block of zeros, for a plane the rule does not use. -/
def noBlock : BlockIn := ⟨List.replicate 32 0, 0⟩

/-- Gradient elements of block `i` and their poison. -/
def Dev.readGrad (d : Dev) (w : Who) (x : UpdDesc) (i : Nat) : Except Bar (List FV × Bool) :=
  let gw := if x.gradBf16 then 2 else 4
  (d.load w ((x.grad + 32 * gw * i) % 2 ^ 48) (32 * gw)).map fun y => (gradVals x ((chunks gw y.1).map leNat), y.2)

/-- One block computed: its results, whether the lines it writes carry poison, and whether it read poisoned state (R281).
`stale` says that a statistic of it is poisoned, `spoilt` that a value from phase 3 is. -/
def Dev.updOne (d : Dev) (w : Who) (x : UpdDesc) (e : UpdEnv) (i : Nat) (f : Nat → FV → FV → FV → FV → ElemOut) (stale spoilt : Bool) :
    Except Bar (BlockRes × Bool × Bool) :=
  let pw := if x.paramSbf16 then 2 else 4
  match d.readGrad w x i, d.readBlock w x.pSrc x.pSlice pw x.paramSbf16 i,
      (if x.usesM then d.readBlock w x.mSrc 1088 1 true i else .ok (noBlock, false)),
      (if x.rule = 1 then d.readBlock w x.vSrc 1088 1 true i else .ok (noBlock, false)) with
  | .error b, _, _, _ => .error b
  | _, .error b, _, _ => .error b
  | _, _, .error b, _ => .error b
  | _, _, _, .error b => .error b
  | .ok g, .ok p, .ok m, .ok v =>
    let state := p.2 || m.2 || v.2 || stale
    .ok (updBlock x e.seed e.step (32 * i) g.2 g.1 p.1 m.1 v.1 f, state || spoilt || e.bad.contains i, state)

/-- What follows the elements of a plane's slice: nothing, scale bytes in a plane of their own (R48), or the tail of slice
form, whose last 32 bytes are zero (R5, R274). -/
inductive Tail where
  | none
  | apart (va : Nat)
  | here
deriving DecidableEq, Repr

/-- Write one plane of a slice: its elements, line by line with their poison, and its scale bytes. -/
def Dev.writePlane (d : Dev) (c : Clock) (w : Who) (elemAt wd : Nat) (tail : Tail) (bs : List (BlockOut × Bool)) : Except Bar Dev :=
  let bytes := (bs.map fun b => b.1.bytes).flatten
  let ws := writeByLine (elemAt % 2 ^ 48) bytes (8 * wd) 1024 fun i => (bs.getD (i / 32) (⟨[], 0, 0⟩, false)).2
  let scales := bs.map fun b => BitVec.ofNat 8 b.1.scale
  match d.unitStores c w ws with
  | .error b => .error b
  | .ok d1 => match tail with
    | .none => .ok d1
    | .apart va => d1.unitStore c w (va % 2 ^ 48) scales (bs.any (·.2))
    | .here => d1.unitStore c w ((elemAt + 1024 * wd) % 2 ^ 48) (scales ++ List.replicate 32 0#8) (bs.any (·.2))

/-- The flags and counts of a slice's blocks, at unit `u` (R280, R281, R288). `count` is off where the skips have been counted. -/
def Dev.updCount (d : Dev) (k u : Nat) (count : Bool) (rs : List (BlockRes × Bool × Bool)) : Dev :=
  let pz := (rs.filter fun r => r.1.skip = .poisoned).length
  let nf := (rs.filter fun r => r.1.skip = .nonFinite).length
  let d1 := if !count then d
    else (((d.bump 0x80A0 2 0 pz).bump 0x80A0 3 0 nf).flagU k ((if pz = 0 then 0 else 1) + (if nf = 0 then 0 else 2)))
  let d2 := if rs.any (·.2.2) then d1.flagU k 4 else d1
  (d2.flagN k (rs.foldl (fun a r => lor a r.1.flags) 0)).bump 0x80A0 1 u (32 * (rs.length - pz - nf))

/-- Mismatches among a range of blocks or rows, reported by unit `u` (R68, R281). -/
def Dev.updResidue (d : Dev) (k u : Nat) (e : UpdEnv) (lo n : Nat) : Dev :=
  (e.bad.filter fun i => decide (lo ≤ i) && decide (i < lo + n)).foldl (fun d _ => d.residueError k 4 .updateUnit u) d

/-- One slice of 1,024 elements, by unit `u` (R272, R278). -/
def Dev.updSlice (d : Dev) (c : Clock) (w : Who) (u : Nat) (x : UpdDesc) (e : UpdEnv) (j : Nat) (count : Bool)
    (f : Nat → FV → FV → FV → FV → ElemOut) (stale : Nat → Bool) (spoilt : Bool) : Except Bar Dev :=
  let rs : Except Bar (List (BlockRes × Bool × Bool)) := (List.range 32).foldl (fun a b => match a with
    | .error e => .error e
    | .ok rs => (d.updOne w x e (32 * j + b) (fun i => f (32 * b + i)) (stale b) spoilt).map fun r => rs ++ [r]) (.ok [])
  match rs with
  | .error b => .error b
  | .ok rs =>
    let pw := if x.paramSbf16 then 2 else 4
    let plane := fun (g : BlockRes → BlockOut) => rs.map fun r => (g r.1, r.2.1)
    let d0 := (d.updCount w.ctx u count rs).updResidue w.ctx u e (32 * j) 32
    let st1 := d0.writePlane c w (x.pDst + j * x.pSlice) pw (if x.paramSbf16 then .here else .none) (plane (·.p))
    let st2 := match st1 with
      | .ok d => if x.usesM then d.writePlane c w (x.mDst + j * 1088) 1 .here (plane (·.m)) else .ok d
      | .error b => .error b
    let st3 := match st2 with
      | .ok d => if x.rule = 1 then d.writePlane c w (x.vDst + j * 1088) 1 .here (plane (·.v)) else .ok d
      | .error b => .error b
    match st3 with
    | .ok d => match x.copyFmt with
      | 1 => d.writePlane c w (x.copy + j * 2048) 2 .none (plane (·.copy))
      | 2 => d.writePlane c w (x.copy + j * 1024) 1 (.apart (x.copyScale + j * 32)) (plane (·.copy))
      | _ => .ok d
    | .error b => .error b

/-- A slice of MOMENTUM, ADAPTIVE or SIGN (R278). -/
def Dev.updPlain (d : Dev) (c : Clock) (w : Who) (u : Nat) (x : UpdDesc) (e : UpdEnv) (j : Nat) : Except Bar Dev :=
  d.updSlice c w u x e j true (fun _ g p m v => updElem x e.eta e.lam g p m v) (fun _ => false) false

/-! ### FACTORED (R279) -/

/-- A list of FP32 values in memory, with the poison of each one's line. -/
def Dev.readF32s (d : Dev) (w : Who) (va n : Nat) : Except Bar (List (Nat × Bool)) :=
  (List.range n).foldl (fun a i => match a with
    | .error b => .error b
    | .ok xs => (d.load w ((va + 4 * i) % 2 ^ 48) 4).map fun y => xs ++ [(leNat y.1, y.2)]) (.ok [])

/-- Write FP32 values, line by line with their poison. -/
def Dev.writeF32s (d : Dev) (c : Clock) (w : Who) (va : Nat) (xs : List (Nat × Bool)) : Except Bar Dev :=
  d.unitStores c w (writeByLine (va % 2 ^ 48) (xs.map fun x => natLe 4 x.1).flatten 32 xs.length fun i => (xs.getD i (0, false)).2)

/-- The 1,024 q of row i, column block b (phase 1), and the skips of its blocks. -/
def Dev.factoredRow (d : Dev) (w : Who) (x : UpdDesc) (j : Nat) : Except Bar (List FV × Nat × Nat) :=
  (List.range 32).foldl (fun a b => match a with
    | .error e => .error e
    | .ok (qs, pz, nf) => (d.readGrad w x (32 * j + b)).map fun g =>
      match skipOf g.2 g.1 with
      | .no => (qs ++ g.1.map (fun y => fvFma y y (fvConst x.eps)), pz, nf)
      | .poisoned => (qs ++ List.replicate 32 (0, 0), pz + 1, nf)
      | .nonFinite => (qs ++ List.replicate 32 (0, 0), pz, nf + 1)) (.ok ([], 0, 0))

/-- The new statistics of a column block after its last row (phase 1). -/
def Dev.columnStats (d : Dev) (c : Clock) (w : Who) (x : UpdDesc) (b : Nat) (sums : List FV) (bad : List Nat) : Except Bar Dev :=
  let at_ := 4 * (x.rows + 1024 * b)
  match d.readF32s w (x.vSrc + at_) 1024 with
  | .error e => .error e
  | .ok old =>
    let new := (List.zip (List.range 1024) (List.zip sums old)).map fun y =>
      let a := fvDiv y.2.1 (fvInt x.rows)
      (fvFma (fvConst x.beta2) (fvSub (fvConst y.2.2.1) a) a, y.2.2.2 || bad.contains (y.1 / 32))
    let d2 := (d.flagN w.ctx (new.foldl (fun f y => lor f y.1.2) 0)).flagU w.ctx (if old.any (·.2) then 4 else 0)
    d2.writeF32s c w (x.vDst + at_) (new.map fun y => (y.1.1, y.2))

/-- Slice (i, b) of phase 1: its row partial, and the column sums, which its last row turns into statistics. -/
def Dev.factoredSlice (d : Dev) (c : Clock) (w : Who) (u : Nat) (x : UpdDesc) (e : UpdEnv) (p : UpdUnit) (i b j : Nat) : Except Bar (Dev × UpdUnit) :=
  match d.factoredRow w x j with
  | .error e => .error e
  | .ok (qs, pz, nf) =>
    let t := treeSum (qs.map (·.1))
    let sums := if i = 0 then qs.map (fun q => fvAdd (0, 0) q) else (List.zip p.sums qs).map fun y => fvAdd y.1 y.2
    let mine := (List.range 32).filter fun k => e.bad.contains (32 * j + k)
    let bad := if i = 0 then mine else dedupe (p.bad ++ mine)
    let d1 := (((d.bump 0x80A0 2 0 pz).bump 0x80A0 3 0 nf).flagU w.ctx ((if pz = 0 then 0 else 1) + (if nf = 0 then 0 else 2))).flagN
      w.ctx (qs.foldl (fun f q => lor f q.2) t.2)
    let d2 : Except Bar Dev := (d1.updResidue w.ctx u e (32 * j) 32).writeF32s c w (x.scratch + 4 * j) [(t.1, !mine.isEmpty)]
    let d3 : Except Bar Dev := match d2 with
      | .error b => .error b
      | .ok d => if i + 1 < x.rows then .ok d else d.columnStats c w x b sums bad
    d3.map fun d => (d, { done := p.done + 1, sums := sums, bad := bad })

/-- Row i of phase 2. -/
def Dev.factoredRowStat (d : Dev) (c : Clock) (w : Who) (u : Nat) (x : UpdDesc) (e : UpdEnv) (i : Nat) : Except Bar Dev :=
  let nb := x.cols / 1024
  match d.readF32s w (x.scratch + 4 * i * nb) nb, d.readF32s w (x.vSrc + 4 * i) 1 with
  | .error e, _ => .error e
  | _, .error e => .error e
  | .ok ps, .ok old =>
    let s := match ps with
      | [] => ((0, 0) : FV)
      | p :: rest => rest.foldl (fun a q => fvAdd a (fvConst q.1)) (fvConst p.1)
    let a := fvDiv s (fvInt x.cols)
    let o := old.headD (0, false)
    let r := fvFma (fvConst x.beta2) (fvSub (fvConst o.1) a) a
    let stale := o.2 || ps.any (·.2)
    (((d.flagN w.ctx r.2).flagU w.ctx (if stale then 4 else 0)).updResidue w.ctx u e i 1).writeF32s c w (x.vDst + 4 * i)
      [(r.1, stale || e.bad.contains i)]

/-- Slice (i, b) of phase 4, with the new statistics. -/
def Dev.factoredApply (d : Dev) (c : Clock) (w : Who) (u : Nat) (x : UpdDesc) (e : UpdEnv) (rmean : Nat) (spoilt : Bool) (i b j : Nat) :
    Except Bar Dev :=
  match d.readF32s w (x.vDst + 4 * i) 1, d.readF32s w (x.vDst + 4 * (x.rows + 1024 * b)) 1024 with
  | .error b, _ => .error b
  | _, .error b => .error b
  | .ok r, .ok cs =>
    let r0 := r.headD (0, false)
    d.updSlice c w u x e j false
      (fun i g p m _ => factoredElem x e.eta e.lam g p m (fvConst r0.1) (fvConst (cs.getD i (0, false)).1) (fvConst rmean))
      (fun b => r0.2 || ((cs.drop (32 * b)).take 32).any (·.2)) spoilt

/-! ### The UPDATE command -/

/-- Who update unit `u` is, at work for a command (R260, R268). -/
def whoUnit (r : UpdateRun) (u : Nat) : Who := ⟨r.ctx, r.cmd, .update u, 32⟩

def Dev.setUpdate (d : Dev) (r : UpdateRun) : Dev := { d with updates := d.updates.map fun x => if x.cmd = r.cmd then r else x }

/-- Unit `u`'s part in a command's phase. -/
def UpdateRun.unit (r : UpdateRun) (u : Nat) : UpdUnit := r.units.getD u {}
def UpdateRun.setUnit (r : UpdateRun) (u : Nat) (p : UpdUnit) : UpdateRun := { r with units := r.units.set u p }

/-- Has every unit finished the phase? -/
def UpdateRun.phaseDone (r : UpdateRun) : Bool :=
  match r.desc with
  | none => false
  | some x => (List.range 32).all fun u => decide (x.share r.phase u ≤ (r.unit u).done)

/-- Does the command go on? It has neither ended nor done its work. -/
def Dev.updLive (d : Dev) (r : UpdateRun) : Bool := (d.cmd r.cmd).any fun q => !q.completed && !q.ran

/-- The next slice or row of a command at unit `u` (R272, R279). -/
def Dev.updItem (d : Dev) (c : Clock) (u : Nat) (x : UpdDesc) (e : UpdEnv) (r : UpdateRun) : Except Bar (Dev × UpdateRun) :=
  let w := whoUnit r u
  let p := r.unit u
  let s := x.sliceOf u p.done
  let next := fun (d : Dev) => (d, r.setUnit u { p with done := p.done + 1 })
  if !x.factored then (d.updPlain c w u x e s.2.2).map next
  else match r.phase with
    | 1 => (d.factoredSlice c w u x e p s.1 s.2.1 s.2.2).map fun y => (y.1, r.setUnit u y.2)
    | 2 => (d.factoredRowStat c w u x e (u + 32 * p.done)).map next
    | 3 => (d.readF32s w x.vDst x.rows).map fun rs =>
        let t := treeSum (rs.map (·.1))
        let m := fvDiv t (fvInt x.rows)
        let n := next (((d.flagN r.ctx m.2).flagU r.ctx (if rs.any (·.2) then 4 else 0)).updResidue r.ctx u e 0 1)
        (n.1, { n.2 with rmean := m.1, rmeanPoison := e.bad.contains 0 || rs.any (·.2) })
    | _ => (d.factoredApply c w u x e r.rmean r.rmeanPoison s.1 s.2.1 s.2.2).map next

/-- A unit has done an item of a command: its transfer closes with its last (R268), and the command's work is done with the
last phase. -/
def Dev.updItemDone (d : Dev) (c : Clock) (u : Nat) (x : UpdDesc) (r : UpdateRun) : Dev :=
  let d1 : Dev := { d.setUpdate r with updLast := SMap.put (fun _ => 0) d.updLast u (r.cmd + 1)
                                       fetched := d.fetched.filter fun y => !(y.cmd = r.cmd && y.src = .update u) }
  let d2 := if (r.unit u).done < x.share r.phase u then d1 else d1.closeFor c (whoUnit r u)
  if r.phaseDone && decide (r.phase = x.phases) then d2.unitDone c (whoUnit r u) else d2

/-- The commands in the order in which unit `u` serves them next: in rotation, from the one it served last (R272). -/
def Dev.updTurn (d : Dev) (u : Nat) : List UpdateRun :=
  let last := SMap.get (fun _ => 0) d.updLast u
  match d.updates.findIdx? fun r => decide (r.cmd + 1 = last) with
  | some i => d.updates.drop (i + 1) ++ d.updates.take (i + 1)
  | none => d.updates

/-- The next step of unit `u`. An access not permitted ends its command (R252, R285), and the unit goes on. -/
def Dev.updStep (d : Dev) (c : Clock) (u : Nat) : Option (Who × Except Bar Dev) :=
  let due := fun (r : UpdateRun) => d.updLive r && r.desc.any fun x => decide ((r.unit u).done < x.share r.phase u)
  ((d.updTurn u).find? due).bind fun r => r.desc.bind fun x => (d.cmd r.cmd).map fun q =>
    (whoUnit r u, match d.updItem c u x (d.updEnv r.ctx x q.steps) r with
      | .ok y => .ok (y.1.updItemDone c u x y.2)
      | .error .denied => .ok (d.cmdFault r.cmd r.ctx .memoryAccessFault 0)
      | .error b => .error b)

/-- The descriptor of an UPDATE is read and judged (R277, R461); a group whose curve is not usable is a fault, and the
command goes on (R282). -/
def Dev.readUpdate (d : Dev) (q : QCmd) (r : UpdateRun) : Except Bar Dev :=
  (d.loadWord (whoCmd q) (envPayload q.env) 128).map fun word =>
    match word.map UpdDesc.ofWord with
    | none => d.cmdFault q.id q.ctx .updateInvalid 0
    | some x =>
      if !updOk x || envPayload q.env % 64 != 0 then d.cmdFault q.id q.ctx .updateInvalid 0
      else
        let d1 : Dev := { d.setUpdate { r with desc := some x } with
          fetched := d.fetched.filter fun y => y.cmd != q.id
          advances := if x.advance then d.advances ++ [(q.id, x.group)] else d.advances }
        if d.schedBad.contains x.group then
          (d1.updCmd q.id fun y => { y with status := if y.status.isSome then y.status else some .scheduleInvalid }).raise q.ctx .scheduleInvalid
        else d1

/-- The descriptor of a command that has not been read. -/
def Dev.updOpen (d : Dev) (cmd : Nat) : Option (Who × Except Bar Dev) :=
  match d.updates.find? fun r => r.cmd = cmd, d.cmd cmd with
  | some r, some q => if r.desc.isSome || q.completed then none else some (whoCmd q, d.readUpdate q r)
  | _, _ => none

/-- Every UPDATE goes on as far as it can: each unit by itself (R285). -/
def Dev.updatesGo (d : Dev) (c : Clock) : Dev :=
  if d.updates.isEmpty then d
  else
    let d1 := (d.updates.map (·.cmd)).foldl (fun d cmd => d.unitGo c fun d => d.updOpen cmd) d
    (List.range 32).foldl (fun d u => d.unitGo c fun d => d.updStep c u) d1

/-- An UPDATE becomes eligible, with what the checkers of its units will see in its first phase. -/
def Dev.enterUpdate (d : Dev) (c : Clock) (q : QCmd) (steps : List StepSeen) : Dev :=
  (({ d with updates := d.updates ++ [({ cmd := q.id, ctx := q.ctx } : UpdateRun)] } : Dev).updCmd q.id fun y =>
    { y with steps := steps }).updatesGo c

/-- The next phase of the first FACTORED UPDATE of a queue that has finished one begins, its writes retired (R279). -/
def Dev.nextPhase (d : Dev) (c : Clock) (q : CmdRead) (steps : List StepSeen) : Dev :=
  let due := fun (r : UpdateRun) => r.cmd / 65536 = q.q.val && d.updLive r && r.phaseDone && r.desc.any (fun x => decide (r.phase < x.phases))
    && !d.storesOut r.cmd
  match d.updates.find? due with
  | some r =>
    if c.stage != .work then d
    else
      let d1 := (d.setUpdate { r with phase := r.phase + 1, units := List.replicate 32 {} }).updCmd r.cmd fun y => { y with steps := steps }
      let d2 := match d1.cmd r.cmd with
        | some x => d1.seenBy c x q
        | none => d1
      d2.updatesGo c
  | none => d

/-! ### Schedules at the turnover (R282, R283) -/

/-- The 64 knots' words of a group's record, or none where a line of it is poisoned (R461). -/
def schedRecord (m : Memory) (a : Nat) : Option (List Nat) :=
  if m.anyPoison a 1024 then none else some ((chunks 16 (m.read a 1024)).map leNat)

/-- η and λ of group k from the table as it stood at the deadline, and whether the group is bad. -/
def Dev.groupRates (d : Dev) (m : Memory) (k : Nat) : Nat × Nat × Bool :=
  if d.v 0x5400 2 0 ≤ k then (0, 0, false)
  else
    match schedRecord m (d.v 0x5400 1 0 + 1024 * k) with
    | none => (0, 0, true)
    | some ws =>
      let ks := knotsOf ws
      if curveBad ks then (0, 0, true)
      else
        let r := curveAt ks (d.v 0x5400 3 k)
        (r.1, r.2, false)

/-- Steps of the groups whose ADVANCE updates committed (R283): `adv` are those groups, `written` those whose step was
written for this turnover. -/
def Dev.advanceSteps (d : Dev) (adv written : List Nat) : Dev :=
  (dedupe adv).foldl (fun d k => if written.contains k then d else d.setV 0x5400 3 k ((d.v 0x5400 3 k + 1) % 2 ^ 32)) d

/-- Evaluate every group's curve (R283). Groups numbered SCHED_GROUPS or above have η = λ = +0. -/
def Dev.evalSchedules (d : Dev) (m : Memory) : Dev :=
  let d0 : Dev := { d with schedBad := [], val := SMap.clear (fun k => k / 65536 = 0x540004 || k / 65536 = 0x540005) d.val }
  (List.range (d.v 0x5400 2 0)).foldl (fun d k =>
    let r := d.groupRates m k
    let d1 := (d.setV 0x5400 4 k r.1).setV 0x5400 5 k r.2.1
    if r.2.2 then { d1 with schedBad := d1.schedBad ++ [k] } else d1) d0

end Sys2Proof.Machine
end

