-- ==== Sys2Proof/Machine/Units.lean ====
section
/-! DEFINITION. Atomic commands at their source, and units that go on when what they waited for has come
(spec/11_memory_fabric.md R253, R262 to R265; spec/16_control.md R376). -/

namespace Sys2Proof.Machine

/-! ### Atomics (R263, R264) -/

/-- ATOMIC_DESC (R263). -/
structure AtomicDesc where
  aop : Nat
  size64 : Bool
  target : Nat
  result : Nat
  a : Nat
  b : Nat
deriving DecidableEq, Repr

def AtomicDesc.ofWord (w : Nat) : AtomicDesc := ⟨fld w 255 252, bit w 251, fld w 223 176, fld w 175 128, fld w 63 0, fld w 127 64⟩

/-- Bytes of an atomic's values. -/
def atomicBytes (size64 : Bool) : Nat := if size64 then 8 else 4

/-- Apply an atomic to device memory: the memory after, the old value, and whether its line was poisoned. -/
def atomicApply (m : Memory) (aop : Nat) (size64 : Bool) (addr a b : Nat) : Memory × Nat × Bool :=
  let n := atomicBytes size64
  let old := m.le addr n
  (m.write addr (natLe n (atomicNew aop (8 * n) old a b)) false, old, m.anyPoison addr n)

/-- Write an atomic's old value at RESULT. An access that is not permitted ends the command with MEMORY_ACCESS_FAULT. -/
def Dev.atomicResult (d : Dev) (c : Clock) (q : QCmd) (x : AtomicDesc) (bs : List Byte) (poison : Bool) : Except Bar Dev :=
  match d.unitStore c (whoCmd q) x.result bs poison with
  | .error .denied => .ok (d.cmdFault q.id q.ctx .memoryAccessFault 0)
  | r => r

/-- An atomic on a CLUSTER page invalidates the line in the issuing cluster's caches: those of every cluster that the context
holds (R263, log entry 106). -/
def Dev.atomicDrop (d : Dev) (k : Nat) (m : Mapping) (addr : Nat) : Dev :=
  if m.attr = .cluster then (d.heldBy k).foldl (fun d cl => d.cacheDrop cl (addr / 64)) d else d

/-- An atomic on memory of this device. What it writes from a poisoned old value is poisoned (R409). -/
def Dev.atomicHere (d : Dev) (c : Clock) (q : QCmd) (x : AtomicDesc) (m : Mapping) : Except Bar Dev :=
  let addr := m.addr x.target
  let n := atomicBytes x.size64
  match d.cisternBar addr n with
  | some b => .error b
  | none =>
    let r := atomicApply d.mem x.aop x.size64 addr x.a x.b
    let bad := d.spoiled q.id
    let mem := if bad then r.1.setPoison (addr / 64) true else r.1
    let new := natLe n (mem.le addr n)
    let d1 := ((({ d with mem := mem } : Dev).countPartial addr n).atomicDrop q.ctx m addr).updCtx q.ctx fun k =>
      { k with wrote := k.wrote ++ [(addr, n)], poisonWritten := k.poisonWritten || (r.2.2 && x.aop != 2) || bad }
    (d1.lsStore c (whoCmd q) x.target new (r.2.2 || bad)).atomicResult c q x (natLe n r.2.1) r.2.2

/-- Remote atomics outstanding to a device (R264). -/
def Dev.atomicsOut (d : Dev) (g : Nat) : Nat :=
  (d.reqs.filter fun r => r.dest = g && (match r.owner with | .atomic _ => true | _ => false)).length

/-- An atomic on another device's memory is sent under the next sequence ID. -/
def Dev.atomicThere (d : Dev) (c : Clock) (q : QCmd) (x : AtomicDesc) (f : Frame) (addr : Nat) : Dev :=
  let d1 := d.cmdIssue q.id
  match d1.frameGeid f with
  | none => (d1.bump 0x80B0 7 0 1).cmdFault q.id q.ctx .targetUnreachable 0
  | some g =>
    if 64 ≤ d1.atomicsOut g then d1
    else if d1.gatewayBusy (whoCmd q) f then d1.closeFor c (whoCmd q)
    else
      let s := SMap.get (fun _ => 0) d1.atomicNext g
      let d2 : Dev := { d1 with atomicNext := SMap.put (fun _ => 0) d1.atomicNext g (s + 1) }
      let r := d2.request c (whoCmd q) (.atomic q.id) f (s % 65536)
        (.atomic (Fin.ofNat 16 x.aop) x.size64 (BitVec.ofNat 41 addr) (BitVec.ofNat 64 x.a) (BitVec.ofNat 64 x.b) (BitVec.ofNat 16 s))
      match r.2 with
      | some _ => r.1
      | none => r.1.cmdFault q.id q.ctx .targetUnreachable 0

/-- The ATOMIC command at work: its reply has come, it waits for it, or it begins. -/
def Dev.runAtomic (d : Dev) (c : Clock) (q : QCmd) : Dev :=
  let x := AtomicDesc.ofWord (envPayload q.env)
  let w := whoCmd q
  match d.fetched.find? fun y => y.cmd = q.id with
  | some y => d.unitRun c w fun d => d.atomicResult c q x y.data y.poison
  | none =>
    if d.reqs.any fun r => decide (r.owner = .atomic q.id) then d
    else if !atomicDescOk (envPayload q.env) then d.cmdFault q.id q.ctx .atomicInvalid 0
    else
      match d.locate q.ctx x.target true with
      | .error b => d.unitBar c w .memoryAccessFault b
      | .ok m =>
        match m.frame with
        | .here _ => d.unitRun c w fun d => d.atomicHere c q x m
        | f => d.atomicThere c q x f (m.addr x.target)

/-- An ATOMIC command of operation `aop` issues (R263). A reserved operation is refused by whichever command meets it. -/
def Dev.issueAtomic (d : Dev) (c : Clock) (r : CmdRead) (aop : Nat) : Dev :=
  match d.nextCmd r.q.val with
  | none => d
  | some x =>
    let o := (AtomicDesc.ofWord (envPayload x.env)).aop
    if envOp x.env = 8 && o != aop && decide (1 ≤ o) && decide (o ≤ 7) then d
    else d.issueRead c r 8 fun d y => d.runAtomic c y

/-! ### Going on -/

/-- A queue command's unit that had to wait goes on. -/
def Dev.runUnit (d : Dev) (c : Clock) (id : Nat) : Dev :=
  match d.cmd id with
  | none => d
  | some q =>
    if !q.issued || q.ran || q.work || q.completed then d
    else
      match envOp q.env with
      | 3 => d.runRound c q
      | 4 => d.runReturn c q
      | 7 => d.runAllsum c q
      | 8 => d.runAtomic c q
      | 9 => d.runGroupCreate c q
      | _ => d

/-- Whatever waited for an access, a page or an acknowledgement goes on as far as it can, within the work window. -/
def Dev.goOn (d : Dev) (c : Clock) : Dev :=
  if c.stage != .work then d
  else
    let ids := d.inForce.map QCmd.id
    let d1 := ids.foldl (fun d id => d.unitSettle id) d
    let d2 := ids.foldl (fun d id => d.runUnit c id) d1
    let d3 := (d2.rounds.map (·.cmd)).foldl (fun d id => d.roundGo c id) ((d2.selectsGo c).updatesGo c)
    (((d3.combinesGo c).retryRows c).ingressDrain c).pump c

/-! ### Commands that other rows run -/

/-- SELECT issues, with the tokens on which its comparators disagree (R158) and the steps of its weights (R149). -/
def Dev.issueSelect (d : Dev) (c : Clock) (r : CmdRead) (disagree : List Nat) (steps : List StepSeen) : Dev :=
  d.issueRead c r 2 fun d x => d.enterSelect c x disagree steps

/-- ROUND issues, with the steps of its weights (R176). The messages that a full ingress kept out are taken as it makes
room. -/
def Dev.issueRound (d : Dev) (c : Clock) (r : CmdRead) (steps : List StepSeen) : Dev :=
  d.issueRead c r 3 fun d x => ((d.updCmd x.id fun y => { y with steps := steps }).runRound c x).ingressDrain c

/-- UPDATE issues, with the steps of its units' arithmetic (R281). -/
def Dev.issueUpdate (d : Dev) (c : Clock) (r : CmdRead) (steps : List StepSeen) : Dev :=
  d.issueRead c r 6 fun d x => d.enterUpdate c x steps

/-- POOL_EMPTY_RETRY (R225). -/
def Dev.poolRetry (d : Dev) (c : Clock) (who : PoolRequester) (parity : Bool) : Dev :=
  match who with
  | .stream co ch => d.retryStream c co.val ch.val parity
  | .sequencer co => d.retrySequencer c co.val parity
  | .packer h => d.retryPacker c h.val parity

end Sys2Proof.Machine
end

