-- ==== Sys2Proof/Machine/Queues.lean ====
section
/-! DEFINITION. Submission queues, batches and completion queues: spec/16_control.md R374, R375, R378 and R379. -/

namespace Sys2Proof.Machine

/-! ### Rings (R374) -/

/-- Bytes of host memory (R373). -/
def Dev.hostRead (d : Dev) (a n : Nat) : List Byte := (List.range n).map fun i => SMap.get (fun _ => 0#8) d.hostMem (a + i)

def hostPut (m : SMap Byte) : Nat → List Byte → SMap Byte
  | _, [] => m
  | a, b :: bs => hostPut (SMap.put (fun _ => 0#8) m a b) (a + 1) bs

def Dev.hostWrite (d : Dev) (a : Nat) (bs : List Byte) : Dev := { d with hostMem := hostPut d.hostMem a bs }

/-- A submission queue's configuration in force: BASE, LOCATION, SIZE, CONTEXT, CQ, FUNCTION. -/
def Dev.sqBase (d : Dev) (q : Nat) : Nat := d.v (0x3400 + q) 1 0
def Dev.sqHost (d : Dev) (q : Nat) : Bool := d.v (0x3400 + q) 2 0 = 1
def Dev.sqSize (d : Dev) (q : Nat) : Nat := d.v (0x3400 + q) 3 0
def Dev.sqContext (d : Dev) (q : Nat) : Nat := d.v (0x3400 + q) 4 0
def Dev.sqCq (d : Dev) (q : Nat) : Nat := d.v (0x3400 + q) 5 0
def Dev.sqFunction (d : Dev) (q : Nat) : Nat := d.v (0x3400 + q) 6 0

/-- A completion queue's: BASE, LOCATION, SIZE, VECTOR, FUNCTION. -/
def Dev.cqBase (d : Dev) (q : Nat) : Nat := d.v (0x3800 + q) 1 0
def Dev.cqHost (d : Dev) (q : Nat) : Bool := d.v (0x3800 + q) 2 0 = 1
def Dev.cqSize (d : Dev) (q : Nat) : Nat := d.v (0x3800 + q) 3 0
def Dev.cqVector (d : Dev) (q : Nat) : Nat := d.v (0x3800 + q) 4 0
def Dev.cqFunction (d : Dev) (q : Nat) : Nat := d.v (0x3800 + q) 5 0

/-- The queues whose SQ_SIZE is not 0, in ascending number. -/
def Dev.sqEnabled (d : Dev) : List Nat :=
  ((d.val.filter fun kv => inSpan (ctr 0x3400 3 0) (1024 * 2 ^ 24) kv.1 && kv.1 % 2 ^ 24 = 3 * 65536 && kv.2 != 0).map fun kv =>
    kv.1 / 2 ^ 24 - 0x3400)

/-- The envelope at ring index `i`, and whether it is read poisoned. -/
def Dev.envelope (d : Dev) (q i : Nat) : Nat × Bool :=
  let a := d.sqBase q + 64 * i
  if d.sqHost q then (leNat (d.hostRead a 64), false) else (d.mem.le a 64, d.mem.anyPoison a 64)

/-- Commands from ring index `h` on, before the sampled tail. -/
def Dev.sqWaiting (d : Dev) (q h : Nat) : Nat :=
  let n := d.sqSize q
  if n = 0 then 0 else ((d.sq q).sampled + n - h % n) % n

/-- The head once the batch in force is behind it. -/
def Dev.sqNext (d : Dev) (q : Nat) : Nat := if d.sqSize q = 0 then 0 else ((d.sq q).head + (d.sq q).batch) % d.sqSize q

/-! ### Batches (R375) -/

/-- Take the first `n` commands out of a list of arrivals. -/
def dropArrived : Nat → List (Nat × Nat) → List (Nat × Nat)
  | _, [] => []
  | n, x :: xs => if n < x.2 then (x.1, x.2 - n) :: xs else dropArrived (n - x.2) xs

/-- The deadline of stroke `n` samples a queue's tail. -/
def SqRun.sample (r : SqRun) (size n : Nat) : SqRun :=
  let new := (r.tail + size - r.sampled % max 1 size) % max 1 size
  { r with sampled := r.tail, arrived := if new = 0 then r.arrived else r.arrived ++ [(n, new)] }

/-- The next `n` commands from ring index `h`, up to the first with STROKE_END. -/
def Dev.scanBatch (d : Dev) (q k stroke : Nat) : Nat → Nat → List QCmd
  | 0, _ => []
  | n + 1, h =>
    let e := d.envelope q h
    let x : QCmd := { q := q, index := h, env := e.1, poison := e.2, ctx := k, stroke := stroke }
    if envStrokeEnd e.1 then [x] else x :: Dev.scanBatch d q k stroke n ((h + 1) % d.sqSize q)

/-- A queue's head moves past `n` commands. -/
def SqRun.passed (r : SqRun) (size n : Nat) : SqRun :=
  { r with head := (r.head + n) % max 1 size, arrived := dropArrived n r.arrived }

/-- The queue's next batch, for stroke `stroke`: at most 1,024 commands. -/
def Dev.nextBatch (d : Dev) (q stroke : Nat) : List QCmd :=
  d.scanBatch q (d.sqContext q) stroke (min 1024 (d.sqWaiting q (d.sq q).head)) (d.sq q).head

/-- Is a command a JOB_START that stands alone in its batch, so that it is examined (R378)? -/
def QCmd.examined (x : QCmd) : Bool := !x.poison && envOp x.env = 0x10 && envStrokeEnd x.env

/-- The heads move past the batches that were in force (R375). -/
def Dev.moveHeads (d : Dev) : Dev :=
  d.sqs.foldl (fun d kv => d.setSq kv.1 { kv.2.passed (d.sqSize kv.1) kv.2.batch with batch := 0 }) d

/-- May a batch of the context come into force for stroke `nxt` (R344, R345, R375, R378)? -/
def Dev.batchOk (d : Dev) (k nxt : Nat) : Bool :=
  decide ((d.ctx k).state = .running)
    && (d.ctx k).switchLate.all (fun n => n + 1 != nxt)
    && ((List.range 32).all fun cl => match (d.cluster cl).switch with
      | some w => w.into != some k || decide (nxt ≤ w.began)
      | none => true)
    && (match (d.ctx k).job with
      | some j => decide (j.start ≤ nxt)
      | none => true)

/-- A queue's batch is posted with COMMAND_INVALID and passed, its context being undefined (R379). -/
def Dev.refuseBatch (d : Dev) (q stroke : Nat) : Dev :=
  let xs := d.nextBatch q stroke
  ({ d with jobPosts := d.jobPosts ++ xs.map fun x => { x with status := some .commandInvalid } } : Dev).setSq q
    ((d.sq q).passed (d.sqSize q) xs.length)

/-- A queue brings its next batch into force for stroke `nxt`. A JOB_START at its head is left to be examined. -/
def Dev.formBatch (d : Dev) (q nxt : Nat) : Dev :=
  let k := d.sqContext q
  let xs := d.nextBatch q nxt
  match xs with
  | [] => d
  | x :: _ =>
    if (d.ctx k).state = .undefined || (d.ctx k).state = .tornDown then d.refuseBatch q nxt
    else if x.examined || !d.batchOk k nxt then d
    else ({ d with inForce := d.inForce ++ xs, worked := true } : Dev).setSq q { d.sq q with batch := xs.length }

/-- Every enabled queue brings its next batch into force, on a device whose units work (R388). -/
def Dev.formBatches (d : Dev) (nxt : Nat) : Dev :=
  if d.servesOnly then d else d.sqEnabled.foldl (fun d q => d.formBatch q nxt) d

/-- A context's batches are withdrawn: the heads do not move past them (R345, R378). -/
def Dev.withdraw (d : Dev) (k : Nat) : Dev :=
  let qs := dedupe ((d.inForce.filter fun x => x.ctx = k).map (·.q))
  qs.foldl (fun d q => d.setSq q { d.sq q with batch := 0 }) { d with inForce := d.inForce.filter fun x => x.ctx != k }

/-! ### MSI-X (R363, R379) -/

/-- Is a vector masked in its function's table? Bit 0 of the entry's last word, as PCI Express lays it out (PRESUMED,
log entry 25). -/
def RegBlock.masked (r : RegBlock) (v : Nat) : Bool := (SMap.get (fun _ => 0#8) r.msixTable (16 * v + 12)).toNat % 2 = 1

/-- Send a vector, or leave it pending where it is masked. -/
def Dev.sendMsix (d : Dev) (fn v : Nat) : Dev :=
  let r := d.reg fn
  if v ≥ 64 then d
  else if r.masked v then d.setReg fn { r with pba := setBit r.pba v }
  else d.emit (.msix fn v)

/-! ### Completion entries (R379) -/

/-- COMMITTED, and the status of R379: a command's own, or the context's first where the stroke is not committed. -/
def commandEntry (x : QCmd) (committed : Bool) (st : Option Status) : Nat :=
  b2n committed * 2 ^ 251 + x.q % 1024 * 2 ^ 241 + x.index % 65536 * 2 ^ 225 + envTag x.env * 2 ^ 193 + x.stroke % 2 ^ 64 * 2 ^ 129
    + statusCode st * 2 ^ 113 + statusCode x.note * 2 ^ 97 + x.detail % 2 ^ 36 * 2 ^ 61

/-- The summary entry of a context. -/
def summaryEntry (k stroke : Nat) (c : Ctx) (committed : Bool) (sts : List Status) : Nat :=
  2 ^ 252 + b2n committed * 2 ^ 251 + k % 4096 * 2 ^ 239 + min sts.length 255 * 2 ^ 231 + stroke % 2 ^ 64 * 2 ^ 167
    + statusCode sts.head? * 2 ^ 151 + c.uflags % 2 ^ 32 * 2 ^ 97 + c.tflags % 2 ^ 32 * 2 ^ 65 + c.sflags % 2 ^ 32 * 2 ^ 33
    + c.nflags % 2 ^ 32 * 2

/-- Has the ring room for another entry? One slot stays free, as in a submission ring (log entry 25). -/
def Dev.cqRoom (d : Dev) (q : Nat) : Bool := d.cqSize q != 0 && decide (((d.cq q).tail + 1) % d.cqSize q ≠ (d.cq q).head)

/-- Write an entry at the tail with the PHASE of this pass. -/
def Dev.writeCq (d : Dev) (e : CqEntry) : Dev :=
  let r := d.cq e.cq
  let a := d.cqBase e.cq + 32 * r.tail
  let bs := natLe 32 (e.entry + b2n r.phase)
  let t := (r.tail + 1) % d.cqSize e.cq
  let d1 : Dev := if d.cqHost e.cq then d.hostWrite a bs else d.memStore a bs false
  let d2 := d1.setCq e.cq { r with tail := t, phase := if t = 0 then !r.phase else r.phase }
  if e.isCommand then d2.bump 0x80E0 7 0 1 else d2

/-- Post an entry: it is written, held behind earlier ones or for want of room, or lost. -/
def Dev.post (d : Dev) (e : CqEntry) : Dev :=
  if d.cqRoom e.cq && d.heldCq.all (fun x => x.cq != e.cq) then d.writeCq e
  else if d.heldCq.length < 16384 then ({ d with heldCq := d.heldCq ++ [e] } : Dev).bump 0x80E0 8 0 1
  else d.bump 0x80E0 9 0 1

/-- Held entries are posted, in order, as far as there is room. -/
def Dev.flushHeldCq (d : Dev) : Dev :=
  d.heldCq.foldl (fun d e =>
    if d.cqRoom e.cq && d.heldCq.all (fun x => x.cq != e.cq) then d.writeCq e else { d with heldCq := d.heldCq ++ [e] })
    { d with heldCq := [] }

/-- Send the vectors of the queues whose tails have moved since `before`. -/
def Dev.cqVectors (d before : Dev) : Dev :=
  (d.cqs.filter fun kv => kv.2.tail != (before.cq kv.1).tail).foldl (fun d kv => d.sendMsix (d.cqFunction kv.1) (d.cqVector kv.1)) d

end Sys2Proof.Machine
end

