-- ==== Sys2Proof/Machine/Remote.lean ====
section
/-! DEFINITION. Memory packets at their receivers: requests, responses, bulk transfers and their acknowledgements, timeouts,
pages brought in, walks and scrubbing (spec/11_memory_fabric.md R253 to R269; spec/10_buckets_valves.md R232;
spec/18_faults.md R407). -/

namespace Sys2Proof.Machine

/-! ### At the target (R257 to R259, R264, R266, R269) -/

/-- The valid remote access entries in force (R257). -/
def Dev.remoteEntries (d : Dev) : List Nat :=
  ((List.range 64).filter fun i => decide (128 ≤ d.v 0x5100 (1 + i) 31)).map fun i => leNat ((List.range 32).map fun j => BitVec.ofNat 8 (d.v 0x5100 (1 + i) j))

/-- Answer a request. -/
def Dev.answer (d : Dev) (c : Clock) (m : MemReq) (k : MemRespKind) : Dev :=
  d.respond c m.src.toNat m.e2e.toNat (.memResp ⟨BitVec.ofNat 20 d.geid, m.e2e, k, false⟩)

/-- A remote access that is refused is counted. -/
def Dev.refuse (d : Dev) (c : Clock) (m : MemReq) : Dev := (d.bump 0x8090 3 0 1).answer c m .denied

/-- Append a record to the atomic log (R266). -/
def Dev.atomicLog (d : Dev) (c : Clock) (m : MemReq) (aop : Nat) (size64 : Bool) (addr old seq : Nat) : Dev :=
  let n := d.v 0x5010 2 0
  if n = 0 then d
  else
    let k := d.v 0x5010 3 0
    let w := c.stroke * 2 ^ 192 + old * 2 ^ 128 + m.src.toNat * 2 ^ 108 + m.partition.val * 2 ^ 105 + seq * 2 ^ 89 + aop * 2 ^ 85
      + b2n size64 * 2 ^ 84 + addr
    let a := d.v 0x5010 1 0 + k % n * 32
    (d.memStore a (natLe 32 w) false).setV 0x5010 3 0 (k + 1)

/-- The response cache of a source. -/
def Dev.respCache (d : Dev) (g : Nat) : Option RespCache := d.respCaches.find? fun r => r.src = g

/-- The number of a source's atomic in the stroke, from its sequence ID: IDs in flight lie within 64 of each other, so the
number is the one nearest to those seen (R264). The device after it has seen it. -/
def Dev.atomicNumber (d : Dev) (g seq : Nat) : Dev × Nat :=
  let top := SMap.get (fun _ => 0) d.atomicTop g
  let ahead := (seq + 65536 - top % 65536) % 65536
  let n := if ahead < 32768 || top + ahead < 65536 then top + ahead else top + ahead - 65536
  ({ d with atomicTop := SMap.put (fun _ => 0) d.atomicTop g (max top (n + 1)) }, n)

/-- An atomic that the cache does not hold, the `n`-th of its source: served, unless the source or its number is beyond what
is served. -/
def Dev.atomicFresh (d : Dev) (c : Clock) (m : MemReq) (aop : Nat) (size64 : Bool) (addr a b seq n : Nat) (r : RespCache) : Dev :=
  if ((d.respCache r.src).isNone && decide (4096 ≤ d.respCaches.length)) || decide (65536 ≤ n) then d.answer c m .atomicRefused
  else
    let x := atomicApply d.memNow aop size64 addr a b
    let k := atomicBytes size64
    let word := x.2.1 + b2n x.2.2 * 2 ^ 64
    let r1 : RespCache := { r with entries := SMap.put (fun _ => none) r.entries (seq % 64) (some (seq, word)) }
    let d1 : Dev := { d.memStore addr (natLe k (x.1.le addr k)) false with respCaches := (d.respCaches.filter fun y => y.src != r.src) ++ [r1] }
    ((d1.bump 0x8090 4 0 1).atomicLog c m aop size64 addr x.2.1 seq).answer c m (.old (BitVec.ofNat 64 x.2.1) x.2.2)

/-- A remote atomic that is permitted: applied at most once (R264). -/
def Dev.atomicIn (d : Dev) (c : Clock) (m : MemReq) (aop : Nat) (size64 : Bool) (addr a b seq n : Nat) : Dev :=
  let r := (d.respCache m.src.toNat).getD { src := m.src.toNat }
  match (SMap.get (fun _ => none) r.entries (seq % 64)).filter fun x => x.1 = seq with
  | some x => (d.bump 0x8090 5 0 1).answer c m (.old (BitVec.ofNat 64 x.2) (bit x.2 64))
  | none => d.atomicFresh c m aop size64 addr a b seq n r

/-- What becomes of a remote access to [a, a + n): refused, waiting for a cistern still PRIMING (R387), or served. -/
def Dev.remoteBar (d : Dev) (g q a n : Nat) (r : RemoteRight) : Option Bar :=
  if !remoteOk d.remoteEntries g q a n r then some .denied else d.cisternBar a n

/-- A memory request of another device (R258 to R262), with what the code of the lines it reads finds (R406; no context of this
device reads them). A FAULTED cistern's bytes are refused (log entry 20); a signal is an operation of the context that holds
the valve's cluster (log entry 107). -/
def Dev.memReqIn (d : Dev) (c : Clock) (x : MemReqSeen) : Dev :=
  let m := x.req
  let g := m.src.toNat
  let q := m.partition.val
  let served := fun (a n : Nat) (r : RemoteRight) (f : Dev) =>
    match d.remoteBar g q a n r with
    | none => f
    | some .waits => { d with heldIn := d.heldIn ++ [.memReq x] }
    | some _ => d.refuse c m
  match m.kind with
  | .load addr n =>
    let e := d.eccAll c none x.ecc
    served addr.toNat n.val .load (e.answer c m (.data (e.memNow.read addr.toNat n.val) (e.memNow.anyPoison addr.toNat n.val)))
  | .store addr data poison => served addr.toNat data.length .store ((d.memStore addr.toNat data poison).answer c m .ack)
  | .atomic aop size64 addr a b seq =>
    let y := d.atomicNumber g seq.toNat
    match y.1.remoteBar g q addr.toNat (atomicBytes size64) .atomic with
    | none => (y.1.eccAll c none x.ecc).atomicIn c m aop.val size64 addr.toNat a.toNat b.toNat seq.toNat y.2
    | some .waits => { d with heldIn := d.heldIn ++ [.memReq x] }
    | some _ => y.1.refuse c m
  | .signal v k =>
    let ok := match d.clusterOwner (v.val / 512) with
      | some p => remoteSignalOk d.remoteEntries g q p && !d.clusterFaulted (v.val / 512)
      | none => false
    let holder := (d.cluster (v.val / 512)).holder
    let d1 := match holder with
      | some k => d.valveTouch k v.val false
      | none => d
    if ok then (d1.addSignal holder v.val k.toNat).answer c m .ack else (d.bump 0x8080 9 0 1).answer c m .valveDenied

/-- Apply a bulk transfer range by range, and acknowledge it (R269); none while a range waits for a cistern. It is counted at
the gateway that received it (R271). -/
def Dev.bulkApply (d : Dev) (c : Clock) (b : BulkIn) (h : Nat) : Option Dev :=
  let bar := fun (d : Dev) (r : BulkRange) => d.remoteBar b.src.toNat b.partition.val r.addr.toNat r.data.length .store
  if b.ranges.any fun r => bar d r = some .waits then none
  else
    let r := b.ranges.foldl (fun (x : Dev × Bool) r => match bar x.1 r with
      | none => (x.1.memStore r.addr.toNat r.data r.poison, x.2)
      | some _ => (x.1.bump 0x8090 3 0 1, true)) (d, false)
    some ((r.1.bump 0x8090 8 h (bulkBytes b.ranges)).respond c b.src.toNat b.seq.toNat (.bulkAck b.seq.toNat r.2))

/-- Transfers of a source are applied in sequence order; `fuel` bounds those that were held. -/
def bulkRun (c : Clock) (g : Nat) : Nat → Dev → Dev
  | 0, d => d
  | f + 1, d =>
    let n := SMap.get (fun _ => 0) d.bulkSeen g
    match d.bulkHeld.find? fun b => b.1.src.toNat = g && b.1.seq.toNat = n with
    | none => d
    | some b =>
      match d.bulkApply c b.1 b.2.val with
      | none => d
      | some d1 => bulkRun c g f { d1 with bulkHeld := d1.bulkHeld.filter (· != b), bulkSeen := SMap.put (fun _ => 0) d1.bulkSeen g ((n + 1) % 65536) }

/-- A bulk transfer arrives at the gateway of an H-die (R268, R269). -/
def Dev.bulkIn (d : Dev) (c : Clock) (b : BulkIn) (h : HdieId) : Dev :=
  bulkRun c b.src.toNat (d.bulkHeld.length + 1) { d with bulkHeld := d.bulkHeld ++ [(b, h)] }

/-! ### At the source (R262 to R269) -/

def Dev.dropReq (d : Dev) (id : Nat) : Dev := { d with reqs := d.reqs.filter fun r => r.id != id }

/-- The key of the device a request went to. -/
def Req.key (r : Req) : Nat := if r.byGateway then r.dest else 2 ^ 20 + r.slot

/-- The load that a request is: address and length. -/
def Req.load (r : Req) : Option (Nat × Nat) :=
  match r.content with
  | .memReq m => match m.kind with
    | .load a n => some (a.toNat, n.val)
    | _ => none
  | _ => none

/-- The unit whose load a request is: the number and the source under which its bytes are kept. -/
def ReqOwner.loadKey : ReqOwner → Option (Nat × Source)
  | .streamLoad core ch => some (streamKey core ch, .core core)
  | .unitLoad k src => some (k, src)
  | .atomic id => some (id, .command id)
  | _ => none

/-- Bytes have arrived for a request. -/
def Dev.bytesArrive (d : Dev) (r : Req) (a : Nat) (bs : List Byte) (poison : Bool) : Dev :=
  let d1 := d.dropReq r.id
  let d2 : Dev := match r.owner.loadKey with
    | some k => { d1 with fetched := d1.fetched ++ [⟨k.1, k.2, r.key, a, bs, poison⟩] }
    | none => d1
  match r.owner with
  | .streamLoad core ch => d2.updCore core fun co => co.setStream ch ((co.stream ch).map fun s => { s with asked := none })
  | _ => d2

/-- A store or signal has completed. -/
def Dev.storeDone (d : Dev) (r : Req) : Dev :=
  let d1 := (d.dropReq r.id).freePacked r.id
  match r.owner with
  | .seqSignal core => (d1.updCore core fun co => { co with signalAsked := none }).settle core
  | .cmdSignal id => d1.cmdDone id
  | _ => d1

/-- DETAIL of an INDETERMINATE atomic (R379). -/
def Req.atomicDetail (r : Req) : Nat := r.seq % 65536 * 2 ^ 20 + r.dest

/-- A request has failed (R259, R265, R267): a load delivers all-ones bytes marked poisoned, a store counts as completed, a
signal or an atomic gives its status to the plan or command that made it. -/
def Dev.reqFail (d : Dev) (r : Req) (st : Status) : Dev :=
  match r.owner with
  | .atomic id => (d.dropReq r.id).cmdFault id r.ctx st (if st = .indeterminate then r.atomicDetail else 0)
  | .cmdSignal id => (d.dropReq r.id).cmdFault id r.ctx st 0
  | .seqSignal core =>
    let d1 := d.raiseAt r.ctx st 0 .core core
    (match (d1.core core).run with
      | some x => d1.planStatus x st
      | none => d1).storeDone r
  | _ =>
    let d1 := d.raise r.ctx st
    match r.load with
    | some x => d1.bytesArrive r x.1 (List.replicate x.2 0xFF#8) true
    | none => d1.storeDone r

/-- Is it a request of its own, not a store within a bulk transfer? -/
def Req.single (r : Req) : Bool := match r.content with
  | .bulk _ => false
  | _ => true

/-- The request outstanding to a device under an end-to-end number. -/
def Dev.reqOf (d : Dev) (g e : Nat) : Option Req := d.reqs.find? fun r => r.single && r.dest = g && r.e2e = e

/-- A bulk transfer ends: its stores complete, or fail with a status raised once (R269). -/
def Dev.bulkEnds (d : Dev) (c : Clock) (b : SentBulk) (st : Option Status) : Dev :=
  let d1 : Dev := { d with sentBulks := d.sentBulks.filter (· != b) }
  let d2 := match st with
    | some s => d1.raise b.ctx s
    | none => d1
  let d3 := (d2.reqs.filter fun r => b.reqs.contains r.id).foldl (fun d r => d.storeDone r) d2
  (d3.pumpBulks c).goOn c

/-- The status of an atomic that the fabric answers with NO_ROUTE (R267, R307). -/
def Req.noRouteStatus (r : Req) : Status :=
  match r.owner with
  | .atomic _ => if r.retransmitted then .indeterminate else .targetUnreachable
  | _ => .targetUnreachable

/-- The request that a NO_ROUTE answers: the one to the device it names with its end-to-end number, else any with that
number, since a router that has rewritten the destination cannot name it (log entry 11). -/
def Dev.noRouteReq (d : Dev) (g e : Nat) : Option Req :=
  match d.reqOf g e with
  | some r => some r
  | none =>
    if (d.sentBulks.any fun b => b.dest = g && b.e2e = e) || (d.demandsOut.any fun x => x.1 = g && x.2.1 = e) then none
    else d.reqs.find? fun r => r.single && r.e2e = e

/-- NO_ROUTE answers a bulk transfer, or a DEMAND or DEMAND_END message (R267, R307). -/
def Dev.noRouteOther (d : Dev) (c : Clock) (g e : Nat) : Dev :=
  match d.sentBulks.find? fun b => b.dest = g && b.e2e = e with
  | some b => d.bulkEnds c b (some .targetUnreachable)
  | none =>
    match (d.demandsOut.find? fun x => x.1 = g && x.2.1 = e).or (d.demandsOut.find? fun x => x.2.1 = e) with
    | some x => ({ d with demandsOut := d.demandsOut.filter (· != x) } : Dev).unreachable x.2.2
    | none =>
      match d.sentBulks.find? fun b => b.e2e = e with
      | some b => d.bulkEnds c b (some .targetUnreachable)
      | none => d

/-- A response reaches its source (R259, R262, R307). -/
def Dev.memRespIn (d : Dev) (c : Clock) (m : MemResp) : Dev :=
  let g := m.src.toNat
  let d := if m.kind = .noRoute then d.bump 0x80B0 7 0 1 else d
  let d := if m.ecnEcho then d.echoIn c g else d
  match if m.kind = .noRoute then d.noRouteReq g m.e2e.toNat else d.reqOf g m.e2e.toNat with
  | some r =>
    (match m.kind with
      | .data bs poison => match r.load with
        | some x => d.bytesArrive r x.1 bs poison
        | none => d
      | .old word poison => match r.content with
        | .memReq ⟨_, _, _, .atomic _ s a _ _ _⟩ => d.bytesArrive r a.toNat (natLe (atomicBytes s) word.toNat) poison
        | _ => d
      | .ack => if r.load.isNone then d.storeDone r else d
      | .denied => d.reqFail r .remoteAccessDenied
      | .valveDenied => d.reqFail r .valveAccessFault
      | .atomicRefused => d.reqFail r .atomicRefused
      | .noRoute => d.reqFail r r.noRouteStatus).goOn c
  | none => if m.kind = .noRoute then d.noRouteOther c g m.e2e.toNat else d

/-- A BULK_ACK (R309). -/
def Dev.bulkAckIn (d : Dev) (c : Clock) (g seq : Nat) (denied echo : Bool) : Dev :=
  let d := if echo then d.echoIn c g else d
  match d.sentBulks.find? fun b => b.dest = g && b.seq = seq with
  | some b => d.bulkEnds c b (if denied then some .remoteAccessDenied else none)
  | none => d

/-- Send a request again, under the end-to-end number it has. -/
def Dev.resend (d : Dev) (c : Clock) (r : Req) : Dev × Bool :=
  let part := (d.ctx r.ctx).partition
  if r.byGateway then d.sendTo c (some r.ctx) part r.dest r.e2e r.content else d.sendSlot c (some r.ctx) part r.slot r.dest r.e2e r.content

/-- An atomic, or a load, without a reply is sent again (R264, R267); not after the deadline. -/
def Dev.retransmit (d : Dev) (c : Clock) (g e : Nat) (atomic : Bool) : Dev :=
  match (d.reqOf g e).filter fun r => if atomic then r.load.isNone && r.owner.loadKey.isSome else r.load.isSome with
  | none => d
  | some r =>
    if c.stage != .work then d
    else
      let s := d.resend c r
      if !s.2 then (s.1.reqFail r (if atomic then .indeterminate else .targetUnreachable)).goOn c
      else
        let d1 : Dev := { s.1 with reqs := s.1.reqs.map fun x => if x.id = r.id then { x with retransmitted := true } else x }
        if atomic then d1.bump 0x8090 6 0 1 else d1

/-- An atomic's reply has not come within its bound (R265). -/
def Dev.atomicTimeout (d : Dev) (c : Clock) (g e : Nat) : Dev :=
  match (d.reqOf g e).filter fun r => match r.owner with
      | .atomic _ => true
      | _ => false with
  | some r => (d.reqFail r .indeterminate).goOn c
  | none => d

/-- Any other request has not been answered within its bound (R267). -/
def Dev.replyTimeout (d : Dev) (c : Clock) (g e : Nat) : Dev :=
  match d.reqOf g e with
  | some r => match r.owner with
    | .atomic _ => d
    | _ => (d.reqFail r .targetUnreachable).goOn c
  | none =>
    match d.sentBulks.find? fun b => b.dest = g && b.e2e = e with
    | some b => d.bulkEnds c b (some .targetUnreachable)
    | none => d

/-! ### Pages, walks and scrubbing (R253, R254, R407) -/

/-- The present entry of a page brought into frame `f` of the device's own slot (R251, R253). -/
def broughtEntry (slot e f : Nat) : Nat := 2 ^ 63 + 2 ^ 62 + fld e 59 57 * 2 ^ 57 + (slot * 2 ^ 41 + f) / 65536

/-- Bytes of host memory from `a`. -/
def Dev.hostBytes (d : Dev) (a n : Nat) : List Byte := (List.range n).map fun i => SMap.get (fun _ => 0#8) d.hostMem (a + i)

/-- A control processor brings a page in and its units go on (R253). -/
def Dev.pageIn (d : Dev) (c : Clock) (k va : Nat) (hostOk : Bool) : Dev :=
  let x := d.ctx k
  match walk d.mem (d.share x.partition) d.straps x.tableRoot va, d.reserveNext x.partition with
  | .absent a e, some f =>
    if d.badPages.contains (k, va / 65536) then d
    else if fld e 61 60 = 2 && !hostOk then ({ d with badPages := d.badPages ++ [(k, va / 65536)] } : Dev).goOn c
    else
      let bs := if fld e 61 60 = 2 then d.hostBytes (fld e 47 0 * 65536) 65536 else List.replicate 65536 0#8
      let left := d.v (0x5300 + x.partition) 3 0
      (((((d.memStore f bs false).memStore a (natLe 8 (broughtEntry d.straps e f)) false).setV (0x5300 + x.partition) 3 0 (left - 1)).bump 0x8090 2 x.partition 1)).goOn c
  | _, _ => d.goOn c

/-- A walk of a cluster's walkers completes (R254): a translation found is kept; a full cache replaces any entry. -/
def Dev.walkDone (d : Dev) (cl k va : Nat) (store : Bool) : Dev :=
  let d1 := d.bump 0x8090 1 cl 1
  let t := (d.cluster cl).tlb
  match d1.locate k va store with
  | .error _ => d1
  | .ok m =>
    let e := (k, va / 2 ^ m.bits)
    if t.contains e then d1
    else if t.length < 4096 then d1.updCluster cl fun x => { x with tlb := t ++ [e] }
    else (d1.tickFree).updCluster cl fun x => { x with tlb := t.set (Config.freeChoice d1.freeCtr % 4096) e }

/-- The inverse of `place` (R246): the device address of a byte. -/
def unplace (splits : List Nat) (p : Place) : Nat :=
  let n := splits.getD (p.granule / 2 ^ 21) 5
  let l := if n < 5 then p.granule / 2 ^ 21 * 2 ^ 21 + (p.cistern >>> n) * 2 ^ (16 + n) + p.granule % 2 ^ (16 + n) else p.granule
  let c := if n < 5 then (fld p.granule 20 (16 + n) <<< n) ||| (p.cistern % 2 ^ n) else p.cistern
  let a := l * 2 ^ 18
  let d13 := p.channel ^^^ fld a 27 23 ^^^ fld a 37 33
  let d8 := c ^^^ fld a 22 18 ^^^ fld a 32 28 ^^^ fld a 39 38
  a + d13 * 2 ^ 13 + d8 * 2 ^ 8 + p.byte

/-- Lines of one cistern: 48 GiB. -/
def cisternLines : Nat := 805306368

/-- Device address of line `n` of a cistern, channel by channel, in ascending offset (R407, log entry 22). -/
def scrubLine (splits : List Nat) (ci n : Nat) : Nat :=
  unplace splits ⟨ci, n / 25165824, n % 25165824 / 4, n % 4 * 64⟩

/-- The scrubber of a cistern reads its next line (R407). `found` is what the symbol code finds (R406). -/
def Dev.scrub (d : Dev) (c : Clock) (ci : Nat) (found : Option Bool) : Dev :=
  if d.v 0x7200 1 0 = 0 || d.primeOf (64 + ci) != 1 || d.slotOn || (c.stage != .work && c.stage != .burstEnded && c.stage != .valvesReset) then d
  else
    let n := SMap.get (fun _ => 0) d.scrubAt ci
    let a := scrubLine d.splits ci (n % cisternLines)
    let d1 := match found with
      | none => d
      | some false => d.bump 0x80F0 1 ci 1
      | some true => ({ d with mem := d.mem.setPoison (a / 64) true } : Dev).bump 0x80F0 2 ci 1
    let d2 := if d1.mem.poisoned a then
        (d1.tickFree).logStatus c 9 (freeStatus d1.freeCtr) (Config.freeChoice d1.freeCtr % 4) a .cistern ci
      else d1
    let least := fun (m : SMap Nat) => (List.range 32).foldl (fun x i => min x (SMap.get (fun _ => 0) m i / cisternLines)) n.succ
    let at1 := SMap.put (fun _ => 0) d.scrubAt ci (n + 1)
    ({ d2 with scrubAt := at1 } : Dev).bump 0x80F0 6 0 (least at1 - least d.scrubAt)

/-! ### Packets by kind (R34) -/

/-- A Tridal message under a row that carries type `t` (R171). Demands and rows travel in class 2. -/
def Dev.tridalIn (d : Dev) (c : Clock) (t : Nat) (m : TridalIn) (disagree : List Nat) : Dev :=
  if thType m.header.toNat != t then d.tridalOther m
  else
    match t with
    | 1 | 2 => d.classTwoIn c m disagree
    | 3 | 4 => d.grantIn c m
    | _ => (d.classTwoIn c m []).goOn c

/-- A tagged packet of this stroke. -/
def Dev.ingressTake (d : Dev) (c : Clock) : Instr → Dev
  | .demand m x => d.tridalIn c 1 m x
  | .demandEnd m x => d.tridalIn c 2 m x
  | .grant m => d.tridalIn c 3 m []
  | .grantEnd m => d.tridalIn c 4 m []
  | .rows m => d.tridalIn c 5 m []
  | .returnRows m => d.tridalIn c 6 m []
  | .up m seen => d.collIn c 1 ⟨m, seen.step, seen.bufferError⟩
  | .down m => d.collIn c 2 ⟨m.msg, none, m.bufferError⟩
  | .poisonNotice m => d.collIn c 3 ⟨m, none, false⟩
  | .confirm m => d.collIn c 4 ⟨m, none, false⟩
  | .verdict m => d.collIn c 5 ⟨m, none, false⟩
  | .memReq m => d.memReqIn c m
  | .memResp m => d.memRespIn c m
  | .bulk b => d.bulkIn c b.transfer b.hdie
  | .bulkAck g s x e => d.bulkAckIn c g.toNat s.toNat x e
  | .packetForward i p => d.forward c i p.packet
  | _ => d

/-- A tagged packet arrives: taken until 200 ns into the turnover, and held after that until the next stroke (R34). The
packet rows carry no tag: what arrives while ingress is closed belongs to the next stroke (log entry 23). -/
def Dev.ingress (d : Dev) (c : Clock) (i : Instr) : Dev :=
  if (c.stage = .work && !c.held) || c.stage = .deadline then (d.ingressTake c i).flowControl else { d with heldIn := d.heldIn ++ [i] }

/-- Packets held at ingress are taken, each once. -/
def Dev.releaseHeld (d : Dev) (c : Clock) : Dev := (d.heldIn.foldl (fun d i => d.ingressTake c i) ({ d with heldIn := [] } : Dev)).flowControl

end Sys2Proof.Machine
end

