-- ==== Sys2Proof/Machine/Contexts.lean ====
section
/-! DEFINITION. Contexts: DEFINE, teardown, handover of clusters, switch-overs, swapping and abort
(spec/15_contexts.md R334 to R351). -/

namespace Sys2Proof.Machine

/-! ### States (R341) -/

/-- Does the context occupy a resident slot? -/
def Ctx.resident (c : Ctx) : Bool :=
  c.slot.isSome && (match c.state with
    | .resident | .stalled | .running | .suspended | .aborting | .aborted => true
    | _ => false)

/-- Is it a member context (R27)? -/
def Ctx.member (c : Ctx) : Bool := c.resident && (match c.job with | some j => j.multi | none => false)

/-- Is there no context under the number (UNDEFINED or TORN_DOWN)? -/
def Ctx.gone (c : Ctx) : Bool := c.state = .undefined || c.state = .tornDown

/-- Fault every resident member context (R27, R313). -/
def Dev.faultMembers (d : Dev) (st : Status) : Dev :=
  d.ctxIds.foldl (fun d k => if (d.ctx k).member then d.raise k st else d) d

/-- A RESIDENT, STALLED or RUNNING state from the clusters held. -/
def Dev.heldState (d : Dev) (k : Nat) : CtxState :=
  let need := bitsOf 32 (d.ctx k).clusters
  let held := need.filter fun cl => decide ((d.cluster cl).holder = some k)
  if held.isEmpty then .resident else if held.length = need.length then .running else .stalled

/-- The context takes the state its clusters give. -/
def Dev.resettle (d : Dev) (k : Nat) : Dev := d.updCtx k fun c => { c with state := d.heldState k }

/-! ### The spill area (R339) -/

/-- Bytes of the part of a spill area for one cluster. -/
def spillBytes : Nat := 0x3010000

/-- Where a context's spill area holds cluster `cl`. -/
def Ctx.spillAt (c : Ctx) (cl : Nat) : Nat :=
  c.spillAddr + ((bitsOf 32 c.clusters).filter fun x => decide (x < cl)).length * spillBytes

/-- Bytes of the whole area. -/
def Ctx.spillSize (c : Ctx) : Nat := (bitsOf 32 c.clusters).length * spillBytes

/-! ### DEFINE (R337, R340) -/

/-- A record as DEFINE reads it. -/
def Ctx.ofRecord (w client : Nat) : Ctx :=
  { state := .defined, client := client, flagFaults := fld w 415 384, srSeed := fld w 383 320, spillAddr := fld w 319 279
    tableRoot := fld w 278 238, clusters := fld w 237 206, suspend := bit w 205, loadBalance := bit w 204, lc := bit w 203
    partition := fld w 202 200, numericsRec := 1 }

/-- Its reserved bits: those of the record, and those of FLAG_FAULTS (R338). -/
def recordReserved (w : Nat) : Bool :=
  fld w 2047 512 != 0 || fld w 431 424 != 0 || fld w 419 416 != 0 || fld w 199 0 != 0 || fld w 415 401 != 0

/-- Where a context's record lies. -/
def Dev.recordAt (d : Dev) (k : Nat) : Nat := d.v 0x3000 1 0 + 256 * k

/-- Does a record pass R340, R388, R413 and R461? `only` is the partition of a path that may use no other (R361). -/
def Dev.defineOk (d : Dev) (k : Nat) (x : Ctx) (w : Nat) (poison : Bool) (only : Option Nat) : Bool :=
  let own := d.v (0x3100 + x.partition) 1 0
  let share := d.share x.partition
  (d.ctx k).gone && !poison && inCistern (d.recordAt k) 256 && !recordReserved w && own != 0 && x.clusters != 0
    && x.clusters &&& own = x.clusters && x.tableRoot % 4096 = 0 && inShare share x.tableRoot 4096
    && x.spillAddr % 65536 = 0 && inShare share x.spillAddr x.spillSize
    && (match only with | some p => decide (p = x.partition) | none => true)
    && ((bitsOf 32 x.clusters).all fun cl => !d.clusterFaulted cl && !(d.cluster cl).disabled)
    && d.primeOf 16 != 2 && d.primeOf 17 != 2

/-- The fields the device writes into a record at DEFINE: CLIENT, NUMERICS_REC and COMMITTED_STROKE. -/
def Dev.writeRecord (d : Dev) (k : Nat) : Dev :=
  let a := d.recordAt k
  let c := d.ctx k
  let m := (d.mem.write (a + 52) [BitVec.ofNat 8 (c.client % 16 * 16)] false).write (a + 54) (natLe 2 c.numericsRec) false
  { d with mem := m.write (a + 56) (List.replicate 8 0xFF#8) false }

/-- A DEFINE is carried out. -/
def Dev.defineOne (d : Dev) (r : DefineAsk) : Dev :=
  let a := d.recordAt r.ctx
  let w := d.mem.le a 256
  let x := Ctx.ofRecord w r.client
  if d.defineOk r.ctx x w (d.mem.anyPoison a 256) r.onlyPartition then
    ((d.setCtx r.ctx { x with numericsRec := d.v 0x2010 1 0, removeAt := if r.doomed then some r.due else none }).writeRecord r.ctx).setV 0x3000 3 0 0
  else d.setV 0x3000 3 0 1

/-- The DEFINEs due at the turnover of stroke `n`, in the order they were written. -/
def Dev.runDefines (d : Dev) (n : Nat) : Dev :=
  let due := d.defines.filter fun r => decide (r.due ≤ n)
  due.foldl (fun d r => d.defineOne r) { d with defines := d.defines.filter fun r => decide (n < r.due) }

/-! ### Stopping a context's work (R350) -/

/-- A context's streams stop; halted ones are written back ABANDONED. -/
def Dev.stopStreams (d : Dev) (c : Clock) (k : Nat) : Dev :=
  d.busyChannels.foldl (fun d x => match d.stream x.1 x.2 with
    | some s => if s.ctx != k then d
      else
        let d1 := if !(s.halted && s.descRead) then d
          else match d.writeState c x.1 x.2 s 2 (sdTotal s.desc - s.pos) with
            | .ok e => e
            | .error _ => d
        d1.setStream x.1 x.2 none
    | none => d) d

/-- A switch-over no longer concerns the context: what it would bring in for it is not brought in, and what it would
take out for it is not kept. -/
def SwitchOver.without (w : SwitchOver) (k : Nat) : Option SwitchOver :=
  let w1 : SwitchOver := { w with out := if w.out = some k then none else w.out, into := if w.into = some k then none else w.into
                                  armed := if w.out = some k then [] else w.armed }
  if w1.out.isNone && w1.into.isNone then none else some w1

def Dev.stopSwitches (d : Dev) (k : Nat) : Dev :=
  d.clusters.foldl (fun d kv => d.updCluster kv.1 fun x => { x with switch := x.switch.bind fun w => w.without k }) d

/-- Everything of a context that its units have under way stops. -/
def Dev.stopUnits (d : Dev) (k : Nat) : Dev :=
  let ids := (d.inForce.filter fun x => x.ctx = k).map QCmd.id
  let mine := fun id => ids.contains id
  let d1 := d.cores.foldl (fun d kv => d.updCore kv.1 fun co =>
    { co with board := co.board.filter fun e => e.ctx != k
              waiting := co.waiting.filter fun r => r.ctx != k
              run := co.run.filter fun r => r.ctx != k
              session := if (co.run.any fun r => r.ctx = k) then none else co.session
              valveWait := if (co.run.any fun r => r.ctx = k) then none else co.valveWait
              queueWaits := co.queueWaits && !(co.run.any fun r => r.ctx = k)
              poolWait := co.poolWait && !(co.run.any fun r => r.ctx = k)
              signalAsked := if (co.run.any fun r => r.ctx = k) then none else co.signalAsked }) d
  let d2 := d1.clusters.foldl (fun d kv => d.updCluster kv.1 fun x => { x with combines := x.combines.filter fun id => !mine id }) d1
  { d2 with
    selects := d2.selects.filter fun r => r.ctx != k
    valvePend := d2.valvePend.filter fun w => w.ctx != k
    rounds := d2.rounds.filter fun r => r.ctx != k
    combines := d2.combines.filter fun r => r.ctx != k
    updates := d2.updates.filter fun r => r.ctx != k
    allsums := d2.allsums.filter fun a => a.ctx != k
    packQueue := d2.packQueue.filter fun j => !mine j.cmd
    reqs := d2.reqs.filter fun r => r.ctx != k
    demandsOut := d2.demandsOut.filter fun r => r.2.2 != k
    openBulks := d2.openBulks.filter fun b => b.ctx != k
    sentBulks := d2.sentBulks.filter fun b => b.ctx != k
    regHeld := d2.regHeld.filter fun x => x.2.ctx != some k
    shapeHeld := d2.shapeHeld.filter fun x => x.packet.ctx != some k
    links := SMap.mapVals (fun _ => {}) (fun l => { l with queue := l.queue.filter fun x => x.2.ctx != some k }) d2.links
    fetched := d2.fetched.filter fun f => !mine f.cmd
    inForce := d2.inForce.map fun x => if x.ctx = k then { x with issued := true, completed := true } else x }

/-- ABORT stops everything the context does (R350). -/
def Dev.stopCtx (d : Dev) (c : Clock) (k : Nat) : Dev := ((d.stopStreams c k).stopUnits k).stopSwitches k

/-! ### Teardown (R349) -/

/-- The armed slots of a context, on every core. -/
def Dev.armedOf (d : Dev) (k : Nat) : List (Nat × Nat × Armed) :=
  (d.cores.map fun kv => kv.2.armed.filterMap fun ca => match ca.2 with
    | some a => if a.ctx = k then some (kv.1, ca.1, a) else none
    | none => none).flatten

/-- Armed slots kept for a context outside its cores: in its spill area, or on their way there. -/
def Dev.armedAway (d : Dev) (k : Nat) : List (Nat × Nat × Armed) :=
  (d.ctx k).keptArmed ++ (d.clusters.map fun kv => match kv.2.switch with
    | some w => if w.out = some k then w.armed else []
    | none => []).flatten

/-- Discard a context's armed slots, wherever they are (R214). -/
def Dev.discardAllArmed (d : Dev) (k : Nat) : Dev :=
  let away := d.armedAway k
  let d1 := (d.armedOf k).foldl (fun d x => d.discardArmed x.1 x.2.1) d
  (away.foldl (fun d x => d.bump 0x8070 7 x.1 1) d1).updCtx k fun c => { c with keptArmed := [] }

/-- A context is torn down. -/
def Dev.tearDown (d : Dev) (c : Clock) (k : Nat) : Dev :=
  let faulted := (d.ctx k).condemned && (d.ctx k).job.isSome
  let d0 := if faulted then d.bump 0x80D0 8 (d.ctx k).client 1 else d
  let d1 := ((d0.discardAllArmed k).stopCtx c k)
  let d2 := d1.clusters.foldl (fun d kv => d.updCluster kv.1 fun x => { x with holder := if x.holder = some k then none else x.holder }) d1
  (((d2.freeOwned k).dropGroups k).withdraw k).updCtx k fun x =>
    { x with state := .tornDown, slot := none, entering := none, spilled := 0, runnable := false, blockedAge := 0, waitingAge := 0
             runStrokes := 0, job := none, handling := false, escalated := false, condemned := false, removeAt := none
             resumeAt := none, fresh := false, faultedNow := false }

/-- Contexts torn down at the turnover of stroke `n`: those their fault policy condemns, and those removed (R349, R350,
R373, R411). -/
def Dev.runTeardowns (d : Dev) (c : Clock) (n : Nat) : Dev :=
  d.ctxIds.foldl (fun d k =>
    let x := d.ctx k
    if x.condemned || x.removeAt.any (fun r => decide (r ≤ n)) then d.tearDown c k else d) d

/-- RESUMEs due at the turnover of stroke `n` (R349). -/
def Dev.runResumes (d : Dev) (n : Nat) : Dev :=
  d.ctxIds.foldl (fun d k =>
    let x := d.ctx k
    if !(x.resumeAt.any fun r => decide (r ≤ n)) then d
    else
      let d1 := d.setCtx k { x with resumeAt := none, fresh := true, handling := false }
      if x.state != .suspended then d1
      else if x.slot.isNone then d1.updCtx k fun y => { y with state := .defined }
      else d1.resettle k) d

/-! ### Handover (R343) -/

/-- Rank order of contexts that wait: LC before BE, then greater waiting age, then lower number. -/
def Dev.rankAhead (d : Dev) (a b : Nat) : Bool :=
  let x := d.ctx a
  let y := d.ctx b
  if x.lc != y.lc then x.lc
  else if x.waitingAge != y.waitingAge then decide (y.waitingAge < x.waitingAge)
  else decide (a < b)

/-- yields(h, x) of R343. A context suspended at this turnover keeps its clusters at it (R37, R346). -/
def Dev.yields (d : Dev) (h x : Nat) : Bool :=
  let y := d.ctx h
  if y.faultedNow then false
  else if !y.runnable || y.state = .stalled then true
  else if y.lc then false
  else if (d.ctx x).lc then true
  else
    let q := d.v (0x3100 + y.partition) 7 0
    q != 0 && decide (q ≤ y.runStrokes)

/-- May a cluster be granted at this turnover (R343, R345, R387, R388, R413)? -/
def Dev.grantable (d : Dev) (granted : List Nat) (cl : Nat) : Bool :=
  !granted.contains cl && (d.cluster cl).switch.isNone && !(d.cluster cl).disabled && !(d.cluster cl).noGrant && d.primeOf (32 + cl) = 1

/-- A cluster passes from its holder, if any, to `x` or to none: the switch-over begins at phase 0 of stroke `nxt`. -/
def Dev.passCluster (d : Dev) (cl : Nat) (x : Option Nat) (nxt : Nat) : Dev :=
  let h := (d.cluster cl).holder
  let armed : List (Nat × Nat × Armed) := match h with
    | some k => (d.armedOf k).filter fun a => a.1 / 8 = cl
    | none => []
  let d1 := armed.foldl (fun d a => d.updCore a.1 fun co => co.setArmed a.2.1 none) d
  let d2 := d1.updCluster cl fun y => { y with holder := x, switch := some ⟨h, x, nxt, armed⟩ }
  match h with
  | none => d2
  | some k => if (d2.ctx k).state = .suspended || (d2.ctx k).state = .aborting || (d2.ctx k).state = .aborted then d2
    else if x.isNone then d2 else d2.resettle k

/-- One turn of handover(p): `x` takes every cluster it lacks, if it may. -/
def Dev.takeClusters (d : Dev) (x nxt : Nat) (granted : List Nat) : Dev × List Nat :=
  let t := (bitsOf 32 (d.ctx x).clusters).filter fun cl => decide ((d.cluster cl).holder ≠ some x)
  let holders := dedupe (t.filterMap fun cl => (d.cluster cl).holder)
  if t.isEmpty || !(t.all fun cl => d.grantable granted cl) || !(holders.all fun h => d.yields h x) then (d, granted)
  else
    let preempted := t.filter fun cl => match (d.cluster cl).holder with
      | some h => (d.ctx h).runnable
      | none => false
    let d1 := t.foldl (fun d cl => d.passCluster cl (some x) nxt) d
    ((d1.bump 0x80D0 1 0 preempted.length).resettle x, granted ++ t)

/-- handover of every partition (R343). A SUSPENDED, ABORTING or ABORTED context takes nothing. -/
def Dev.handover (d : Dev) (nxt : Nat) : Dev :=
  ((List.range 8).foldl (fun (r : Dev × List Nat) p =>
    let w := sortBy r.1.rankAhead (r.1.ctxIds.filter fun k =>
      let c := r.1.ctx k
      decide (c.partition = p) && c.slot.isSome && c.runnable && !c.fresh && (c.state = .resident || c.state = .stalled))
    w.foldl (fun r x => r.1.takeClusters x nxt r.2) r) (d, [])).1

/-! ### Swapping (R348) -/

/-- The slots that no context occupies or is about to enter. -/
def Dev.freeSlots (d : Dev) : List Nat :=
  (List.range 64).filter fun s => d.ctxIds.all fun k => (d.ctx k).slot != some s && (d.ctx k).entering != some s

/-- Runnable DEFINED contexts without a slot, in rank order. -/
def Dev.swapCandidates (d : Dev) : List Nat :=
  sortBy d.rankAhead (d.ctxIds.filter fun k =>
    let c := d.ctx k
    c.state = .defined && c.runnable && c.slot.isNone && c.entering.isNone && !c.fresh)

/-- Victims, the first to go first: BE before LC, then greater blocked age, then lower number. -/
def Dev.victimAhead (d : Dev) (a b : Nat) : Bool :=
  let x := d.ctx a
  let y := d.ctx b
  if x.lc != y.lc then y.lc
  else if x.blockedAge != y.blockedAge then decide (y.blockedAge < x.blockedAge)
  else decide (a < b)

def Dev.swapVictims (d : Dev) : List Nat :=
  sortBy d.victimAhead (d.ctxIds.filter fun k =>
    let c := d.ctx k
    c.slot.isSome && !c.faultedNow && (c.state = .resident || c.state = .stalled || c.state = .running))

/-- A victim leaves its slot: its clusters undergo an out-only switch-over. -/
def Dev.swapOut (d : Dev) (v nxt : Nat) : Dev :=
  let d1 := (d.heldBy v).foldl (fun d cl => d.passCluster cl none nxt) d
  (d1.updCtx v fun c => { c with state := .defined, slot := none, runStrokes := 0 }).bump 0x80D0 3 0 1

/-- Swapping, after handover. -/
def Dev.swap (d : Dev) (nxt : Nat) : Dev :=
  let cands := d.swapCandidates
  let free := d.freeSlots
  let d1 := (List.zip cands free).foldl (fun d x => d.updCtx x.1 fun c => { c with entering := some x.2 }) d
  let rest := cands.drop free.length
  let residents := d1.ctxIds.filter fun k => (d1.ctx k).resident
  if rest.isEmpty || residents.isEmpty || residents.any (fun k => (d1.ctx k).runnable) then d1
  else
    (List.zip (d1.swapVictims.take 8) rest).foldl (fun d x =>
      let s := (d.ctx x.1).slot
      (d.swapOut x.1 nxt).updCtx x.2 fun c => { c with entering := s }) d1

/-- Contexts chosen at the last turnover enter their slots (R348). -/
def Dev.enterSlots (d : Dev) : Dev :=
  d.ctxIds.foldl (fun d k =>
    let x := d.ctx k
    match x.entering with
    | none => d
    | some s =>
      if x.state = .defined && !x.condemned then
        (d.setCtx k { x with state := .resident, slot := some s, entering := none, fresh := true }).bump 0x80D0 4 0 1
      else d.setCtx k { x with entering := none }) d

/-- The context list of R32, in the turnover of stroke `c.stroke`. -/
def Dev.contextChanges (d : Dev) (c : Clock) : Dev :=
  let n := c.stroke
  (((((((d.runDefines n).enterSlots).runTeardowns c n).runResumes n).applyGroups).handover (n + 1)).swap (n + 1))

/-! ### Switch-overs (R344, R345) -/

/-- The wells of cluster `cl` are written to the outgoing context's spill area and marked spilled. What the state block
holds besides the armed slots is undefined (log entry 26). -/
def Dev.spillOut (d : Dev) (cl : Nat) (w : SwitchOver) : Dev :=
  match w.out with
  | none => d
  | some k =>
    let a := (d.ctx k).spillAt cl
    let m := (List.range 8).foldl (fun m i => m.copy (wellBase (8 * cl + i)) (a + i * wellBytes) wellBytes) d.mem
    ({ d.tickFree with mem := (m.scramble d.freeCtr (a + 8 * wellBytes) 0x10000) } : Dev).updCtx k fun c =>
      { c with spilled := setBit c.spilled cl, keptArmed := c.keptArmed ++ w.armed }

/-- The wells of cluster `cl` are read back from the incoming context's spill area, or filled with zeros. -/
def Dev.spillIn (d : Dev) (cl : Nat) (w : SwitchOver) : Dev :=
  let zeroed := fun (m : Memory) => (List.range 8).foldl (fun m i => m.zero (wellBase (8 * cl + i)) wellBytes) m
  match w.into with
  | none => d
  | some k =>
    let c := d.ctx k
    if bit c.spilled cl then
      let a := c.spillAt cl
      let m := (List.range 8).foldl (fun m i => m.copy (a + i * wellBytes) (wellBase (8 * cl + i)) wellBytes) d.mem
      let back := c.keptArmed.filter fun x => x.1 / 8 = cl
      let d1 := ({ d with mem := m } : Dev).setCtx k
        { c with spilled := c.spilled - 2 ^ cl, keptArmed := c.keptArmed.filter fun x => x.1 / 8 != cl }
      back.foldl (fun d x => d.updCore x.1 fun co => co.setArmed x.2.1 (some x.2.2)) d1
    else { d with mem := zeroed d.mem }

/-- The armed slots of a context on the clusters of a list are promoted and start at once (R344). -/
def Dev.startAllArmed (d : Dev) (k : Nat) (cls : List Nat) : Dev :=
  (d.armedOf k).foldl (fun d x => if cls.contains (x.1 / 8) && (d.stream x.1 x.2.1).isNone then d.startArmed x.1 x.2.1 x.2.2 else d) d

/-- SWITCH_OVER_COMPLETE. Armed slots read back start now, in the work window of the stroke in which the switch-over
began (R344); later ones wait for the first turnover that begins after all of the context's switch-overs have completed
(R345). -/
def Dev.switchComplete (d : Dev) (c : Clock) (cl : Nat) : Dev :=
  match (d.cluster cl).switch with
  | none => d
  | some w =>
    if c.held || c.stroke < w.began || (c.stroke = w.began && c.stage != .work && c.phase = 0) then d
    else
      let d1 := ((d.spillOut cl w).spillIn cl w).updCluster cl fun y => { y with switch := none }
      match w.into with
      | none => d1
      | some k =>
        if c.stage = .work && c.stroke = w.began then (d1.startAllArmed k [cl]).goOn c
        else
          let d2 := ((d1.armedOf k).filter fun a => a.1 / 8 = cl).foldl (fun d a =>
            d.updCore a.1 fun co => co.setArmed a.2.1 (some { a.2.2 with late := true })) d1
          d2.updCtx k fun x => { x with switchLate := if c.stage = .work then none else some c.stroke }

/-! ### Promotion (R212, R214) -/

/-- The last change of R32, in the turnover of stroke `n`: armed slots of contexts that will run are promoted, to start at
phase 0. Late ones wait while a switch-over of the context is in progress, or has completed within this turnover (R345). -/
def Dev.promote (d : Dev) (n : Nat) : Dev :=
  d.cores.foldl (fun d kv =>
    let cl := kv.1 / 8
    match (d.cluster cl).holder with
    | none => d
    | some k =>
      if (d.ctx k).state != .running || (d.cluster cl).switch.isSome then d
      else d.updCore kv.1 fun co => { co with armed := co.armed.map fun ca =>
        (ca.1, ca.2.map fun a => if a.ctx = k && !(a.late && (d.switchingIn k || (d.ctx k).switchLate = some n))
          then { a with promoted := true, late := false } else a) }) d

/-- Promoted slots start (R212). -/
def Dev.startPromoted (d : Dev) : Dev :=
  d.cores.foldl (fun d kv => kv.2.armed.foldl (fun d ca => match ca.2 with
    | some a => if a.promoted then d.startArmed kv.1 ca.1 { a with promoted := false } else d
    | none => d) d) d

/-- The switch-overs granted at the last turnover begin (R344). -/
def Dev.beginSwitchOvers (d : Dev) (n : Nat) : Dev :=
  d.clusters.foldl (fun d kv => match kv.2.switch with
    | some w => if w.began = n then d.bump 0x80D0 2 0 1 else d
    | none => d) d

end Sys2Proof.Machine
end

