-- ==== Sys2Proof/Machine/Clocks.lean ====
section
/-! DEFINITION. The stroke counter: refresh slots, markers, synchronisation, steps and holds
(spec/02_stroke.md R22 to R30, R460; spec/13_rolkan.md R302). -/

namespace Sys2Proof.Machine

/-! ### The stroke (R21, R22, R30) -/

/-- Does the counter run? It has started (R385), and it is not held (R460). -/
def Clock.running (c : Clock) : Bool := c.sync != .priming && !c.held

/-- L of R30. -/
def Clock.slotLimit (c : Clock) : Nat := if c.extended then 125000 else 250000

/-- In-stroke refresh slots of a stroke. -/
def Clock.slotCount (c : Clock) : Nat := ceilDiv c.period c.slotLimit - 1

/-- Phase at which slot `k` starts. -/
def Clock.slotPhase (c : Clock) (k : Nat) : Nat := k * c.period / (c.slotCount + 1) / 100 * 100

/-- The phase at which the next event of R35 is due. -/
def Clock.nextEvent (c : Clock) : Nat :=
  match c.stage with
  | .work => c.turnStart
  | .deadline => c.turnStart + 200
  | .closed => c.turnStart + 200
  | .judged => c.turnStart + 700
  | .hangChecked => c.turnStart + 700
  | .changed => c.turnStart + 1200
  | .burstEnded => c.turnStart + 1400
  | .valvesReset => c.turnStart + 1500

/-- A turnover event at its moment: the phase is the event's, the stage the one it leads to. -/
def Clock.enter (c : Clock) (st : Stage) : Clock := { c with phase := c.nextEvent, stage := st }

/-- Is an in-stroke refresh slot of this stroke still to come (R30)? -/
def Clock.slotLeft (c : Clock) : Bool :=
  c.stage = .work && decide (c.slotsDone < c.slotCount) && decide (c.slotPhase (c.slotsDone + 1) + 1500 ≤ c.turnStart)

/-- The phase beyond which the counter does not count before a slot has begun, or the one that runs has ended (R30). -/
def Clock.slotStop (c : Clock) (slotOn : Bool) : Nat :=
  if slotOn then c.slotPhase c.slotsDone + 1500 else if c.slotLeft then c.slotPhase (c.slotsDone + 1) else c.nextEvent

/-- A nanosecond passes (log entry 24): the counter counts, but not past the next event of the turnover, nor past the start or
the end of a refresh slot. -/
def Clock.tick (c : Clock) (slotOn : Bool) : Clock :=
  if c.running && decide (c.phase + 1 < c.nextEvent) && decide (c.phase < c.slotStop slotOn) then { c with phase := c.phase + 1 } else c

/-- What happens while no command waits: a nanosecond of the stroke counter of a module in service (log entry 24). -/
def State.idle (s : State) : State := if s.dev.life = .on then { s with clk := s.clk.tick s.dev.slotOn } else s

/-! ### Markers (R24, R302) -/

def Marker.ofWord (w : Nat) : Marker :=
  { rootGeid := fld w 159 140, hops := fld w 139 132, stroke := fld w 255 192, phase := fld w 191 160, period := fld w 39 16
    pending := if bit w 131 then some (fld w 127 104, fld w 103 40) else none }

/-- The root this device's time comes from. -/
def rootOf (c : Clock) (d : Dev) : Nat := c.rootGeid.getD d.geid

/-- The marker the device sends. -/
def markerWord (c : Clock) (d : Dev) : Nat :=
  let p := c.pendingPeriod.getD (0, 0)
  c.stroke % 2 ^ 64 * 2 ^ 192 + c.phase % 2 ^ 32 * 2 ^ 160 + rootOf c d % 2 ^ 20 * 2 ^ 140 + c.hops % 256 * 2 ^ 132
    + b2n c.pendingPeriod.isSome * 2 ^ 131 + p.1 % 2 ^ 24 * 2 ^ 104 + p.2 % 2 ^ 64 * 2 ^ 40 + c.period % 2 ^ 24 * 2 ^ 16

/-- Where the sender of a marker stands `ns` after it: stroke, phase and period, with its pending change of period. -/
def Marker.after (m : Marker) (ns : Nat) : Marker :=
  let t := m.phase + ns
  let old : Marker := { m with stroke := m.stroke + t / max 1 m.period, phase := t % max 1 m.period }
  match m.pending with
  | none => old
  | some (p, e) =>
    let left := (e - m.stroke) * m.period
    if m.stroke < e && t < left then old
    else if m.stroke < e then
      { m with stroke := e + (t - left) / max 1 p, phase := (t - left) % max 1 p, period := p, pending := none }
    else { old with pending := none }

/-- The counter of the neighbour on a port now: its last marker, half the round trip and the time since (R24). -/
def neighbourNow (c : Clock) (d : Dev) (p : Nat) : Option Marker :=
  (d.port p).marker.map fun m => m.after ((d.port p).rtt / 2 + nsSince c (d.port p).markerAt)

/-- Does a port offer markers that a follower can accept? One that names this device as root comes from its own counter
(log entry 28). -/
def Dev.offersTime (d : Dev) (p : Nat) : Bool :=
  (d.port p).link.isSome && (d.port p).marker.any fun m => m.rootGeid != d.geid

/-- The upstream a follower chooses: the smallest hop count, then the lowest port (R24). -/
def Dev.bestUpstream (d : Dev) : Option PortId :=
  (List.finRange 32).foldl (fun (b : Option PortId) p =>
    if !d.offersTime p.val then b
    else
      let hops := fun (q : PortId) => ((d.port q.val).marker.map (·.hops)).getD 0
      match b with
      | none => some p
      | some q => if hops p < hops q then some p else some q) none

/-- Nanoseconds by which the neighbour's counter leads this one. -/
def leadOf (c : Clock) (m : Marker) : Int :=
  ((m.stroke : Int) - c.stroke) * c.period + ((m.phase : Int) - c.phase)

/-- Has the turnover at which a change of period to stroke `e` applies had it (R29)? Markers that still announce it say nothing
new. -/
def Clock.changeMade (c : Clock) (e : Nat) : Bool :=
  decide (e ≤ c.stroke) || (e = c.stroke + 1 && (c.stage = .changed || c.stage = .burstEnded || c.stage = .valvesReset))

/-- The follower takes a port's neighbour as its upstream. -/
def adopt (c : Clock) (d : Dev) (p : PortId) : Clock :=
  match (d.port p.val).marker with
  | none => c
  | some m => { c with upstream := some p, hops := m.hops + 1, rootGeid := some m.rootGeid
                       upGeid := ((d.port p.val).partner.map (·.geid)).getD 0
                       pendingPeriod := match m.pending with
                         | some x => if c.changeMade x.2 then c.pendingPeriod else some x
                         | none => c.pendingPeriod }

/-- Is the device a time root (R43)? A reserved role counts as the default (R4). -/
def Dev.isRoot (d : Dev) : Bool := d.v 0x2000 5 0 != 0

/-- The device becomes UNLOCKED: its resident member contexts take STROKE_UNLOCKED (R26, R27, R29). -/
def unlock (c : Clock) (d : Dev) : Clock × Dev :=
  ({ c with sync := .unlocked, upstream := none, stepDue := none }, d.faultMembers .strokeUnlocked)

/-- Has the upstream a period that this counter ought to have, and has not (R29, log entry 28)? -/
def missedChange (c : Clock) (m : Marker) : Bool :=
  m.period != c.period && c.pendingPeriod.all (fun p => p.1 != m.period) && m.pending.all (fun p => p.1 != c.period)

/-- The counter slews towards its upstream, by at most 20 ns in a stroke, within the work window (R24). -/
def slew (c : Clock) (lead : Int) : Clock :=
  let room := 20 - c.slewed
  let step := max (-(room : Int)) (min (room : Int) lead)
  let moved := (c.phase : Int) + step
  if c.stage != .work || moved < 0 || (c.turnStart : Int) ≤ moved then { c with offset := lead }
  else { c with phase := moved.toNat, slewed := c.slewed + step.natAbs, offset := lead - step }

/-- A counter takes an upstream's counter and period (R460): it enters the upstream's stroke, or is held for the next. -/
def takeCounter (c : Clock) (m : Marker) : Clock :=
  if m.phase + 1500 < m.period then
    { c with stroke := m.stroke, phase := m.phase, period := m.period, turnStart := m.period - 1500, stage := .work, held := false }
  else
    { c with stroke := m.stroke + 1, phase := 0, period := m.period, turnStart := m.period - 1500, stage := .valvesReset, held := true }

/-- A held counter runs on from phase 0 of its stroke, with the period that this stroke is the first to have (R29, R460). -/
def Clock.release (c : Clock) : Clock :=
  let c1 : Clock := { c with held := false, stage := .work }
  match c.pendingPeriod with
  | some (p, e) => if e = c.stroke then { c1 with period := p, turnStart := p - 1500, pendingPeriod := none } else c1
  | none => c1

/-- A marker arrives on a port (R24 to R29). HOLDOVER tries the neighbour that R24 would choose and no other: while that one does not
meet R26's conditions, none is accepted (DESIGN CHOICE, log entry 110). -/
def markerIn (c : Clock) (d : Dev) (port : PortId) (w : Nat) : Clock × Dev :=
  if (d.port port.val).link.isNone then (c, d)
  else
    let d := d.setPort port.val { d.port port.val with marker := some (Marker.ofWord w), markerAt := (c.stroke, c.phase) }
    if d.isRoot || c.held then (c, d)
    else
      match d.bestUpstream with
      | none => (c, d)
      | some best =>
        let now := (neighbourNow c d best.val).getD (Marker.ofWord w)
        match c.sync with
        | .priming => ({ takeCounter { adopt c d best with pendingPeriod := now.pending } now with sync := .locked }, d)
        | .unlocked => if c.stepDue.isSome then (c, d) else ({ adopt c d best with stepDue := some (nextTurnover c) }, d)
        | .holdover =>
          if !(now.rootGeid != rootOf c d || now.hops < c.hops) then (c, d)
          else if missedChange c now then unlock c d
          else if (leadOf c now).natAbs ≤ 200 then ({ adopt c d best with sync := .locked }, d)
          else (c, d)
        | .locked =>
          let c1 := adopt c d best
          if port != best then (c1, d)
          else if missedChange c1 now then unlock c1 d
          else if c1.period != now.period then (c1, d)
          else (slew c1 (leadOf c1 now), d)

/-- HOLDOVER has lasted 2 ms (R26). -/
def holdoverEnds (c : Clock) (d : Dev) : Clock × Dev := if c.sync = .holdover then unlock c d else (c, d)

/-! ### The turnover's part (R28, R29, R31) -/

/-- TIME_ROLE as it takes effect (R28). -/
def applyRole (c : Clock) (d : Dev) (wasRoot : Bool) : Clock × Dev :=
  if d.isRoot = wasRoot then (c, d)
  else if d.isRoot then
    ({ c with sync := .locked, upstream := none, hops := 0, rootGeid := none, offset := 0, stepDue := none }, d)
  else
    match d.bestUpstream with
    | none => ({ c with sync := .holdover, upstream := none }, d.bump 0x8000 3 0 1)
    | some p =>
      match neighbourNow c d p.val with
      | none => (c, d)
      | some m =>
        let c1 := { adopt c d p with sync := .locked }
        if m.period = c.period && (leadOf c m).natAbs ≤ 200 then (c1, d) else ({ c1 with stepDue := some c.stroke }, d)

/-- The stroke period, in the turnover of stroke E − 1 (R29). A change whose stroke has begun has taken effect. -/
def applyPeriod (c : Clock) : Clock :=
  match c.pendingPeriod with
  | some (p, e) =>
    if e = c.stroke + 1 then { c with period := p, pendingPeriod := none }
    else if e ≤ c.stroke then { c with pendingPeriod := none } else c
  | none => c

/-- The refresh mode (R31): REFRESH_MODE as written for this turnover, or EXTENDED where a cistern die has been hot before this
turnover began. -/
def applyRefresh (c : Clock) (d : Dev) (written : Bool) : Clock × Dev :=
  let c1 : Clock := if written then { c with extended := d.v 0x2000 0xB 0 = 1 } else c
  match d.power.hot.filter fun x => decide (x.2 ≤ c.stroke) with
  | none => (c1, d)
  | some (ci, _) =>
    let d1 : Dev := { d with power := { d.power with hot := none } }
    if c.extended then (c1, d1) else ({ c1 with extended := true }, d1.logEvent c.stroke 1 1 .cistern ci)

/-- Every neighbour's marker carried on to this instant, before the counter's numbering changes. -/
def rebaseMarkers (c : Clock) (d : Dev) (at_ : Nat × Nat) : Dev :=
  { d with ports := SMap.mapVals (fun _ => {}) (fun p => match p.marker with
    | some m => { p with marker := some (m.after (nsSince c p.markerAt)), markerAt := at_ }
    | none => p) d.ports }

/-- The end of a turnover (R22, R460): the counter moves to phase 0 of the next stroke, or takes its upstream's. Before such a step
the resident member contexts are faulted (R27). -/
def endTurnover (c : Clock) (d : Dev) : Clock × Dev :=
  let c0 := c.enter .valvesReset
  let due := c.stepDue.any fun n => n ≤ c.stroke
  let next : Clock := { c0 with stroke := c.stroke + 1, phase := 0, stage := .work, turnStart := c.period - 1500, slewed := 0, slotsDone := 0 }
  match (if due then c.upstream.bind fun p => neighbourNow c0 d p.val else none) with
  | some m =>
    let c1 := { takeCounter { next with stepDue := none, pendingPeriod := m.pending } m with sync := .locked }
    let c2 : Clock := { c1 with slotsDone := ((List.range c1.slotCount).filter fun k => c1.slotPhase (k + 1) < c1.phase).length }
    (c2, (rebaseMarkers c0 (d.faultMembers .strokeUnlocked) (c2.stroke, c2.phase)).bump 0x8000 4 0 1)
  | none =>
    let c1 : Clock := if due then { next with stepDue := none } else next
    (c1, rebaseMarkers c0 d (c1.stroke, 0))

end Sys2Proof.Machine
end

