-- ==== Sys2Proof/Machine/Verdict.lean ====
section
/-! DEFINITION. The deadline, the end of the skew guard and the verdicts of a turnover: spec/02_stroke.md R33 to R37,
spec/15_contexts.md R338, R342, R349 and R351, spec/16_control.md R379, spec/18_faults.md R409, R411, R413 and R421. -/

namespace Sys2Proof.Machine

/-! ### What unretired work would have written (R33) -/

/-- Virtual address ranges that a queue command still at work may have written. -/
def Dev.destRanges (d : Dev) (q : QCmd) : List (Nat × Nat) :=
  let w := whoCmd q
  let e := envPayload q.env
  let desc := fun (n : Nat) => match d.loadWord w e n with
    | .ok (some x) => some x
    | _ => none
  match envOp q.env with
  | 2 => match desc 64 with
    | some word =>
      let x := SelectDesc.ofWord word
      (x.outAddr, x.t * listLen (d.layer x.layer) * 16) :: (if x.exitMapEn then [(x.exitMapAddr + x.slotBase, x.t)] else [])
    | none => []
  | 3 => match d.rounds.find? fun r => r.cmd = q.id with
    | some r => (r.desc.grant, r.desc.t * roundN r * 16) :: (r.desc.stage, r.desc.t * roundN r * r.desc.retStride)
        :: r.experts.map fun x => (inboxAddr x.entry, inboxRowOffset (inboxCapacity x.entry) + inboxCapacity x.entry * r.desc.inStride)
    | none => []
  | 4 => (d.rounds.filter fun r => r.ctx = q.ctx).map fun r => (r.desc.stage, r.desc.t * roundN r * r.desc.retStride)
  | 5 =>
    let x := CombineDesc.ofWord e
    (List.range x.count).map fun i => (x.outAddr + i * x.outStride, x.d * (if x.fmtOut = 0 then 4 else 2))
  | 6 => match desc 128 with
    | some word =>
      let x := UpdDesc.ofWord word
      [(x.pDst, x.n / 1024 * x.pSlice), (x.mDst, if x.usesM then x.n / 1024 * 1088 else 0), (x.vDst, if x.usesV then x.vBytes else 0),
        (x.copy, if x.copyFmt = 0 then 0 else if x.copyFmt = 1 then 2 * x.n else x.n), (x.copyScale, if x.copyFmt = 2 then x.n / 32 else 0),
        (x.scratch, if x.factored then x.rows * (x.cols / 1024) * 4 else 0)]
    | none => []
  | 7 => match d.allsum q.id with
    | some a => [(a.dst, a.n * collBytes a.fmtOut)]
    | none => []
  | 8 =>
    let x := AtomicDesc.ofWord e
    [(x.target, atomicBytes x.size64), (x.result, atomicBytes x.size64)]
  | _ => []

/-- Device memory behind a virtual range, where it is this device's, is undefined after the context's verdict. -/
def Dev.markRange (d : Dev) (k : Nat) (r : Nat × Nat) : Dev :=
  (pieces r.1 r.2).foldl (fun d p => match d.locate k p.1 true with
    | .ok m => match m.frame with
      | .here _ => d.updCtx k fun x => { x with wrote := x.wrote ++ [(m.addr p.1, p.2)] }
      | _ => d
    | .error _ => d) d

/-- Bytes become undefined now: they lie in a well (R33). -/
def Dev.spoil (d : Dev) (a n : Nat) : Dev := { d.tickFree with mem := d.mem.scramble d.freeCtr a n }

/-- Where an unfinished stream's remaining elements would have gone. -/
def Dev.spoilStream (d : Dev) (core : Nat) (s : Stream) : Dev :=
  if !s.descRead then d
  else
    let left := (List.range (sdTotal s.desc)).drop s.pos
    left.foldl (fun d i =>
      if !sdOut s.desc then d.spoil (wellBase core + sdWell s.desc i) (sdE s.desc)
      else
        match s.handle with
        | some h => d.updCtx s.ctx fun x => { x with wrote := x.wrote ++ [((d.bucketElem { s with pos := i } h).1, sdE s.desc)] }
        | none => if sdQDstEn s.desc then d else d.markRange s.ctx (sdMem s.desc i, sdE s.desc)) d

/-- Take range (a, n) out of a list of ranges. -/
def cutRange (a n : Nat) (rs : List (Nat × Nat)) : List (Nat × Nat) :=
  (rs.map fun r => if overlaps a n r.1 r.2 then
      [(r.1, a - r.1), (a + n, r.1 + r.2 - (a + n))].filter fun x => decide (0 < x.2)
    else [r]).flatten

/-- A stream is abandoned. The STATE and REMAINING written at the turnover stand: they are no work of the stroke (R211,
log entry 27). -/
def Dev.dropStream (d : Dev) (c : Clock) (core ch : Nat) : Dev :=
  match d.stream core ch with
  | none => d
  | some s =>
    let d1 := d.spoilStream core s
    let before := (d1.ctx s.ctx).wrote
    let d2 := d1.abandonStream c core ch
    let added := (d2.ctx s.ctx).wrote.drop before.length
    d2.updCtx s.ctx fun x => { x with wrote := added.foldl (fun rs r => cutRange r.1 r.2 rs) before }

/-! ### The deadline (R33, R37, R345, R375) -/

/-- Is an accumulation or a session open in a core's engines (R91, R137)? -/
def Core.engineOpen (co : Core) : Bool := co.session.isSome || co.rects.any fun r => r.openM.isSome

/-- Has a context unretired work? An open accumulation or session is its work whose well the core's is (R96). -/
def Dev.unretired (d : Dev) (k : Nat) : Bool :=
  d.inForce.any (fun x => x.ctx = k && !x.completed) || d.reqs.any (fun r => r.ctx = k)
    || d.busyChannels.any (fun x => match d.stream x.1 x.2 with | some s => s.ctx = k | none => false)
    || d.cores.any fun kv => (kv.2.board.any fun e => e.ctx = k) || (kv.2.run.any fun r => r.ctx = k)
      || (decide ((d.cluster (kv.1 / 8)).holder = some k) && kv.2.engineOpen)

/-- The remote atomics outstanding become INDETERMINATE (R37, R265). -/
def Dev.atomicsLost (d : Dev) : Dev :=
  d.reqs.foldl (fun d r => match r.owner with
    | .atomic _ => d.reqFail r .indeterminate
    | _ => d) d

/-- The contexts that a deadline marks STROKE_OVERRUN: those with unretired work, but for one that is being aborted and
one that waits for a switch-over. -/
def Dev.overrunning (d : Dev) (waiting : List Nat) : List Nat :=
  d.ctxIds.filter fun k =>
    let s := (d.ctx k).state
    !(waiting.contains k || s = .aborting || s = .aborted) && d.unretired k

/-- The well writes of unfinished engine operations are undefined. -/
def Dev.dropBoards (d : Dev) : Dev :=
  d.cores.foldl (fun d kv =>
    (kv.2.board.foldl (fun d e => e.out.writes.foldl (fun d w => d.spoil (wellBase kv.1 + w.addr) w.data.length) d) d).updCore kv.1
      fun co => { co with board := [] }) d

/-- Every queue's tail is sampled (R375). -/
def Dev.sampleTails (d : Dev) (n : Nat) : SMap SqRun :=
  d.sqs.foldl (fun m kv => SMap.put (fun _ => {}) m kv.1 (kv.2.sample (d.sqSize kv.1) n)) []

/-- Everything of the deadline. The turnover's refresh burst begins with it (R35). -/
def Dev.deadline (d : Dev) (c : Clock) : Dev :=
  let waiting := d.ctxIds.filter fun k => d.switchingIn k
  let d1 := waiting.foldl (fun d k => d.withdraw k) { d with deadlineMem := some d.mem, burstOn := true }
  let d2 := d1.atomicsLost
  let d3 := (d1.overrunning waiting).foldl (fun d k => d.raise k .strokeOverrun) d2
  let d4 := (d3.inForce.filter fun x => x.issued && !x.completed && !x.ran).foldl (fun d x =>
    (d.destRanges x).foldl (fun d r => d.markRange x.ctx r) d) d3
  let d5 := d4.busyChannels.foldl (fun d x => d.dropStream c x.1 x.2) d4
  let d6 := d5.dropBoards
  { d6 with
    sqs := d6.sampleTails c.stroke
    reqs := []
    demandsOut := []
    openBulks := []
    sentBulks := []
    fetched := [] }

/-! ### The end of the skew guard (R34, R209, R238, R331, R413) -/

/-- Every unit stops and clears. -/
def Dev.clearUnits (d : Dev) : Dev :=
  let owner := fun core => ((d.cluster (core / 8)).holder.getD 4096)
  let d1 := ((d.clearTridal.clearColl).clearQueues).clearHregs owner
  let d2 := d1.cores.foldl (fun d kv => d.updCore kv.1 fun co =>
    { co with run := none, waiting := [], board := [], rects := [], session := none, signalAsked := none, poolWait := false
              seqDone := [], valveWait := none, queueWaits := false }) d1
  let d3 := d2.clusters.foldl (fun d kv => d.updCluster kv.1 fun x => { x with tlb := [] }) d2
  { d3.cachesEmpty with
    updates := []
    updLast := []
    valvePend := []
    atomicTop := []
    respCaches := []
    atomicNext := []
    bulkNext := []
    bulkSeen := []
    bulkHeld := []
    badPages := []
    regHeld := []
    shapeHeld := [] }

/-! ### Lock-step (R419 to R422) -/

def Dev.lsOn (d : Dev) : Bool := d.v 0x7100 1 0 = 1
def Dev.lsCtx (d : Dev) : Nat := d.v 0x7100 2 0
def Dev.lsPort (d : Dev) : Nat := d.v 0x7100 3 0
def Dev.lsPartner (d : Dev) : Nat := d.v 0x7100 4 0 % 2 ^ 20

/-- Is LS_PORT's partner LS_PARTNER? -/
def Dev.lsJoined (d : Dev) : Bool := (d.port (d.lsPort)).partner.any fun o => o.geid = d.lsPartner

/-- The signatures that differ, bit by bit; bit 32 also for COMMITTED. -/
def sigMask (a b : Signatures) : Nat :=
  (List.range 33).foldl (fun m i =>
    if a.sigs.getD i 0 != b.sigs.getD i 0 || (i = 32 && a.committed != b.committed) then m + 2 ^ i else m) 0

/-- The outcome of lock-step at the verdict of stroke `n`: the comparison of stroke n − 1. -/
def Dev.lsOutcome (d : Dev) (n : Nat) : Dev :=
  let report := fun (d : Dev) (st : Status) =>
    if d.v 0x7100 7 0 = 0 then (d.countStatus st).log 10 ⟨n, 0, 0, [st], d.lsCtx, sevInfo, .port, d.lsPort, false⟩
    else if (d.ctx d.lsCtx).gone then d
    else d.raiseAt d.lsCtx st 0 .port d.lsPort
  if !d.lsOn then { d with ls := { d.ls with own := none, theirs := none, sums := [], state := 0 } }
  else
    match d.ls.own with
    | none => { d with ls := { d.ls with state := if d.ls.state = 0 then 1 else d.ls.state } }
    | some a =>
      let lost := fun (d : Dev) => report { d with ls := { d.ls with state := 4, own := none, theirs := none } } .lockstepLost
      if a.stroke + 1 != n then { d with ls := { d.ls with own := none } }
      else
        match d.ls.theirs with
        | none => lost d
        | some b =>
          if b.stroke != a.stroke || !d.lsJoined then lost d
          else
            let m := sigMask a b
            let d1 := ({ d with ls := { d.ls with own := none, theirs := none } } : Dev).bump 0x80F0 9 0 1
            if m = 0 then { d1 with ls := { d1.ls with state := 2 } }
            else
              let l := d1.ls
              let first := if l.diverged then l else { l with firstStroke := a.stroke, firstClusters := m, diverged := true }
              report { d1 with ls := { first with state := 3 } } .lockstepDiverged

/-- The signatures of stroke `n` are formed at its verdict (R35, R420). -/
def Dev.lsForm (d : Dev) (n : Nat) (committed : Bool) : Dev :=
  let sigs := (List.range 33).map fun i => SMap.get (fun _ => 0) d.ls.sums i
  let on := d.lsOn && decide (d.v 0x7100 5 0 ≤ n)
  { d with ls := { d.ls with sums := [], own := if on then some ⟨n, committed, sigs⟩ else none } }

/-- The payload of R421. -/
def Signatures.payload (s : Signatures) : List Byte :=
  natLe 16 (s.stroke % 2 ^ 64 * 2 ^ 64 + 0x4C * 2 ^ 56 + b2n s.committed * 2 ^ 55) ++ (s.sigs.map (natLe 16)).flatten

/-- After 700 ns the signatures leave on LS_PORT, as an untagged MGMT packet of class 1. -/
def Dev.lsSend (d : Dev) (c : Clock) : Dev :=
  match d.ls.own, (d.port d.lsPort).link with
  | some s, some l =>
    let p := s.payload
    let h := d.header c ⟨.mgmt, true, 1, false, false, 0, 0, d.lsPartner, 0, p.length⟩
    d.sendOn l ⟨h, .own (.mgmt p), none⟩
  | _, _ => d

/-! ### Verdicts (R36, R37) -/

/-- The statuses that a context's flags give it at a verdict (R338, R409). -/
def Dev.flagStatuses (d : Dev) (k : Nat) : Dev :=
  let x := d.ctx k
  let f := x.flagFaults
  let d1 := if x.poisonWritten then d.raise k .poisonWritten else d
  let d2 := if bit x.sflags 0 && !bit f 7 then d1.raise k .indexOutOfRange else d1
  let hit := (fld f 5 0 &&& x.nflags) != 0 || (fld f 9 8 &&& fld x.sflags 2 1) != 0 || (fld f 13 10 &&& x.tflags) != 0
    || (fld f 16 14 &&& x.uflags) != 0
  if hit then d2.raise k .flagFault else d2

/-- Each status once, in the order in which it was first raised (log entry 25). -/
def statusList (rs : List StatusRec) : List Status := dedupe (rs.map (·.st))

/-- The error record of a context's verdict (R37, R418). -/
def Dev.verdictRecord (d : Dev) (n k : Nat) : Dev :=
  let x := d.ctx k
  let det := ((x.statuses.find? fun r => r.detail != 0).map (·.detail)).getD 0
  let u := x.statuses.find? fun r => r.kind != .none
  d.log (1 + x.partition) ⟨n, 0, det, statusList x.statuses, k, if x.escalated then sevEscalated else sevContext,
    (u.map (·.kind)).getD .none, (u.map (·.unit)).getD 0, x.escalated⟩

/-- Does a context's stroke commit (R36, R37)? Only a resident context that is not suspended or aborted has a stroke. -/
def Ctx.commits (c : Ctx) : Bool :=
  c.statuses.isEmpty && c.slot.isSome && (c.state = .resident || c.state = .stalled || c.state = .running)

/-- Commit (R36, R337). -/
def Dev.commit (d : Dev) (n k : Nat) : Dev :=
  let a := d.recordAt k + 56
  let d1 := d.updCtx k fun x => { x with committed := some n, commitsNow := true }
  if inCistern a 8 then d1.memStore a (natLe 8 n) false else d1

/-- Memory written in a stroke that is not committed is undefined (R36). -/
def Dev.undo (d : Dev) (k : Nat) : Dev :=
  { d.tickFree with mem := (d.ctx k).wrote.foldl (fun m r => m.scramble d.freeCtr r.1 r.2) d.mem }

/-- A committed JOB_END ends its job (R351, R378). -/
def Dev.endJob (d : Dev) (k : Nat) : Dev :=
  if (d.ctx k).job.isSome && (d.inForce.any fun x => x.ctx = k && envOp x.env = 0x11 && x.completed && x.status.isNone) then
    (d.updCtx k fun x => { x with job := none }).bump 0x80D0 7 (d.ctx k).client 1
  else d

/-- The fault policy acts once (R349, R411). An aborted context is torn down by its abort. -/
def Dev.policy (d : Dev) (k : Nat) : Dev :=
  let x := d.ctx k
  if x.statuses.isEmpty || x.state = .aborting || x.state = .aborted then d
  else if x.escalated || !x.suspend then d.updCtx k fun x => { x with condemned := true }
  else
    let d1 := if x.job.isSome then d.bump 0x80D0 8 x.client 1 else d
    d1.updCtx k fun x => { x with state := .suspended, faultedNow := true, entering := none }

/-- Will one of a context's queues hold a command for the next stroke (R342, R378)? -/
def Dev.hasWork (d : Dev) (k n : Nat) : Bool :=
  (match (d.ctx k).job with | some j => decide (j.start ≤ n + 1) | none => true)
    && d.sqEnabled.any fun q => d.sqContext q = k && d.sqWaiting q (d.sqNext q) != 0

/-- Runnable or blocked, and the ages (R342, R343, R345). -/
def Dev.age (d : Dev) (n k : Nat) : Dev :=
  let x := d.ctx k
  let idle := x.condemned || x.state = .suspended || x.state = .aborting || x.state = .aborted
  let r := !idle && (d.switchingIn k || d.hasWork k n)
  d.setCtx k { x with runnable := r, blockedAge := if r then 0 else x.blockedAge + 1
                      waitingAge := if r && x.state != .running then x.waitingAge + 1 else 0
                      runStrokes := if x.state = .running then x.runStrokes + 1 else 0 }

/-- The verdict of one context. -/
def Dev.judge (d : Dev) (n k : Nat) : Dev :=
  let d1 := (d.updCtx k fun x => { x with commitsNow := false }).flagStatuses k
  let d2 := if (d1.ctx k).statuses.isEmpty then d1 else d1.verdictRecord n k
  let d3 := if (d2.ctx k).commits then (d2.commit n k).endJob k else d2.undo k
  d3.policy k

/-- The contexts judged: those defined, and those torn down that a status has reached since. -/
def Dev.judged (d : Dev) : List Nat := (d.ctxs.filter fun kv => !kv.2.gone || !kv.2.statuses.isEmpty).map (·.1)

/-! ### Completions (R379) -/

/-- The status of a command entry. -/
def Dev.entryStatus (d : Dev) (x : QCmd) (committed : Bool) : Option Status :=
  let c := d.ctx x.ctx
  if c.state = .aborting || c.state = .aborted then some .contextAborted
  else if x.status.isSome then x.status
  else if committed then none
  else (statusList c.statuses).head?

/-- Post the command entries, in ascending queue and then queue order. -/
def Dev.postCommands (d : Dev) : Dev :=
  let xs := d.jobPosts ++ d.inForce
  (sortBy (fun a b => decide (a.q < b.q)) xs).foldl (fun d x =>
    let committed := !(d.ctx x.ctx).gone && (d.ctx x.ctx).commitsNow
    d.post ⟨d.sqCq x.q, commandEntry x committed (d.entryStatus x committed), true⟩) d

/-- Post one context's summary entry, if it has anything to report and a queue to report it on. -/
def Dev.postSummary (d : Dev) (n k : Nat) : Dev :=
  let x := d.ctx k
  let mine := (d.inForce.filter fun y => y.ctx = k).map (·.q)
  let said := !mine.isEmpty || x.nflags != 0 || x.sflags != 0 || x.tflags != 0 || x.uflags != 0 || !x.statuses.isEmpty
  let bound := d.sqEnabled.filter fun q => d.sqContext q = k
  match (if mine.isEmpty then bound else sortBy (fun a b => decide (a < b)) mine) with
  | [] => d
  | q :: _ => if said then d.post ⟨d.sqCq q, summaryEntry k n x (x.commitsNow && !x.gone) (statusList x.statuses), false⟩ else d

/-- Everything of the verdicts of stroke `n`. -/
def Dev.verdicts (d : Dev) (c : Clock) : Dev :=
  let n := c.stroke
  let d1 := d.lsOutcome n
  let ks := d1.judged
  let d2 := ks.foldl (fun d k => d.judge n k) d1
  let d3 := d2.ctxIds.foldl (fun d k => d.age n k) d2
  let d4 := d3.lsForm n (d3.ctx d3.lsCtx).commitsNow
  let d5 := ks.foldl (fun d k => d.postSummary n k) d4.flushHeldCq.postCommands
  let d6 := d5.cqVectors d4
  let done := (d6.inForce.filter fun x => x.completed).map QCmd.id
  let adv := d6.advances.filter fun a => done.contains a.1 && (match d6.cmd a.1 with
    | some x => (d6.ctx x.ctx).commitsNow
    | none => false)
  let d7 := ks.foldl (fun d k => d.updCtx k fun x =>
    { x with statuses := [], poisonWritten := false, wrote := [], nflags := 0, sflags := 0, tflags := 0, uflags := 0 }) d6
  { d7 with inForce := [], jobPosts := [], advances := adv }

end Sys2Proof.Machine
end

