-- ==== Sys2Proof/Machine/Changes.lean ====
section
/-! DEFINITION. What a turnover changes, in the order of R32: written RS entries with the checks that go with them, period,
refresh mode, epochs, schedules, partitions, contexts, queues and armed slots (spec/02_stroke.md R32; the rule of each
entry is named where it is applied). -/

namespace Sys2Proof.Machine

/-! ### Pending writes (R355) -/

/-- Index and subindex of a value key (`ctr`). -/
def keyIdx (k : Nat) : Nat := k / 16777216
def keySub (k : Nat) : Nat := k / 65536 % 256

def Dev.pendingAt (d : Dev) (idx sub el : Nat) : Option Nat := SMap.get (fun _ => none) d.pend (ctr idx sub el)

/-- Is a write to the entry pending? -/
def Dev.pendsEntry (d : Dev) (idx sub : Nat) : Bool := d.pend.any fun kv => keyIdx kv.1 = idx && keySub kv.1 = sub

/-- What an element would be once the pending writes apply. -/
def Dev.proposed (d : Dev) (idx sub el : Nat) : Nat := (d.pendingAt idx sub el).getD (d.v idx sub el)

/-- Discard the pending writes that a test selects. -/
def Dev.discardPend (d : Dev) (p : Nat → Bool) : Dev := { d with pend := SMap.clear p d.pend }

/-- The pending writes that a test selects take effect. -/
def Dev.applyPend (d : Dev) (p : Nat → Bool) : Dev :=
  let mine := d.pend.filter fun kv => p kv.1
  (mine.foldl (fun d kv => match kv.2 with
    | some x => { d with val := SMap.put valDflt d.val kv.1 x }
    | none => d) d).discardPend p

/-! ### Bucket pools (R221) -/

/-- One region of a pool layout: base and bytes; an empty pool has none. -/
def poolRegion (base count c : Nat) : Nat × Nat := (base, count * classBytes c)

/-- A partition's regions as proposed, or in force. -/
def Dev.poolRegions (d : Dev) (p : Nat) (prop : Bool) : List (Nat × Nat) :=
  (List.range 16).map fun e =>
    let g := fun sub => if prop then d.proposed (0x5200 + p) sub e else d.v (0x5200 + p) sub e
    poolRegion (g 1) (g 2) (e / 2)

/-- Does the proposal of partition `p` pass R221? Judged on its own, against every other layout in force or proposed. -/
def Dev.poolsOk (d : Dev) (p : Nat) : Bool :=
  let mine := d.poolRegions p true
  let others := ((List.range 8).filter (· != p)).map fun q => d.poolRegions q true ++ d.poolRegions q false
  ((List.range 16).all fun e => d.proposed (0x5200 + p) 1 e % classBytes (e / 2) = 0
      && decide (d.proposed (0x5200 + p) 2 e ≤ 0x0FFFFFFF))
    && mine.all (fun r => decide (r.1 + r.2 ≤ cisternEnd))
    && ((List.range 16).all fun i => (List.range 16).all fun j => i = j ||
        !overlaps (mine.getD i (0, 0)).1 (mine.getD i (0, 0)).2 (mine.getD j (0, 0)).1 (mine.getD j (0, 0)).2)
    && mine.all fun r => others.flatten.all fun s => !overlaps r.1 r.2 s.1 s.2

/-- The pools of a partition whose base or count the proposal changes. -/
def Dev.poolsMoved (d : Dev) (p : Nat) : List Nat :=
  (List.range 16).filter fun e => d.proposed (0x5200 + p) 1 e != d.v (0x5200 + p) 1 e || d.proposed (0x5200 + p) 2 e != d.v (0x5200 + p) 2 e

/-- What becomes of a partition's pending pool writes: none pending, or the status of the outcome. -/
def Dev.poolOutcome (d : Dev) (p : Nat) : Option Nat :=
  if !(d.pendsEntry (0x5200 + p) 1 || d.pendsEntry (0x5200 + p) 2) then none
  else if !d.poolsOk p then some 1
  else if (d.poolsMoved p).any fun e => d.bucketsInUse p (e / 2) (e % 2) != 0 then some 2
  else some 0

/-- Carry the outcomes out. -/
def Dev.applyPools (d : Dev) (n : Nat) : Dev :=
  let outs := (List.range 8).map fun p => (p, d.poolOutcome p, d.poolsMoved p)
  outs.foldl (fun d o =>
    let mine := fun k => keyIdx k = 0x5200 + o.1
    match o.2.1 with
    | none => d
    | some 0 =>
      let d1 := o.2.2.foldl (fun d e => d.setPool (poolKey o.1 (e / 2) (e % 2)) {}) d
      (d1.applyPend mine).setV (0x5200 + o.1) 3 0 0
    | some st => ((d.discardPend mine).setV (0x5200 + o.1) 3 0 st).logEvent n 2 (o.1 * 256 + st) .none 0) d

/-! ### The atomic log (R266) -/

def Dev.applyAtomicLog (d : Dev) (n : Nat) : Dev :=
  let mine := fun k => keyIdx k = 0x5010
  if !(d.pendsEntry 0x5010 1 || d.pendsEntry 0x5010 2) then d
  else
    let base := d.proposed 0x5010 1 0
    if base % 32 = 0 && decide (base + 32 * d.proposed 0x5010 2 0 ≤ cisternEnd) then (d.applyPend mine).setV 0x5010 3 0 0
    else (d.discardPend mine).logEvent n 4 0 .none 0

/-! ### Queues (R374) -/

/-- One queue's pending writes: `cq` says a completion queue. -/
def Dev.applyQueue (d : Dev) (n : Nat) (cq : Bool) (q : Nat) : Dev :=
  let idx := (if cq then 0x3800 else 0x3400) + q
  let mine := fun k => keyIdx k = idx
  if !(d.pend.any fun kv => mine kv.1) then d
  else
    let bytes := d.proposed idx 3 0 * (if cq then 32 else 64)
    let ok := d.proposed idx 2 0 = 1 || decide (d.proposed idx 1 0 + bytes ≤ cisternEnd)
    let restarts := d.pendsEntry idx 1 || d.pendsEntry idx 2 || d.pendsEntry idx 3
    if !ok then (d.discardPend mine).logEvent n 5 (b2n cq * 65536 + q) .none 0
    else
      let d1 := d.applyPend mine
      if !restarts then d1
      else if cq then
        let lost := (d1.heldCq.filter fun e => e.cq = q).length
        ({ d1.setCq q {} with heldCq := d1.heldCq.filter fun e => e.cq != q } : Dev).bump 0x80E0 9 0 lost
      else d1.setSq q {}

/-- The queues with pending writes, in ascending number. -/
def Dev.queuesPending (d : Dev) (base : Nat) : List Nat :=
  dedupe ((d.pend.filter fun kv => base ≤ keyIdx kv.1 && keyIdx kv.1 < base + 1024).map fun kv => keyIdx kv.1 - base)

def Dev.applyQueues (d : Dev) (n : Nat) : Dev :=
  let d1 := (d.queuesPending 0x3400).foldl (fun d q => d.applyQueue n false q) d
  (d1.queuesPending 0x3800).foldl (fun d q => d.applyQueue n true q) d1

/-! ### The page reserve (R253) and the interleave (R248) -/

def Dev.applyReserves (d : Dev) : Dev :=
  (List.range 8).foldl (fun d p =>
    if d.pendsEntry (0x5300 + p) 1 || d.pendsEntry (0x5300 + p) 2 then
      let d1 := d.applyPend fun k => keyIdx k = 0x5300 + p
      d1.setV (0x5300 + p) 3 0 (d1.v (0x5300 + p) 2 0)
    else d) d

def Dev.applySplits (d : Dev) : Dev :=
  (List.range 3).foldl (fun d r =>
    if d.proposed 0x5000 2 r = d.v 0x5000 2 r then d
    else { d.tickFree with mem := d.mem.forget r d.freeCtr }) d

/-! ### Partitions (R335) -/

/-- A share range in use, as proposed: base and limit. -/
def Dev.shareProposed (d : Dev) (p : Nat) : List (Nat × Nat) :=
  ((List.range 4).map fun r => (d.proposed (0x3100 + p) 2 (2 * r), d.proposed (0x3100 + p) 2 (2 * r + 1))).filter fun r =>
    decide (r.1 ≤ r.2)

/-- Does the proposed layout break a condition of R335? -/
def Dev.layoutBroken (d : Dev) : Bool :=
  let g := fun p sub => d.proposed (0x3100 + p) sub 0
  let ps := List.range 8
  let twice := (List.range 32).any fun cl => 1 < (ps.filter fun p => bit (g p 1) cl).length
  let ranges := (ps.map fun p => (d.shareProposed p).map fun r => (p, r)).flatten
  let badRange := ranges.any fun x => x.2.1 % 65536 != 0 || (x.2.2 + 1) % 65536 != 0 || decide (cisternEnd < x.2.2 + 1)
  let meets := ranges.any fun x => ranges.any fun y =>
    x.1 != y.1 && overlaps x.2.1 (x.2.2 + 1 - x.2.1) y.2.1 (y.2.2 + 1 - y.2.1)
  let sum := fun sub => ps.foldl (fun n p => n + g p sub) 0
  twice || badRange || meets || decide (1024 < sum 3) || decide (1024 < sum 5)
    || ps.any fun p => decide (g p 4 < 8) || decide (g p 6 < 8) || decide (g p 4 < g p 3) || decide (g p 6 < g p 5)

/-- Would it take a cluster from a partition while a context of it is defined with that cluster? -/
def Dev.layoutBusy (d : Dev) : Bool :=
  d.ctxIds.any fun k =>
    let c := d.ctx k
    let kept := d.proposed (0x3100 + c.partition) 1 0
    (bitsOf 32 c.clusters).any fun cl => bit (d.v (0x3100 + c.partition) 1 0) cl && !bit kept cl

def partitionKey (k : Nat) : Bool := 0x3100 ≤ keyIdx k && keyIdx k < 0x3108

def Dev.applyPartitions (d : Dev) : Dev :=
  let touched := (List.range 8).filter fun p => d.pend.any fun kv => keyIdx kv.1 = 0x3100 + p
  if touched.isEmpty then d
  else
    let st := if d.layoutBroken then 1 else if d.layoutBusy then 2 else 0
    let d1 := if st = 0 then d.applyPend partitionKey else d.discardPend partitionKey
    touched.foldl (fun d p => d.setV (0x3100 + p) 8 0 st) d1

/-! ### Everything written (R32, first item) -/

/-- A new GEID (R313): resident member contexts are faulted and every link sends its offer again. A partner's offer in hand
that names the new GEID refuses its port (R294; DEDUCED, log entry 43). -/
def Dev.newGeid (d : Dev) (old : Nat) : Dev :=
  if d.geid = old then d
  else
    let d1 := d.faultMembers .geidChanged
    (List.range 32).foldl (fun d p => match (d.port p).partner with
      | some o =>
        let d2 := d.emit (.offer p (d.offerBits p))
        if o.geid = d.geid then d2.refusePort p (if o.podBoard = d.v 0x4000 2 0 && o.slot = d.straps then 3 else 2) else d2
      | none => d) d1

/-- A new numerics version faults the resident contexts (R72). -/
def Dev.newNumerics (d : Dev) (old : Nat) : Dev :=
  if d.v 0x2010 1 0 = old then d
  else d.ctxIds.foldl (fun d k => if (d.ctx k).resident then d.raise k .numericsChanged else d) d

/-- Every RS value but the partitions', with what follows from each. -/
def applyWritten (c : Clock) (d : Dev) : Clock × Dev :=
  let n := c.stroke
  let root := d.isRoot
  let geid := d.geid
  let nv := d.v 0x2010 1 0
  let ports := d.pendsEntry 0x4030 1
  let d1 := ((((d.applyPools n).applyAtomicLog n).applyQueues n).applyReserves).applySplits
  let d2 := ((d1.applyPend fun k => !partitionKey k).newGeid geid).newNumerics nv
  let r := settleUpstream c (if ports then d2.applyPortEnable else d2)
  applyRole r.1 r.2 root

/-- TURNOVER_CHANGES: the list of R32 in its order. -/
def turnoverChanges (c : Clock) (d : Dev) : Clock × Dev :=
  let n := c.stroke
  let refresh := d.pendsEntry 0x2000 0xB
  let steps := (d.pend.filter fun kv => keyIdx kv.1 = 0x5400 && keySub kv.1 = 3).map fun kv => kv.1 % 65536
  let r1 := applyWritten c d
  let c2 := applyPeriod r1.1
  let r3 := applyRefresh c2 r1.2 refresh
  let d4 := r3.2.applyEpoch n
  let table := d4.deadlineMem.getD d4.mem
  let d5 := (({ d4 with deadlineMem := none, advances := [] } : Dev).advanceSteps (d4.advances.map (·.2)) steps).evalSchedules table
  let d6 := (d5.applyPartitions).joinPorts
  let d7 := d6.contextChanges r3.1
  let d8 := (d7.moveHeads).formBatches (n + 1)
  (r3.1, d8.promote n)

/-! ### Phase 0 (R35, R22) -/

/-- The stroke begins: what waited for phase 0 takes place, and work issues. -/
def Dev.startStroke (d : Dev) (c : Clock) : Dev :=
  let d1 : Dev := { d with
    pend := d.pendLate
    pendLate := []
    valveBad := []
    cores := SMap.mapVals (fun _ => {}) (fun x => { x with compute := false, switchTo := none }) d.cores
    clusters := SMap.mapVals (fun _ => {}) (fun x => { x with noGrant := false }) d.clusters
    ctxs := SMap.mapVals (fun _ => {}) (fun x => { x with
      fresh := false, faultedNow := false
      handling := x.handling && (x.state = .suspended || !x.statuses.isEmpty) }) d.ctxs }
  let d2 := ((d1.beginSwitchOvers c.stroke).startPromoted).releaseHeld c
  d2.goOn c

end Sys2Proof.Machine
end

