-- ==== Sys2Proof/Machine/Attest.lean ====
section
/-! DEFINITION. The version objects in force, the configuration measurement and the attestation report
(spec/16_control.md R368; spec/17_priming_security.md R397 to R400). -/

namespace Sys2Proof.Machine

/-- VERSIONS_IN_FORCE: dictionary, queue, Rolkan and numerics versions (R368, R381). -/
def Dev.versions (d : Dev) : List Byte :=
  natLe 2 (d.v 0x2020 1 0) ++ natLe 2 (d.v 0x2020 2 0) ++ natLe 2 (d.v 0x4000 3 0) ++ natLe 2 (d.v 0x2010 1 0)

/-- Bytes of an entry's value in force, as they are held. -/
def Dev.heldBytes (d : Dev) (e : Entry) (idx sub : Nat) : List Byte :=
  ((List.range e.count).map fun i => natLe e.w (d.v idx sub i)).flatten

/-- Subindices of the RS entries at an index, ascending, with their rows. -/
def rsEntries (idx : Nat) : List (Nat × Entry) :=
  let rows := (entryRows idx).filter fun e => e.acc = 2 && decide (e.base ≤ idx) && decide (idx < e.base + e.span)
  sortBy (fun a b => decide (a.1 < b.1)) (rows.map fun e => (List.range e.subs).map fun i => (e.sub + i, e)).flatten

/-- What one index contributes to CONFIG_MEAS (R399). -/
def Dev.measured (d : Dev) (idx : Nat) : List Byte :=
  ((rsEntries idx).map fun x => natLe 2 idx ++ natLe 1 x.1 ++ natLe 4 x.2.size ++ d.heldBytes x.2 idx x.1).flatten

/-- CONFIG_MEAS (R399). -/
def Dev.configMeas (d : Dev) : List Byte := sm3 ((List.range 0x4000).map fun i => d.measured (0x2000 + i)).flatten

/-- FW_MEAS (R399). -/
def Dev.fwMeas (d : Dev) : List Byte := sm3 d.boot.digests.flatten

/-- Bit n: the function whose key is `base + n` is FAULTED. -/
def Dev.faultedMask (d : Dev) (base : Nat) : Nat :=
  (List.range 32).foldl (fun m i => if d.primeOf (base + i) = 2 then m + 2 ^ i else m) 0

/-- A character of SERIAL (R2): a digit or an upper-case letter. -/
def serialChar (c : Fin 36) : Byte := BitVec.ofNat 8 (if c.val < 10 then 0x30 + c.val else 0x37 + c.val)

/-- SERIAL (R2). -/
def serialBytes : List Byte := (List.finRange 16).map fun i => serialChar (Config.serial i)

/-- The first number at or above `x` (modulo 2^64) that is not 0 and not in `used`; `fuel` bounds the search. -/
def freshNumber (used : List Nat) : Nat → Nat → Nat
  | 0, x => x
  | n + 1, x => if x = 0 || used.contains x then freshNumber used n ((x + 1) % 2 ^ 64) else x

/-- DIE_ID (R2): six numbers, none of them zero and no two the same. -/
def dieIds : List Nat := (List.finRange 6).foldl (fun l i => l ++ [freshNumber l 8 (Config.dieFuse i).toNat]) []

/-- Bytes 0 to 191 of a report on the configuration after the turnover of stroke `n` (R400). -/
def Dev.reportBody (d : Dev) (n : Nat) (nonce : List Byte) : List Byte :=
  natLe 4 0x54414C59 ++ List.replicate 32 0#8 ++ natLe 2 1 ++ natLe 4 (d.faultedMask 96) ++ natLe 4 (d.faultedMask 64)
    ++ natLe 4 (d.faultedMask 32) ++ natLe 6 (d.geid * 2 ^ 28) ++ natLe 1 d.resetCause ++ natLe 1 (d.boot.slot.getD 0)
    ++ natLe 1 d.fusedSvn ++ natLe 1 d.boot.svn ++ natLe 4 d.boot.version ++ serialBytes ++ d.versions ++ natLe 8 n
    ++ d.fwMeas ++ d.configMeas ++ nonce

/-- The nonce that waits is taken, the changes of the turnover of stroke `n` being made (R398). -/
def Dev.attestAt (d : Dev) (n : Nat) : Dev :=
  match d.attest.asked with
  | some (nonce, due) =>
    if due ≤ n then { d with attest := { d.attest with asked := none, forming := d.attest.forming ++ [d.reportBody n nonce] } } else d
  | none => d

/-- The oldest report being formed is signed and replaces ATTEST_REPORT (R398, R400). The signature is a free value. -/
def Dev.attestReady (d : Dev) : Dev :=
  match d.attest.forming with
  | [] => d
  | body :: rest =>
    { d.tickFree with attest := { d.attest with forming := rest
                                                report := body ++ (List.finRange 64).map (Config.sm2Signature d.freeCtr body) } }

/-- ATTEST_STATUS (R398, R400, R401). -/
def Dev.attestStatus (d : Dev) : Nat :=
  if d.boot.recovery || d.primeOf 2 = 2 then 3
  else if d.attest.asked.isSome || !d.attest.forming.isEmpty then 1
  else if d.attest.report.isEmpty then 0 else 2

/-! ### The certificate (R397) -/

/-- One DER element: tag, contents, what follows it (X.690, PRESUMED, log entry 29). -/
def derTlv : List Byte → Option (Nat × List Byte × List Byte)
  | t :: l :: rest =>
    let n := l.toNat
    if n < 128 then (if rest.length < n then none else some (t.toNat, rest.take n, rest.drop n))
    else
      let k := n - 128
      let m := beNat (rest.take k)
      let body := rest.drop k
      if k = 0 || k > 4 || rest.length < k || body.length < m then none else some (t.toNat, body.take m, body.drop m)
  | _ => none

/-- What follows the next `n` elements. -/
def derSkip : Nat → List Byte → Option (List Byte)
  | 0, bs => some bs
  | n + 1, bs => (derTlv bs).bind fun x => derSkip n x.2.2

/-- The subject public key of an X.509 certificate: x then y. -/
def certKey (cert : List Byte) : Option (List Byte) :=
  (derTlv cert).bind fun c => (derTlv c.2.1).bind fun tbs =>
    let fields := tbs.2.1
    let rest := match derTlv fields with
      | some (0xA0, _, r) => derSkip 5 r
      | _ => derSkip 5 fields
    rest.bind fun r => (derTlv r).bind fun spki => (derSkip 1 spki.2.1).bind fun b => (derTlv b).bind fun bits =>
      match bits.2.1 with
      | z :: four :: key => if bits.1 = 3 && z = 0#8 && four = 4#8 && key.length = 64 then some key else none
      | _ => none

/-- Bytes of the boot flash; what nothing has written reads as erased (log entry 30). -/
def flashDflt (_ : Nat) : Byte := 0xFF#8
def Dev.flashByte (d : Dev) (a : Nat) : Byte := SMap.get flashDflt d.flash a
def Dev.flashRead (d : Dev) (a n : Nat) : List Byte := (List.range n).map fun i => d.flashByte (a + i)

/-- IDENTITY_PUBKEY. -/
def identityKey : List Byte := (List.finRange 64).map Config.identityKey

/-- IDENTITY_STATUS once the key has been regenerated (R397, R401). -/
def Dev.identityMatch (d : Dev) : Nat :=
  let n := leNat (d.flashRead 0x2010000 4)
  if n ≤ 0xFFFC && certKey (d.flashRead 0x2010004 n) = some identityKey then 1 else 2

end Sys2Proof.Machine
end

