-- ==== Sys2Proof/Machine/Reset.lean ====
section
/-! DEFINITION. Device fatal and the full reset (spec/17_priming_security.md R382, R383; spec/18_faults.md R414, R415;
spec/20_module.md R444 to R448). -/

namespace Sys2Proof.Machine

/-- Every port sends a link-down and goes DOWN; one that is DISABLED has no light to send it with. -/
def Dev.allPortsDown (d : Dev) : Dev :=
  (List.range 32).foldl (fun d p =>
    if (d.port p).state = .disabled then d else (d.emit (.linkDown p)).portDown p) d

/-- Every resident context is lost. -/
def Dev.loseResident (d : Dev) : Dev :=
  { d with ctxs := SMap.mapVals (fun _ => {}) (fun x => if x.resident then {} else x) d.ctxs }

/-- Device fatal (R415). The record names the unit that failed. -/
def Dev.fatal (d : Dev) (c : Clock) (kind : UnitKind) (unit : Nat) : Dev :=
  { (((d.allPortsDown.loseResident).emit .aer).countStatus .deviceFatal).logStatus c 0 .deviceFatal sevFatal 0 kind unit with
    life := .fatal }

/-- The device as a full reset leaves it while it is held (R383): flash, fuses and RESET_CAUSE survive, and so do host
memory, the pins and the test port, which are not the device's state. The sectors of a flash operation under way hold
undefined contents. -/
def Dev.held (d : Dev) (cause : ResetCause) : Dev :=
  let torn := match d.flashOp with
    | some o =>
      if o.op = 1 then d.flash
      else
        let a := o.offset / 65536 * 65536
        (List.range 65536).foldl (fun f i => SMap.put flashDflt f (a + i) (Config.freeByte d.freeCtr (a + i))) d.flash
    | none => d.flash
  { life := .held cause, resetCause := d.resetCause, flash := torn, fusedSvn := d.fusedSvn, keyRevoked := d.keyRevoked
    hostMem := d.hostMem, resetPinHigh := d.resetPinHigh, perstHigh := d.perstHigh, tap := d.tap
    freeCtr := d.freeCtr + 1, out := d.out ++ [.flashReset true] }

/-- The module with its rails off (R426): as in reset, without power. -/
def Dev.unpowered (d : Dev) : Dev := { d.held .powerOn with life := .off, out := d.out ++ [.railsOff] }

/-- A full reset begins or continues, on the machine. -/
def State.resetBy (s : State) (cause : ResetCause) : State := { s with clk := {}, dev := s.dev.held cause }

/-- Reset release (R382, R445): straps are sampled, RESET_CAUSE is written, and GEID takes its default (R313). -/
def Dev.released (d : Dev) (cause : ResetCause) (straps : Nat) : Dev :=
  ({ d with life := .on, resetCause := cause.code, straps := straps } : Dev).setV 0x4000 1 0 straps
    |>.emit (.flashReset false)

/-- MODULE_OK (R446). -/
def Dev.moduleOk (d : Dev) : Bool := decide (d.life = .on) && d.primeOf 0 = 1 && !d.boot.recovery

/-- Are the transmitters of a port lit (R454)? -/
def Dev.lit (d : Dev) (p : Nat) : Bool :=
  (decide (d.life = .on) || decide (d.life = .fatal)) && d.v 0x4030 1 p = 1 && d.primeOf (96 + p) != 2

end Sys2Proof.Machine
end

