-- ==== Sys2Proof/Machine/Power.lean ====
section
/-! DEFINITION. Supply and cooling: the power controller, the surge damper, lockouts, temperatures and coolant
(spec/19_power_cooling.md R426 to R438). -/

namespace Sys2Proof.Machine

/-! ### Numbers -/

/-- The value of an FP32 reading. What a reading that is not finite amounts to is a free value (log entry 45). -/
def f32Rat (w : Nat) : Rat :=
  match f32 w with
  | .fin s m e =>
    let v : Rat := if 0 ≤ e then (m : Rat) * (2 ^ e.toNat : Nat) else (m : Rat) / (2 ^ (-e).toNat : Nat)
    if s then -v else v
  | _ => Config.oddReading w

/-- A value of at least 0 as FP32, rounded to nearest. -/
def ratF32 (r : Rat) : Nat := (toF32 (Fp.div (.fin false r.num.toNat 0) (.fin false r.den 0))).1

/-! ### Settings (R432, R433) -/

def Dev.powerCap (d : Dev) : Rat := (d.v 0x2050 1 0 : Nat)
def Dev.slewPerUs (d : Dev) : Rat := ((d.v 0x2050 2 0 : Nat) : Rat) / 1000
def Dev.floorW (d : Dev) : Rat := d.powerCap * (d.v 0x2050 3 0 : Nat) / 100
def Dev.rampUpUs (d : Dev) : Nat := 1000 * d.v 0x2050 4 0
def Dev.rampDownUs (d : Dev) : Nat := 1000 * d.v 0x2050 5 0
def Dev.warnCap (d : Dev) : Rat := (d.v 0x2050 6 0 : Nat)

/-! ### The four bounds (R430 to R435) -/

/-- FLOOR_EFF (R433, R435). -/
def Dev.floorEff (d : Dev) : Rat :=
  match d.power.ramp with
  | .none => if d.power.active then d.floorW else 0
  | .up _ us => d.floorW * us / d.rampUpUs
  | .down start us => start * (1 - (us : Rat) / d.rampDownUs)

/-- CAP_EFF for this microsecond (R432, R435): a fall is slewed, a rise is not, a ramp up holds it down. -/
def Dev.nextCapEff (d : Dev) (volts : Rat) : Rat :=
  let cap := d.powerCap
  let c := if d.power.capEff ≤ cap then cap else max cap (d.power.capEff - d.slewPerUs * volts)
  match d.power.ramp with
  | .up start us => min c (start + (us : Rat) / d.rampUpUs * (cap - start))
  | _ => c

/-- A ramp has run for one microsecond more, and ends at its time. -/
def Dev.stepRamp (d : Dev) : Ramp :=
  match d.power.ramp with
  | .up start us => if us + 1 ≥ d.rampUpUs then .none else .up start (us + 1)
  | .down start us => if us + 1 ≥ d.rampDownUs then .none else .down start (us + 1)
  | .none => .none

/-- The draw of pending work at duty `n`: W at full duty, and a free value below it (R430, log entry 31). -/
def workDraw (work n : Nat) : Rat := if n = 64 then (work : Rat) else Config.gatedDraw work n

/-- The largest D from 1 to 64 whose work draw does not exceed `watts`. -/
def dutyFor (work : Nat) (watts : Rat) : Nat :=
  (((List.range 64).map fun i : Nat => 64 - i).find? fun n : Nat => decide (workDraw work n ≤ watts)).getD 1

/-- P ÷ V of R430. -/
def currentFor (watts volts : Rat) : Rat := if volts = 0 then Config.currentAtNoVoltage watts else watts / volts

/-- Supply warning and the count of high inputs (R426). -/
def Dev.watchInput (d : Dev) (volts : Rat) : Dev :=
  let warn := decide (volts < 40)
  let high := decide (59.5 < volts)
  let d1 := if warn && !d.power.warning then d.bump 0x8100 8 0 1 else d
  let d2 := if high && !d1.power.high then d1.bump 0x8100 9 0 1 else d1
  { d2 with power := { d2.power with warning := d2.power.warning || warn, high := high } }

/-- The element of THROTTLE_US of the bound that holds the duty below 64 (R439; between equal bounds R430's order of
yielding decides). -/
def throttleElement (slewHeld : Bool) (u uTh uWarn : Rat) (ramping : Bool) : Nat :=
  if slewHeld then 1 else if u = uTh then 2 else if u = uWarn then 3 else if ramping then 4 else 0

/-- POWER_CONTROL_TICK (R430). -/
def Dev.powerTick (d : Dev) (m : PowerIn) : Dev :=
  let volts := f32Rat m.volts.toNat
  let d0 := ((d.setV 0x8100 1 0 m.volts.toNat).setV 0x8100 2 0 m.amps.toNat).watchInput volts
  let p := d0.power
  let capEff := d0.nextCapEff volts
  let uWarn : Rat := if p.warning then min d0.warnCap (115 * volts) else 4600
  let u := min (min capEff p.thermal) uWarn
  let floor := d0.floorEff
  let l := if u < floor then 0 else floor
  let want := max (m.workWatts : Rat) l
  let s := d0.slewPerUs
  let asked := currentFor (min want u) volts
  let i1 := min (max asked (p.current - s)) (p.current + s)
  let safety := decide (p.thermal < p.current * volts) || decide (uWarn < p.current * volts)
  let i := if safety then min i1 (currentFor u volts) else i1
  let duty := dutyFor m.workWatts (i * volts)
  let ballast := max 0 (i * volts - workDraw m.workWatts duty)
  let ramping := match p.ramp with
    | .up _ _ => true
    | _ => false
  let drawn := volts * f32Rat m.amps.toNat
  let d1 := if duty < 64 then d0.bump 0x8100 7 (throttleElement (decide (i1 < asked) && decide (i = i1)) u p.thermal uWarn ramping) 1 else d0
  { d1 with power := { p with
      current := i, capEff := capEff, duty := duty, ballast := ballast
      capBound := decide (u < want) && decide (u = capEff)
      slewBound := decide (i1 ≠ asked)
      ramp := d0.stepRamp
      energy := p.energy + drawn / 1000000
      ballastEnergy := p.ballastEnergy + ballast / 1000000
      strokeEnergy := p.strokeEnergy + drawn
      strokeTicks := p.strokeTicks + 1 } }

/-! ### Strokes and jobs (R433, R435) -/

/-- Does a job run in stroke `n` (R351)? -/
def Dev.jobRuns (d : Dev) (n : Nat) : Bool := d.ctxIds.any fun k => (d.ctx k).job.any fun j => decide (j.start ≤ n)

/-- Phase 0 of stroke `n`: the stroke's power is averaged, and a ramp begins where the device becomes active, or has
ceased to be. -/
def Dev.powerStroke (d : Dev) (n : Nat) : Dev :=
  let p := d.power
  let last := if p.strokeTicks = 0 then p.lastStroke else p.strokeEnergy / p.strokeTicks
  let now := d.jobRuns n
  let ramp := if now && !p.active then (if d.rampUpUs = 0 then .none else .up last 0)
    else if p.active && !now then (if d.rampDownUs = 0 then .none else .down last 0)
    else p.ramp
  { d with power := { p with lastStroke := last, strokeEnergy := 0, strokeTicks := 0, active := now, ramp := ramp } }

/-- POWER_STATE (R439). -/
def Dev.powerState (d : Dev) : Nat :=
  let p := d.power
  (p.duty - 1) * 256 + b2n p.active * 128 + b2n (decide (p.ramp ≠ .none)) * 64 + b2n (decide (0 < p.ballast)) * 32
    + b2n p.slewBound * 16 + b2n (decide (p.thermal < p.capEff)) * 8 + b2n p.capBound * 4 + b2n p.high * 2 + b2n p.warning

/-! ### Temperatures and coolant (R437, R438, R31) -/

/-- Is some sensor of a list at or above a temperature? -/
def anyAtLeast (l : List F32) (t : Rat) : Bool := l.any fun x => decide (t ≤ f32Rat x.toNat)

/-- Store one sample's values in their entries. -/
def Dev.storeTemps (d : Dev) (sub : Nat) (l : List Nat) : Dev :=
  (List.zip (List.range l.length) l).foldl (fun d x => d.setV 0x8100 sub x.1 x.2) d

/-- The hotter of two FP32 temperatures. -/
def hotter (a b : F32) : Nat := if f32Rat a.toNat < f32Rat b.toNat then b.toNat else a.toNat

/-- Does a sample reach a shutdown temperature? -/
def thermalShutdown (t : Thermal) : Bool := anyAtLeast t.die 115 || anyAtLeast t.logic 115 || anyAtLeast t.dram 105

/-- The first cistern whose logic die or DRAM stack exceeds 85 °C. -/
def thermalOver85 (t : Thermal) : Option Nat :=
  (List.range 32).find? fun i =>
    decide (85 < f32Rat (t.logic.getD i 0#32).toNat) || decide (85 < f32Rat (t.dram.getD i 0#32).toNat)

/-- A sample below the shutdown temperatures. -/
def Dev.takeTemps (d : Dev) (c : Clock) (t : Thermal) : Dev :=
  let d1 := (d.storeTemps 0xB (t.die.map (·.toNat))).storeTemps 0xC ((List.zip t.logic t.dram).map fun x => hotter x.1 x.2)
  let hot := if c.extended || d.power.hot.isSome then d.power.hot else (thermalOver85 t).map fun ci => (ci, nextTurnover c)
  let above := fun (a b : Rat) => t.die.any (fun x => decide (a < f32Rat x.toNat)) || t.logic.any (fun x => decide (a < f32Rat x.toNat))
    || t.dram.any fun x => decide (b < f32Rat x.toNat)
  { d1 with power := { d1.power with
      throttling := anyAtLeast t.die 100 || anyAtLeast t.logic 100 || anyAtLeast t.dram 95
      released := !above 98 93
      hot := hot } }

/-- THERMAL_LIMIT_STEP (R438). -/
def Dev.thermalStep (d : Dev) : Dev :=
  let p := d.power
  let t := if p.throttling then max 0 (p.thermal - d.powerCap / 50)
    else if p.released then min 4600 (p.thermal + d.powerCap / 100) else p.thermal
  { d with power := { p with thermal := t } }

/-- COOLANT_SAMPLE (R437): 1,000 samples within limits make 1 s. -/
def Dev.coolant (d : Dev) (inlet outlet flow : F32) : Dev :=
  let i := f32Rat inlet.toNat
  let f := f32Rat flow.toNat
  let ok := decide (17 ≤ i) && decide (i ≤ 45) && decide (6 ≤ f) && decide (f ≤ 10)
  let good := if ok then d.power.coolantGood + 1 else 0
  let d1 := ((d.setV 0x8100 0xD 0 inlet.toNat).setV 0x8100 0xE 0 outlet.toNat).setV 0x8100 0xF 0 flow.toNat
  { d1 with power := { d1.power with
      coolantGood := min good 1000
      coolantOk := ok && (d.power.coolantOk || decide (1000 ≤ good)) } }

/-- PROMISE_STATUS (R405). -/
def Dev.promiseStatus (d : Dev) : Nat :=
  b2n (d.v 0x7200 1 0 != 0) + 2 * b2n d.power.coolantOk + 4 * b2n (decide (d.v 0x7200 2 0 ≤ d.boot.version))

/-! ### The commands -/

/-- Every rail is switched off (R426, R438): the power is lost, with every piece of state but flash and fuses. -/
def State.powerLost (s : State) : State := if s.dev.life = .off then s else { s with clk := {}, dev := s.dev.unpowered }

/-- POWER_CONTROL_TICK (R430). -/
def execPowerControlTick (m : PowerIn) (s : State) : Host.Outcome State Fault Refusal := onDev s fun _ d => d.powerTick m

/-- SUPPLY_WARNING_EXIT (R426). -/
def execSupplyWarningExit (s : State) : Host.Outcome State Fault Refusal :=
  onDev s fun _ d =>
    if 41 < f32Rat (d.v 0x8100 1 0) then { d with power := { d.power with warning := false } } else d

/-- UNDERVOLTAGE_LOCKOUT (R426). -/
def execUndervoltageLockout (s : State) : Host.Outcome State Fault Refusal := .next s.powerLost

/-- OVERVOLTAGE_LOCKOUT (R426). -/
def execOvervoltageLockout (s : State) : Host.Outcome State Fault Refusal := .next s.powerLost

/-- THERMAL_SAMPLE (R438, R31). -/
def execThermalSample (t : Thermal) (s : State) : Host.Outcome State Fault Refusal :=
  if thermalShutdown t then .next s.powerLost else onDev s fun c d => d.takeTemps c t

/-- THERMAL_LIMIT_STEP (R438). -/
def execThermalLimitStep (s : State) : Host.Outcome State Fault Refusal := onDev s fun _ d => d.thermalStep

/-- COOLANT_SAMPLE (R437). -/
def execCoolantSample (inlet outlet flow : F32) (s : State) : Host.Outcome State Fault Refusal :=
  onDev s fun _ d => d.coolant inlet outlet flow

/-- POWER_ON (R382, R426): the input reaches 40.0 V, the rails are in regulation; power-on holds the reset. -/
def execPowerOn (volts : F32) (s : State) : Host.Outcome State Fault Refusal :=
  .next (if s.dev.life = .off ∧ 40 ≤ f32Rat volts.toNat then { s with dev := { s.dev with life := .held .powerOn } } else s)

end Sys2Proof.Machine
end

