-- ==== Sys2Proof/Machine/Dict.lean ====
section
/-! DEFINITION. Reading the Kacor dictionary, and the rights and checks of a request (spec/16_control.md R354 to R361;
spec/17_priming_security.md R387, R388, R392; the entries' own chapters for their values). -/

namespace Sys2Proof.Machine

/-! ### The value of an entry (R357) -/

/-- Bit n for each n below 32 that a test selects. -/
def maskOf (p : Nat → Bool) : Nat := (List.range 32).foldl (fun m i => if p i then m + 2 ^ i else m) 0

/-- CTX_STATE codes (R341). -/
def CtxState.code : CtxState → Nat
  | .undefined => 0 | .defined => 1 | .resident => 2 | .stalled => 3 | .running => 4 | .suspended => 5 | .aborting => 6
  | .tornDown => 7 | .aborted => 8

/-- PORT_STATE codes (R296). -/
def PortState.code : PortState → Nat
  | .disabled => 0 | .down => 1 | .training => 2 | .joining => 3 | .up => 4 | .refused => 5

/-- SYNC_STATE codes (R43). -/
def Sync.code : Sync → Nat
  | .priming => 0 | .locked => 1 | .holdover => 2 | .unlocked => 3

/-- COLL_GROUP_STATE codes (R333). -/
def groupStateCode : Option CollGroup → Nat
  | none => 0
  | some g => match g.state with
    | .pendingCreate => 1
    | .inForce => 2
    | .pendingDestroy => 3

/-- BOOT_STATUS (R396). -/
def Dev.bootStatus (d : Dev) : Nat :=
  d.boot.version * 2 ^ 32 + d.boot.svn * 2 ^ 24 + d.boot.keySlot * 2 ^ 16 + d.boot.resultB * 2 ^ 12 + d.boot.resultA * 2 ^ 8
    + d.boot.slot.getD 0xFF

/-- STROKE_TIME: both parts of one instant (R23). -/
def strokeTime (c : Clock) : List Byte := natLe 8 c.stroke ++ natLe 4 c.phase

/-- Byte `el` of LOG_RECORDS of a domain (R424). -/
def Dev.logByte (d : Dev) (dom el : Nat) : Nat :=
  if el / 64 < d.logHeld dom then SMap.get (fun _ => 0) d.logs (dom * 64 + el / 64) / 256 ^ (el % 64) % 256 else 0

/-- Element `el` of a per-port entry (R315). -/
def Dev.portElem (d : Dev) (sub el : Nat) : Nat :=
  let p := d.port el
  match sub with
  | 3 => if d.primeOf (96 + el) = 2 then 1 else p.state.code
  | 4 => p.refusal
  | 5 => match p.partner with
    | some o => o.geid + o.port * 2 ^ 20 + o.hdie * 2 ^ 25
    | none => 0
  | 6 => p.link.getD 0xFF
  | 7 => p.version
  | 8 => p.rtt
  | _ => d.v 0x4030 sub el

/-- Elements of 0x1F00 (R403). -/
def Dev.primeElem (d : Dev) (sub el : Nat) : Nat :=
  match sub with
  | 1 => d.primeOf 0 | 2 => d.primeOf 1 | 3 => d.primeOf 2 | 4 => d.primeOf 3
  | 5 => d.primeOf (16 + el) | 6 => d.primeOf (32 + el) | 7 => d.primeOf (64 + el) | 8 => d.primeOf (96 + el)
  | _ => d.resetCause

/-- Elements of 0x2000 (R43). -/
def Dev.strokeElem (d : Dev) (c : Clock) (sub el : Nat) : Nat :=
  match sub with
  | 1 => c.period
  | 4 => ((strokeTime c).getD el 0#8).toNat
  | 6 => c.sync.code
  | 7 => rootOf c d
  | 8 => if c.sync = .unlocked then 0xFF else (c.upstream.map fun (p : PortId) => p.val).getD 0xFF
  | 9 => c.hops
  | 0xA => wrapInt 32 c.offset
  | 0xC => b2n c.extended
  | _ => d.v 0x2000 sub el

/-- Elements of 0x3000 (R353). -/
def Dev.ctxElem (d : Dev) (sub el : Nat) : Nat :=
  match sub with
  | 4 => (d.ctx el).state.code
  | 5 => (d.ctxIds.find? fun k => (d.ctx k).slot = some el).getD 0xFFFF
  | 6 => (d.cluster el).holder.getD 0xFFFF
  | _ => d.v 0x3000 sub el

/-- Elements of 0x4040 (R333). -/
def Dev.groupElem (d : Dev) (sub el : Nat) : Nat :=
  match sub with
  | 1 => groupStateCode (d.group el)
  | 2 => ((d.group el).map (·.groupId)).getD 0
  | _ => ((d.group el).map fun g => g.self.index).getD 0

/-- Elements of 0x7100 and 0x7200 (R424). -/
def Dev.faultElem (d : Dev) (idx sub el : Nat) : Nat :=
  match idx, sub with
  | 0x7100, 8 => d.ls.state
  | 0x7100, 9 => d.ls.firstStroke
  | 0x7100, 0xA => d.ls.firstClusters
  | 0x7200, 3 => d.promiseStatus
  | 0x7200, 5 => b2n (decide (d.life = .fatal))
  | 0x7200, 6 => maskOf fun cl => (d.cluster cl).disabled
  | _, _ => d.v idx sub el

/-- Elements of 0x8100 (R439). -/
def Dev.powerElem (d : Dev) (sub el : Nat) : Nat :=
  match sub with
  | 3 => ratF32 d.power.lastStroke
  | 4 => d.powerState
  | 5 => d.power.energy.floor.toNat
  | 6 => d.power.ballastEnergy.floor.toNat
  | _ => d.v 0x8100 sub el

/-- Elements of 0x9000 to 0x9030 (R396, R401). -/
def Dev.securityElem (d : Dev) (idx sub el : Nat) : Nat :=
  match idx, sub with
  | 0x9000, 1 => d.bootStatus
  | 0x9000, 2 => d.fusedSvn
  | 0x9000, 4 => d.keyRevoked
  | 0x9000, 6 => (d.flashByte 0x2000000).toNat
  | 0x9020, 1 => if d.primeOf 2 = 1 then (identityKey.getD el 0#8).toNat else 0
  | 0x9020, 2 => d.identity
  | 0x9020, 3 => (d.flashByte (0x2010000 + el)).toNat
  | 0x9030, 2 => d.attestStatus
  | 0x9030, 3 => (d.attest.report.getD el 0#8).toNat
  | _, _ => d.v idx sub el

/-- The counters of cycles, of cache hits, of cistern windows and of what only the links' own circuits see: they count timing,
which the model leaves out (log entry 32). -/
def timingCounter (idx sub el : Nat) : Bool :=
  match idx with
  | 0x8020 => sub = 1 || sub = 3 || sub = 4 || sub = 5
  | 0x8030 => sub = 1 || sub = 2 || sub = 4 || sub = 5 || sub = 6 || sub = 8 || sub = 9
  | 0x8040 => sub = 4
  | 0x8050 => sub = 6 || sub = 7
  | 0x8060 => sub = 6 || sub = 8 || sub = 0xA
  | 0x8070 => sub = 4
  | 0x8080 => sub = 8
  | 0x80A0 => sub = 4
  | 0x80B0 => sub = 2 || sub = 3 || sub = 0xB
  | 0x80C0 => sub = 7
  | 0x80D0 => sub = 5 && el % 2 = 0
  | 0x8100 => sub = 0xA
  | _ => false

/-- Has anything that a counter of timing counts begun since reset? Until then it reads 0, its default. -/
def Dev.timingBegun (d : Dev) (c : Clock) (idx sub : Nat) : Bool :=
  if idx = 0x80B0 then d.trained
  else if idx = 0x8100 then decide (0 < d.power.ballastEnergy)
  else d.worked || (idx = 0x8030 && sub = 1 && (c.stroke != 0 || c.phase != 0))

/-- The moment a counter of timing is read at: the counter's time, and everything that has been counted. -/
def Dev.timingMoment (d : Dev) (c : Clock) : List Nat :=
  [c.stroke, c.phase, d.val.foldl (fun n kv => if timingCounter (kv.1 / 2 ^ 24) (kv.1 / 2 ^ 16 % 256) (kv.1 % 2 ^ 16) then n else n + kv.2) 0]

/-- A counter of timing comes to be read: it has gone on by a free amount since it was last read, if anything has happened
meanwhile. -/
def Dev.stirElem (d : Dev) (c : Clock) (idx sub el : Nat) : Dev :=
  let k := ctr idx sub el
  if !timingCounter idx sub el || !d.timingBegun c idx sub || decide (SMap.get (fun _ => []) d.timingSeen k = d.timingMoment c) then d
  else
    ({ d with timingSeen := SMap.put (fun _ => []) d.timingSeen k (d.timingMoment c) } : Dev).tickFree.bumpKey k (Config.freeChoice d.freeCtr)

/-! ### Reserved encodings (R4, R356) -/

/-- Is a value of an entry of named codes one of those its chapter leaves unnamed? It is kept as written and acts as the entry's
default. -/
def reservedCode (idx sub v : Nat) : Bool :=
  if (0x3400 ≤ idx && idx < 0x3C00) then sub = 2 && 1 < v
  else if 0x6100 ≤ idx && idx < 0x6200 then (sub = 3 || sub = 5 || sub = 0x10 || sub = 0x12) && 1 < v
  else
    match idx, sub with
    | 0x2000, 5 => 1 < v
    | 0x2000, 0xB => 1 < v
    | 0x2030, 1 => v != 1 && v != 2
    | 0x7100, 7 => 1 < v
    | 0x7200, 4 => 1 < v
    | 0x9000, 6 => 1 < v
    | _, _ => false

/-- A value as it reads: a reserved encoding reads as zero, RIGHTS of a peer's element among them (R361). -/
def readable (idx sub v : Nat) : Nat :=
  if reservedCode idx sub v then 0
  else if idx = 0x2030 && sub = 2 && fld v 41 40 = 3 then putFld v 41 40 0
  else v

/-- Element `el` of an entry, as the device holds it. -/
def Dev.heldElem (d : Dev) (c : Clock) (idx sub el : Nat) : Nat :=
  if 0x3400 ≤ idx && idx < 0x3800 then
    (match sub with
      | 7 => (d.sq (idx - 0x3400)).head
      | 8 => (d.sq (idx - 0x3400)).sampled
      | _ => d.v idx sub el)
  else if 0x3800 ≤ idx && idx < 0x3C00 then (if sub = 6 then (d.cq (idx - 0x3800)).tail else d.v idx sub el)
  else if 0x7010 ≤ idx && idx < 0x701B then
    (match sub with
      | 1 => d.logByte (idx - 0x7010) el
      | 2 => d.logHeld (idx - 0x7010)
      | _ => d.v idx sub el)
  else
    match idx, sub with
    | 0x1000, 4 => (serialBytes.getD el 0#8).toNat
    | 0x1000, 5 => dieIds.getD el 0
    | 0x1030, 2 => (Config.markDate (Fin.ofNat 4 el)).toNat
    | 0x1030, 3 => d.straps
    | 0x1F00, _ => d.primeElem sub el
    | 0x2000, _ => d.strokeElem c sub el
    | 0x2020, 3 => (d.versions.getD el 0#8).toNat
    | 0x3000, _ => d.ctxElem sub el
    | 0x4030, _ => d.portElem sub el
    | 0x4040, _ => d.groupElem sub el
    | 0x5000, 1 => d.straps
    | 0x7100, _ => d.faultElem idx sub el
    | 0x7200, _ => d.faultElem idx sub el
    | 0x8080, 3 => if el % 32 < 16 then d.bucketsInUse (el / 32) (el % 32 / 2) (el % 2) else 0
    | 0x8100, _ => d.powerElem sub el
    | 0x9000, _ => d.securityElem idx sub el
    | 0x9020, _ => d.securityElem idx sub el
    | 0x9030, _ => d.securityElem idx sub el
    | _, _ => d.v idx sub el

/-- Element `el` of an entry, as a READ finds it. -/
def Dev.readElem (d : Dev) (c : Clock) (idx sub el : Nat) : Nat := readable idx sub (d.heldElem c idx sub el)

/-- The elements of an entry that bytes [off, off + n) of its value lie in. -/
def Entry.elemsAt (e : Entry) (off n : Nat) : List Nat :=
  (List.range ((off + n + e.w - 1) / e.w - off / e.w)).map (· + off / e.w)

/-- Bytes [off, off + n) of a value. -/
def Dev.readBytes (d : Dev) (c : Clock) (e : Entry) (idx sub off n : Nat) : List Byte :=
  let first := off / e.w
  let bs := ((e.elemsAt off n).map fun el => natLe e.w (d.readElem c idx sub el)).flatten
  (bs.drop (off - first * e.w)).take n

/-- The entry descriptor (R360). -/
def Entry.descriptor (e : Entry) : List Byte :=
  natLe 8 (e.ty * 2 ^ 56 + e.ety * 2 ^ 48 + e.acc * 2 ^ 40 + e.size)

/-! ### Headers (R358, R359) -/

def rqOp (h : Nat) : Nat := fld h 127 120
def rqTxn (h : Nat) : Nat := fld h 119 104
def rqIndex (h : Nat) : Nat := fld h 103 88
def rqSub (h : Nat) : Nat := fld h 87 80
def rqTarget (h : Nat) : Nat := fld h 79 60
def rqRemote (h : Nat) : Bool := bit h 59
def rqOffset (h : Nat) : Nat := fld h 56 16
def rqLength (h : Nat) : Nat := fld h 12 0

/-- A request header. -/
def rqHeader (op txn idx sub off len : Nat) : Nat :=
  op % 256 * 2 ^ 120 + txn % 65536 * 2 ^ 104 + idx % 65536 * 2 ^ 88 + sub % 256 * 2 ^ 80 + off % 2 ^ 41 * 2 ^ 16 + len % 8192

/-- The header of the response to `h`. -/
def rspHeader (h source result len : Nat) : Nat :=
  h / 2 ^ 80 % 2 ^ 48 * 2 ^ 80 + source % 2 ^ 20 * 2 ^ 60 + result % 65536 * 2 ^ 44 + len % 8192

/-- RESULT of a response header. -/
def rspResult (h : Nat) : Nat := fld h 59 44

/-! ### Rights (R361) -/

inductive Right where
  | none | read | partition (p : Nat) | full
deriving DecidableEq, Repr

/-- The right of a source GEID (R361). -/
def Dev.fabricRight (d : Dev) (g : Nat) : Right :=
  let best := (List.range 8).foldl (fun m i =>
    let w := d.v 0x2030 2 i
    let r := fld w 41 40
    if fld w 19 0 ≤ g && g ≤ fld w 39 20 && r < 3 then max m r else m) 0
  match best with
  | 2 => .full
  | 1 => .read
  | _ => .none

/-- The right of a path. A reserved MGMT_RIGHTS counts as the default (R4). -/
def Dev.pathRight (d : Dev) : Path → Right
  | .pf => .full
  | .vf v => .partition v.val
  | .mgmt _ => if d.v 0x2030 1 0 = 1 then .read else .full
  | .fabric g _ => d.fabricRight g.toNat

/-- Partition of the context a number names: its own while it is defined, else that of the record in the table. -/
def Dev.recordPartition (d : Dev) (k : Nat) : Nat :=
  if (d.ctx k).gone then fld (d.mem.le (d.recordAt k) 256) 202 200 else (d.ctx k).partition

/-- May PARTITION(p) make this request of an entry? `data` is what a WRITE carries. -/
def Dev.partitionMay (d : Dev) (p op idx sub : Nat) (data : List Byte) : Bool :=
  let sq := 0x3400 ≤ idx && idx < 0x3800 && d.v idx 6 0 = p + 1 && sub != 6
  let cq := 0x3800 ≤ idx && idx < 0x3C00 && d.v idx 5 0 = p + 1 && sub != 5
  if op = 2 then
    (idx = 0x3000 && sub = 2 && (let k := leNat (data.take 2)
      leNat ((data.drop 2).take 1) = 1 || (decide (k < 4096) && (d.ctx k).state != .undefined && (d.ctx k).partition = p)))
      || (sq && (sub != 4 || decide (d.recordPartition (leNat data) = p))) || cq
  else
    (0x1000 ≤ idx && idx < 0x3000) || (0x8000 ≤ idx && idx < 0x9000) || (idx = 0x3000 && 3 ≤ sub && sub ≤ 6)
      || idx = 0x3100 + p || ((sq || cq) && op = 1)

/-- May a path with right `r` make this request? -/
def Dev.mayRequest (d : Dev) (r : Right) (op idx sub off len : Nat) (data : List Byte) : Bool :=
  match r with
  | .full => true
  | .none => false
  | .read => op = 1 || op = 3 || op = 4
  | .partition p => if op = 4 || op = 5 then inShare (d.share p) off len else d.partitionMay p op idx sub data

/-! ### What a write needs (R356, R387, R388) -/

/-- Is a priming state that of some cistern? -/
def Dev.someCisternIs (d : Dev) (st : Nat) : Bool := (List.range 32).any fun ci => d.primeOf (64 + ci) = st

/-- The entries of the routers, the pools, the stroke counter and the host port: writes to them are refused while the
function is FAULTED (R388, log entry 33). `els` are the elements written. -/
def Dev.faultedEntry (d : Dev) (idx sub : Nat) (els : List (Nat × Nat)) : Bool :=
  if idx = 0x4010 || idx = 0x4020 || (idx = 0x4000 && sub = 5) then d.hdieIs 2
  else if 0x5200 ≤ idx && idx < 0x5208 then els.any fun x => d.primeOf (16 + x.1 % 2) = 2
  else if idx = 0x4030 && sub = 1 then els.any fun x => d.primeOf (96 + x.1) = 2
  else if idx = 0x4030 && sub = 2 then els.any fun x => (bitsOf 32 x.2).any fun p => d.primeOf (96 + p) = 2
  else if idx = 0x2000 then d.primeOf 1 = 2
  else if idx = 0x2030 && sub = 3 then d.primeOf 3 = 2
  else if idx = 0x9030 then d.primeOf 2 = 2 || d.boot.recovery
  else false

/-- The requests that wait for another function's priming (R387). -/
def Dev.unprimedEntry (d : Dev) (idx sub : Nat) (els : List (Nat × Nat)) : Bool :=
  match idx, sub with
  | 0x3000, 2 => d.hdieIs 0 || d.someCisternIs 0
  | 0x4010, 2 => d.hdieIs 0 || d.someCisternIs 0
  | 0x4010, 4 => d.hdieIs 0
  | 0x4000, 5 => d.hdieIs 0
  | 0x4030, 2 => els.any fun x => (bitsOf 32 x.2).any fun p => d.primeOf (96 + p) = 0
  | 0x9030, 1 => d.primeOf 2 = 0
  | _, _ => false

/-- A number from `lo` to `hi`. -/
def ranged (v lo hi : Nat) : Option Status := if lo ≤ v && v ≤ hi then none else some .valueInvalid

/-- SQ_SIZE and CQ_SIZE: 0, or a power of two from 16 to 65,536. -/
def ringSize (v : Nat) : Option Status :=
  if v = 0 || (List.range 13).any (fun i => v = 2 ^ (i + 4)) then none else some .valueInvalid

def multipleOf (v n : Nat) : Option Status := if v % n = 0 then none else some .valueInvalid

/-- The range an element's value must lie in (R356; the entries' tables). Reserved encodings pass. -/
def valueBar (idx sub v : Nat) : Option Status :=
  if 0x3100 ≤ idx && idx < 0x3108 then
    (if sub = 4 || sub = 6 then ranged v 8 1024 else none)
  else if 0x3400 ≤ idx && idx < 0x3800 then
    (match sub with
      | 1 => multipleOf v 64
      | 3 => ringSize v
      | 4 => ranged v 0 4095
      | 5 => ranged v 0 1023
      | 6 => ranged v 0 8
      | _ => none)
  else if 0x3800 ≤ idx && idx < 0x3C00 then
    (match sub with
      | 1 => multipleOf v 64
      | 3 => ringSize v
      | 4 => if v = 0xFF then none else ranged v 0 63
      | 5 => ranged v 0 8
      | _ => none)
  else if 0x6100 ≤ idx && idx < 0x6200 then
    (match sub with
      | 1 => ranged v 0 32
      | 2 => ranged v 0 32
      | 0x11 => ranged v 1 31
      | _ => none)
  else
    match idx, sub with
    | 0x2010, 1 => if v = 1 then none else some .versionUnsupported
    | 0x2020, 1 => if v = 1 then none else some .versionUnsupported
    | 0x2020, 2 => if v = 1 then none else some .versionUnsupported
    | 0x4000, 3 => if v = 1 then none else some .versionUnsupported
    | 0x2030, 3 => multipleOf v (2 ^ (30 + Config.bar2Log.val))
    | 0x2050, 1 => ranged v 1000 4600
    | 0x2050, 2 => ranged v 1 200
    | 0x2050, 3 => ranged v 0 90
    | 0x2050, 4 => ranged v 0 10000
    | 0x2050, 5 => ranged v 0 10000
    | 0x2050, 6 => ranged v 650 4600
    | 0x3000, 1 => multipleOf v 256
    | 0x4000, 2 => ranged v 0 63
    | 0x4020, 2 => ranged v 1 4
    | 0x5000, 2 => ranged v 0 5
    | 0x5400, 1 => multipleOf v 1024
    | 0x5400, 2 => ranged v 0 1024
    | 0x7100, 2 => ranged v 0 4095
    | 0x7100, 3 => ranged v 0 31
    | 0x7200, 1 => if v = 0 then none else ranged v 4 3600
    | 0x9000, 5 => ranged v 0 3
    | _, _ => none

/-- The first bar among the elements written: a BOOL other than 0 and 1, or a value out of range. -/
def elementBar (e : Entry) (idx sub : Nat) (els : List (Nat × Nat)) : Option Status :=
  els.findSome? fun x => if (e.ty = 1 || e.ety = 1) && 1 < x.2 then some .valueInvalid else valueBar idx sub x.2

/-- The value with its reserved bits at zero (R4). For a remote access entry, byte by byte (R257). -/
def reservedClear (idx sub el v : Nat) : Nat :=
  match idx, sub with
  | 0x4000, 1 => v % 2 ^ 20
  | 0x4000, 4 => v % 2 ^ 12
  | 0x2030, 2 => v % 2 ^ 42
  | 0x7100, 4 => v % 2 ^ 20
  | 0x5100, _ =>
    if el = 5 || el = 13 then v % 2
    else if el = 6 || el = 7 || (14 ≤ el && el ≤ 24) then 0
    else if el = 25 then v / 2 * 2 else v
  | _, _ => v

end Sys2Proof.Machine
end

