-- ==== Sys2Proof/Machine/TurnoverOps.lean ====
section
/-! DEFINITION. The commands of the turnover and of the stroke counter, context events, and the watchdog's
(spec/02_stroke.md R22 to R36, R460; spec/15_contexts.md R344, R350; spec/16_control.md R378; spec/18_faults.md R413, R414,
R421). -/

namespace Sys2Proof.Machine

/-! ### Shared -/

/-- A turnover event: it takes place where the counter runs and the turnover has had the event before it (R35). -/
def turnoverEvent (s : State) (st : Stage) (f : Clock → Dev → Clock × Dev) : Host.Outcome State Fault Refusal :=
  onBoth s fun c d => if c.running && c.stage = st then f c d else (c, d)

/-- What waited for memory or for the stroke goes on: packets held, transfers held, units and streams. -/
def Dev.resume (d : Dev) (c : Clock) : Dev :=
  if c.stage != .work then d
  else
    let d1 := d.releaseHeld c
    let d2 := (dedupe (d1.bulkHeld.map fun b => b.1.src.toNat)).foldl (fun d g => bulkRun c g (d.bulkHeld.length + 1) d) d1
    d2.goOn c

/-! ### The turnover (R35) -/

/-- SKEW_GUARD_END (R34). -/
def execSkewGuardEnd (s : State) : Host.Outcome State Fault Refusal :=
  turnoverEvent s .deadline fun c d => (c.enter .closed, d.clearUnits)

/-- VERDICTS (R35, R36). -/
def execVerdicts (s : State) : Host.Outcome State Fault Refusal :=
  turnoverEvent s .closed fun c d => (c.enter .judged, d.verdicts c)

/-- Kind and number of a unit in an error record. -/
def unitKindOf : UnitName → UnitKind × Nat
  | .core c => (.core, c.val)
  | .cluster c => (.cluster, c.val)
  | .hdie h => (.hdie, h.val)

/-- The cluster of a unit, if it has one. -/
def unitCluster : UnitName → Option Nat
  | .core c => some (c.val / 8)
  | .cluster c => some c.val
  | .hdie _ => none

/-- A hung unit (R413): its context is faulted, the unit is to be reset, its cluster is granted to no one. -/
def Dev.hungUnit (d : Dev) (c : Clock) (u : UnitName) : Dev :=
  let k := (unitCluster u).bind fun cl => (d.cluster cl).holder
  let d1 := match k with
    | some k => d.raiseUncorrected k .hungUnit (unitKindOf u).1 (unitKindOf u).2
    | none => (d.countStatus .hungUnit).logStatus c 0 .hungUnit sevInfo 0 (unitKindOf u).1 (unitKindOf u).2
  let d2 : Dev := { d1 with unitResets := d1.unitResets ++ [u] }
  match (unitCluster u) with
  | some cl => d2.updCluster cl fun x => { x with noGrant := true }
  | none => d2

/-- UNIT_HANG_CHECK (R413). -/
def execUnitHangCheck (hung : List UnitName) (s : State) : Host.Outcome State Fault Refusal :=
  turnoverEvent s .judged fun c d => (c.enter .hangChecked, (dedupe hung).foldl (fun d u => d.hungUnit c u) d)

/-- TURNOVER_CHANGES (R32): the lock-step signatures leave first (R421); the measurement of R398 is taken last. -/
def execTurnoverChanges (s : State) : Host.Outcome State Fault Refusal :=
  turnoverEvent s .hangChecked fun c d =>
    let r := turnoverChanges (c.enter .changed) (d.lsSend c)
    (r.1, r.2.attestAt c.stroke)

/-- REFRESH_BURST_END (R35). -/
def execRefreshBurstEnd (s : State) : Host.Outcome State Fault Refusal :=
  turnoverEvent s .changed fun c d => (c.enter .burstEnded, d.burstEnd)

/-- VALVE_COUNT_RESET (R228). -/
def execValveCountReset (s : State) : Host.Outcome State Fault Refusal :=
  turnoverEvent s .burstEnded fun c d => (c.enter .valvesReset, { d with valves := [] })

/-- STROKE_START (R22, R35, R460). -/
def execStrokeStart (s : State) : Host.Outcome State Fault Refusal :=
  turnoverEvent s .valvesReset fun c d =>
    let r := endTurnover c d
    if r.1.held then r else (r.1, (r.2.powerStroke r.1.stroke).startStroke r.1)

/-- COUNTER_HOLD_RELEASE (R460). -/
def execCounterHoldRelease (s : State) : Host.Outcome State Fault Refusal :=
  onBoth s fun c d =>
    if c.held then
      let c1 := c.release
      (c1, (d.powerStroke c1.stroke).startStroke c1)
    else (c, d)

/-- IN_STROKE_REFRESH_SLOT (R30). -/
def execInStrokeRefreshSlot (s : State) : Host.Outcome State Fault Refusal :=
  onBoth s fun c d =>
    if c.running && c.slotLeft && !d.slotOn then
      ({ c with phase := max c.phase (c.slotPhase (c.slotsDone + 1)), slotsDone := c.slotsDone + 1 }, { d with slotOn := true })
    else (c, d)

/-! ### Markers (R24, R302, R26) -/

/-- TIMING_MARKER (R24, R460). -/
def execTimingMarker (port : PortId) (m : BitVec 256) (s : State) : Host.Outcome State Fault Refusal :=
  onBoth s fun c d => markerIn c d port m.toNat

/-- MARKER_SEND (R302). -/
def execMarkerSend (link : PortId) (s : State) : Host.Outcome State Fault Refusal :=
  onDev s fun c d =>
    if (d.link link.val).ports.isEmpty || c.sync = .priming then d else d.emit (.marker link.val (markerWord c d))

/-- HOLDOVER_TIMEOUT (R26). -/
def execHoldoverTimeout (s : State) : Host.Outcome State Fault Refusal := onBoth s holdoverEnds

/-! ### Contexts (R344, R350) -/

/-- SWITCH_OVER_COMPLETE (R344). -/
def execSwitchOverComplete (cl : ClusterId) (s : State) : Host.Outcome State Fault Refusal :=
  onDev s fun c d => d.switchComplete c cl.val

/-- ABORT_COMPLETE (R350): every unit has stopped. -/
def execAbortComplete (ctx : Fin 4096) (s : State) : Host.Outcome State Fault Refusal :=
  onDev s fun c d =>
    if (d.ctx ctx.val).state = .aborting then
      (d.updCtx ctx.val fun x => { x with state := .aborted, removeAt := some (nextTurnover c) }).setV 0x3000 3 0 3
    else d

/-! ### JOB_START (R378) -/

/-- May the turnover in progress still examine and form batches? -/
def Stage.formed : Stage → Bool
  | .changed | .burstEnded | .valvesReset => true
  | _ => false

/-- Does the envelope break R377 or R378? -/
def jobStartBad (e : Nat) : Bool :=
  !envOk e || envWaitMode e != 0 || envSigEn e || envWaitValve e != 0 || envWaitCount e != 0

/-- The one status a rejected JOB_START takes. `at_` is the stroke at whose deadline its doorbell was sampled. -/
def Dev.jobNote (d : Dev) (c : Clock) (k at_ start root : Nat) : Option Status :=
  if (d.ctx k).job.isSome then some .jobActive
  else if start < at_ + 1 then some .startMissed
  else if rootOf c d != root then some .domainMismatch
  else if c.sync != .locked then some .strokeUnlocked
  else none

/-- The command at the head of a queue is a JOB_START: it is examined, and the queue's next batch comes into force. -/
def Dev.examineJob (d : Dev) (c : Clock) (q : Nat) : Dev :=
  match d.nextBatch q (c.stroke + 1) with
  | [x] =>
    if !x.examined || (d.sq q).batch != 0 || (d.ctx x.ctx).gone then d
    else
      let p := envPayload x.env
      let start := fld p 255 192
      let passed := fun (d : Dev) (y : QCmd) =>
        (({ d with jobPosts := d.jobPosts ++ [y] } : Dev).setSq q ((d.sq q).passed (d.sqSize q) 1)).formBatch q (c.stroke + 1)
      if jobStartBad x.env then (passed d { x with status := some .commandInvalid }).raise x.ctx .commandInvalid
      else
        match d.jobNote c x.ctx ((d.sq q).arrived.headD (c.stroke, 0)).1 start (fld p 191 172) with
        | some st => passed d { x with note := some st }
        | none =>
          let d1 := (d.updCtx x.ctx fun y => { y with job := some ⟨start, bit p 171⟩ }).bump 0x80D0 6 (d.ctx x.ctx).client 1
          passed (if c.stroke + 1 < start then d1.withdraw x.ctx else d1) x
  | _ => d

/-- JOB_START (R378). -/
def execJobStart (q : QueueId) (s : State) : Host.Outcome State Fault Refusal :=
  onDev s fun c d => if c.stage.formed && c.running then d.examineJob c q.val else d

/-! ### Watchdogs (R413, R414) -/

/-- UNIT_RESET_DONE (R413). -/
def execUnitResetDone (u : UnitName) (cleared : Bool) (s : State) : Host.Outcome State Fault Refusal :=
  onDev s fun c d =>
    if !d.unitResets.contains u then d
    else
      let d1 : Dev := { d with unitResets := d.unitResets.filter (· != u) }
      if cleared then d1
      else
        match (unitCluster u) with
        | some cl => d1.updCluster cl fun x => { x with disabled := true }
        | none => d1.fatal c (unitKindOf u).1 (unitKindOf u).2

/-- BRIDGE_FLIT_REPLAY (R414). -/
def execBridgeFlitReplay (bridge : Fin 14) (failedReplays : Nat) (s : State) : Host.Outcome State Fault Refusal :=
  onDev s fun c d =>
    let d1 := d.bump 0x80F0 7 0 1
    if failedReplays ≥ 16 then d1.fatal c .bridge bridge.val else d1

/-- HEARTBEAT_TIMEOUT (R414). -/
def execHeartbeatTimeout (cp : Fin 8) (s : State) : Host.Outcome State Fault Refusal :=
  onDev s fun c d => d.fatal c .controlProcessor cp.val

/-! ### Ports and lock-step (R296, R421) -/

/-- PORT_DOWN (R296). -/
def execPortDown (port : PortId) (s : State) : Host.Outcome State Fault Refusal :=
  onBoth s fun c d => settleUpstream c (d.portDown port.val)

/-- PORT_SIGNAL_RETURN (R296, R386). -/
def execPortSignalReturn (port : PortId) (s : State) : Host.Outcome State Fault Refusal :=
  onDev s fun _ d =>
    let d1 := d.setPort port.val { d.port port.val with signal := true }
    if (d1.port port.val).state = .down then d1.trainIf port.val else d1

/-- Signatures out of a payload of R421, if it is one. -/
def signaturesOf (bs : List Byte) : Option Signatures :=
  let h := leNat (bs.take 16)
  if bs.length = 544 && fld h 63 56 = 0x4C then
    some ⟨fld h 127 64, bit h 55, (List.range 33).map fun i => leNat ((bs.drop (16 + 16 * i)).take 16)⟩
  else none

/-- LOCKSTEP_SIGNATURES (R421): kept for the comparison, whose outcome the next verdict takes. -/
def execLockstepSignatures (port : PortId) (payload : List Byte) (s : State) : Host.Outcome State Fault Refusal :=
  onDev s fun _ d =>
    match signaturesOf payload with
    | some x => if d.lsOn && port.val = d.lsPort then { d with ls := { d.ls with theirs := some x } } else d
    | none => d

end Sys2Proof.Machine
end

