-- ==== Sys2Proof/Machine/DictOps.lean ====
section
/-! DEFINITION. Dictionary requests: their checks, their effects, the paths they come by and the responses they get
(spec/16_control.md R355 to R367; spec/17_priming_security.md R387, R388, R392 to R395, R398; and the chapters of the
write-only entries). Order of checks: log entry 34. -/

namespace Sys2Proof.Machine

/-! ### Paths (R361, R363) -/

/-- The PCIe function whose mailbox a path is. -/
def pathFn : Path → Option Nat
  | .pf => some 0
  | .vf v => some (v.val + 1)
  | .mgmt _ => none
  | .fabric _ _ => none

def isMgmt : Path → Bool
  | .mgmt _ => true
  | _ => false

/-- CLIENT (R337). -/
def pathClient : Path → Nat
  | .pf => 0
  | .vf v => v.val + 1
  | .mgmt _ => 9
  | .fabric _ _ => 10

/-- Element of DICT_REQUESTS (R381). -/
def pathCount : Path → Nat
  | .mgmt _ => 1
  | .fabric _ _ => 2
  | _ => 0

/-- The source for which responses are kept (R366): a MAC address, a GEID. -/
def pathSource : Path → Path
  | .mgmt f => .mgmt ⟨f.src, 0#48, 0#16, 0#32⟩
  | .fabric g _ => .fabric g 0#32
  | p => p

/-! ### The management port's frames (R364, R365) -/

/-- EtherType of the management port. -/
def mgmtEtherType : Nat := 0x88B5

/-- The module's MAC address: 02-59-4C-00-00-0s. -/
def Dev.mac (d : Dev) : Nat := 0x02594C000000 + d.straps

/-- The settings of PLCA (R364). -/
structure Plca where
  nodeId : Nat
  nodeCount : Nat
  coordinator : Bool
  burstCount : Nat
  toTimer : Nat
deriving DecidableEq, Repr

def Dev.plca (d : Dev) : Plca := ⟨d.straps + 1, 9, false, 0, 32⟩

/-- A frame header: KIND 1 a request, 2 a response; version 1; the magic value. Its reserved bits count for nothing (R4). -/
def frameHeader (kind : Nat) : Nat := kind * 65536 + 0x14B

/-- Does the device take a frame for a request: is it for this module, of its EtherType, with the header of a request? -/
def Dev.takesFrame (d : Dev) : Path → Bool
  | .mgmt f => f.dst.toNat = d.mac && f.etherType.toNat = mgmtEtherType && f.header.toNat % 2 ^ 24 = frameHeader 1
  | .fabric _ h => h.toNat % 2 ^ 24 = frameHeader 1
  | _ => true

/-- The frame of a request: the module in service, or the management port of one halted by device fatal (R415). -/
def onRequest (s : State) (p : Path) (f : Clock → Dev → Clock × Dev) : Host.Outcome State Fault Refusal :=
  .next (if s.dev.life = .on || (s.dev.life = .fatal && isMgmt p) then
    { s with clk := (f s.clk s.dev).1, dev := (f s.clk s.dev).2 } else s)

/-! ### Checks of the header (R358, R360, R367) -/

/-- Rules of the header that hold for every request. -/
def headerBar (p : Path) (h : Nat) : Option Status :=
  if rqOp h = 0 || 5 < rqOp h then some .opInvalid
  else if fld h 58 57 != 0 || fld h 15 13 != 0 || rqLength h = 0 || 4096 < rqLength h then some .rangeInvalid
  else if isMgmt p && 1024 < rqLength h then some .rangeInvalid
  else if rqRemote h && (pathFn p).isNone then some .rangeInvalid
  else if !rqRemote h && rqTarget h != 0 then some .rangeInvalid
  else if rqRemote h && p != .pf then some .accessDenied
  else if (rqOp h = 4 || rqOp h = 5) && (rqIndex h != 0 || rqSub h != 0) then some .rangeInvalid
  else if (rqOp h = 4 || rqOp h = 5) && !rqRemote h && !inCistern (rqOffset h) (rqLength h) then some .rangeInvalid
  else none

/-- What the security engine serves in recovery (R392, R400) and, with the error logs, after device fatal (R415). -/
def Dev.restricted (d : Dev) (op idx sub : Nat) : Bool :=
  op ≤ 3 && (idx = 0x1000 || idx = 0x1F00 || (idx = 0x2040 && sub = 1) || idx = 0x9000 || idx = 0x9010
    || (d.boot.recovery && idx = 0x9030 && (sub = 1 || sub = 2))
    || (decide (d.life = .fatal) && 0x7000 ≤ idx && idx < 0x7300))

/-! ### Checks of a value (R354 to R356) -/

/-- May bytes [off, off + n) of an entry be named? -/
def Entry.rangeOk (e : Entry) (write : Bool) (off n : Nat) : Bool :=
  if e.ty ≤ 8 then off = 0 && n = e.size
  else if write && e.acc = 3 then off = 0 && n = e.size
  else decide (off + n ≤ e.size) && (!write || e.ty != 11 || (off % e.w = 0 && n % e.w = 0))

/-- The elements a write names, with their new values. -/
def Entry.elements (e : Entry) (off : Nat) (data : List Byte) : List (Nat × Nat) :=
  (List.range (data.length / e.w)).map fun i => (off / e.w + i, leNat ((data.drop (i * e.w)).take e.w))

/-- What an action of a WO entry is refused for (R29, R306, R353, R393). -/
def actionBar (c : Clock) (d : Dev) (idx sub : Nat) (bs : List Byte) : Option Status :=
  let v := leNat bs
  match idx, sub with
  | 0x2000, 2 =>
    let per := leNat (bs.take 4)
    if !d.isRoot || per < 20000 || 10000000 < per || per % 100 != 0 then some .periodInvalid
    else if leNat (bs.drop 4) < c.stroke + 64 || c.pendingPeriod.isSome then some .periodChangeLate
    else none
  | 0x3000, 2 =>
    let op := leNat ((bs.drop 2).take 1)
    if leNat (bs.take 2) ≥ 4096 || op = 0 || 4 < op || leNat (bs.drop 3) != 0 then some .valueInvalid else none
  | 0x4010, 4 => if leNat (bs.drop 1) < c.stroke + 16 then some .epochChangeLate else none
  | 0x9000, 3 => if d.boot.slot.isSome && decide (d.fusedSvn < v) && decide (v ≤ d.boot.svn) then none else some .securityRefused
  | 0x9000, 5 =>
    if (d.boot.slot.isSome && d.boot.keySlot = v) || (List.range 4).all (fun j => j = v || bit d.keyRevoked j)
    then some .securityRefused else none
  | _, _ => none

/-! ### Actions of the WO entries -/

/-- ABORT of a context (R350). -/
def Dev.abortCtx (d : Dev) (c : Clock) (k : Nat) : Dev :=
  let x := d.ctx k
  if x.gone || x.state = .aborting || x.state = .aborted then d.setV 0x3000 3 0 1
  else
    let d0 := if x.job.isSome then d.bump 0x80D0 9 x.client 1 else d
    let d1 := d0.stopCtx c k
    if x.state = .defined || x.state = .suspended then
      (d1.updCtx k fun y => { y with state := .aborted, removeAt := some (nextTurnover c) }).setV 0x3000 3 0 3
    else (d1.updCtx k fun y => { y with state := .aborting }).setV 0x3000 3 0 0

/-- REMOVE of a context (R349). -/
def Dev.removeCtx (d : Dev) (c : Clock) (k : Nat) : Dev :=
  let x := d.ctx k
  if x.gone || x.state = .aborting || x.state = .aborted then d.setV 0x3000 3 0 1
  else (d.setCtx k { x with removeAt := some (min (x.removeAt.getD (nextTurnover c)) (nextTurnover c)) }).setV 0x3000 3 0 0

/-- RESUME of a context (R349). -/
def Dev.resumeCtx (d : Dev) (c : Clock) (k : Nat) : Dev :=
  let x := d.ctx k
  if x.state = .suspended then (d.setCtx k { x with resumeAt := some (nextTurnover c) }).setV 0x3000 3 0 0
  else d.setV 0x3000 3 0 1

/-- DEFINE of a context: its record is read at the next turnover (R337). -/
def Dev.askDefine (d : Dev) (c : Clock) (p : Path) (k : Nat) : Dev :=
  let only := match p with | .vf v => some v.val | _ => none
  ({ d with defines := d.defines ++ [{ ctx := k, client := pathClient p, due := nextTurnover c, onlyPartition := only }] } : Dev).setV 0x3000 3 0 2

/-- CTX_COMMAND. -/
def Dev.ctxCommand (d : Dev) (c : Clock) (p : Path) (bs : List Byte) : Dev :=
  let k := leNat (bs.take 2)
  match leNat ((bs.drop 2).take 1) with
  | 1 => d.askDefine c p k
  | 2 => d.removeCtx c k
  | 3 => d.abortCtx c k
  | _ => d.resumeCtx c k

/-- PORT_RETRAIN of one port (R294, R296): it leaves its link and trains. -/
def Dev.retrain (d : Dev) (p : Nat) : Dev := if d.portUsable p then (d.portOut p).trainIf p else d

/-- Is a flash operation refused (R395)? -/
def Dev.flashRefuses (d : Dev) (op off : Nat) : Bool :=
  d.flashOp.isSome || off % (if op = 3 then 65536 else 4096) != 0
    || (op != 1 && (decide (0x2000000 ≤ off) || d.boot.slot = some (off / 0x1000000)))

/-- FLASH_OP (R395). A reserved operation has no effect. -/
def Dev.flashAsk (d : Dev) (op : Nat) : Dev :=
  let off := d.v 0x9010 1 0
  if op = 0 || 3 < op then d
  else if d.flashRefuses op off then d.setV 0x9010 4 0 3
  else
    let data := if op = 2 then (List.range 4096).map fun i => BitVec.ofNat 8 (d.v 0x9010 2 i) else []
    ({ d with flashOp := some ⟨op, off, data⟩ } : Dev).setV 0x9010 4 0 1

/-- LOG_CLEAR of a domain (R417). -/
def Dev.clearLog (d : Dev) (dom : Nat) : Dev :=
  ({ d with logs := SMap.clear (fun k => k / 64 = dom) d.logs, logCount := SMap.put (fun _ => 0) d.logCount dom 0 } : Dev).setV
    (0x7010 + dom) 3 0 0

/-- SEQ_DROPS_CLEAR (R190). -/
def Dev.clearSeqDrops (d : Dev) : Dev :=
  { d with val := SMap.clear (fun k => keyIdx k = 0x8060 && keySub k = 0x0B) d.val }

/-- The write of a WO entry acts. -/
def act (c : Clock) (d : Dev) (p : Path) (idx sub : Nat) (bs : List Byte) : Clock × Dev :=
  let v := leNat bs
  if 0x7010 ≤ idx && idx < 0x701B then (c, if v = 1 then d.clearLog (idx - 0x7010) else d)
  else
    match idx, sub with
    | 0x2000, 2 => ({ c with pendingPeriod := some (leNat (bs.take 4), leNat (bs.drop 4)) }, d)
    | 0x2040, 1 => (c, if v = 1 then { d with resetAsked := true } else d)
    | 0x3000, 2 => (c, d.ctxCommand c p bs)
    | 0x4000, 5 => (c, d.beginDrain (v % 4096))
    | 0x4010, 2 => (c, if v = 1 then d.loadRoutes else d)
    | 0x4010, 4 => (c, { d with epochDue := some (leNat (bs.take 1), leNat (bs.drop 1)) })
    | 0x4030, 2 => settleUpstream c ((bitsOf 32 v).foldl (fun d q => d.retrain q) d)
    | 0x7100, 0xB => (c, if v = 1 then { d with ls := { d.ls with firstStroke := 0, firstClusters := 0, diverged := false } } else d)
    | 0x8060, 0xC => (c, if v = 1 then d.clearSeqDrops else d)
    | 0x9000, 3 => (c, { d with fusedSvn := v })
    | 0x9000, 5 => (c, { d with keyRevoked := setBit d.keyRevoked v })
    | 0x9010, 3 => (c, d.flashAsk v)
    | 0x9030, 1 => (c, { d with attest := { d.attest with asked := some (bs, nextTurnover c) } })
    | _, _ => (c, d)

/-! ### Performing a request -/

/-- What performing a request comes to. -/
structure Reply where
  clk : Clock
  dev : Dev
  result : Option Status := none
  data : List Byte := []

/-- A refused request changes nothing and carries no data. -/
def refuse (c : Clock) (d : Dev) (st : Status) : Reply := ⟨c, d, some st, []⟩

/-- Bytes of RW entries take effect at once (R355). BOOT_PREFERENCE is a byte of the flash (R394). -/
def Dev.writeNow (d : Dev) (idx sub : Nat) (els : List (Nat × Nat)) : Dev :=
  if idx = 0x9000 then
    els.foldl (fun d x => { d with flash := SMap.put flashDflt d.flash 0x2000000 (BitVec.ofNat 8 x.2) }) d
  else els.foldl (fun d x => d.setV idx sub x.1 x.2) d

/-- Bytes of RS entries become pending (R355): for the first turnover that begins after acceptance. -/
def Dev.writePending (d : Dev) (c : Clock) (idx sub : Nat) (els : List (Nat × Nat)) : Dev :=
  els.foldl (fun d x =>
    let k := ctr idx sub x.1
    let v := some (reservedClear idx sub x.1 x.2)
    if c.stage = .work then { d with pend := SMap.put (fun _ => none) d.pend k v }
    else { d with pendLate := SMap.put (fun _ => none) d.pendLate k v }) d

/-- WRITE (R355, R356): every check comes before any effect. -/
def performWrite (c : Clock) (d : Dev) (p : Path) (e : Entry) (h : Nat) (data : List Byte) : Reply :=
  let idx := rqIndex h
  let sub := rqSub h
  let bs := data.take (rqLength h)
  if e.acc = 0 then refuse c d .notWritable
  else if !e.rangeOk true (rqOffset h) (rqLength h) || bs.length != rqLength h then refuse c d .rangeInvalid
  else
    let els := e.elements (rqOffset h) bs
    if d.unprimedEntry idx sub els then refuse c d .notPrimed
    else if d.faultedEntry idx sub els then refuse c d .functionFaulted
    else
      match (elementBar e idx sub els).orElse fun _ => (if e.acc = 3 then actionBar c d idx sub bs else none) with
      | some st => refuse c d st
      | none =>
        match e.acc with
        | 1 => ⟨c, d.writeNow idx sub els, none, []⟩
        | 2 => ⟨c, d.writePending c idx sub els, none, []⟩
        | _ => ⟨(act c d p idx sub bs).1, (act c d p idx sub bs).2, none, []⟩

/-- READ (R357). -/
def performRead (c : Clock) (d : Dev) (e : Entry) (h : Nat) : Reply :=
  if e.acc = 3 then refuse c d .notReadable
  else if !e.rangeOk false (rqOffset h) (rqLength h) then refuse c d .rangeInvalid
  else
    let d1 := (e.elemsAt (rqOffset h) (rqLength h)).foldl (fun d el => d.stirElem c (rqIndex h) (rqSub h) el) d
    ⟨c, d1, none, d1.readBytes c e (rqIndex h) (rqSub h) (rqOffset h) (rqLength h)⟩

/-- DESCRIBE (R360). -/
def performDescribe (c : Clock) (d : Dev) (e : Entry) (h : Nat) : Reply :=
  if rqOffset h != 0 || rqLength h != 8 then refuse c d .rangeInvalid else ⟨c, d, none, e.descriptor⟩

/-- What bars a MEM operation: a FAULTED cistern (R388), a PRIMING one (R387). -/
def Dev.memBar (d : Dev) (a n : Nat) : Option Status :=
  if (d.cisternsOf a n).any d.cisternFaulted then some .functionFaulted
  else if (d.cisternsOf a n).any fun ci => d.primeOf (64 + ci) = 0 then some .notPrimed
  else none

/-- MEM_READ: the bytes as read, whether or not they are poisoned (R360, R406). -/
def performMemRead (c : Clock) (d : Dev) (h : Nat) (ecc : List EccFinding) : Reply :=
  let a := rqOffset h
  let n := rqLength h
  match d.memBar a n with
  | some st => refuse c d st
  | none =>
    let d1 := d.eccAll c none ecc
    ⟨c, d1, if d1.memNow.anyPoison a n then some .valuePoisoned else none, d1.memNow.read a n⟩

/-- MEM_WRITE: clean data (R360, R241). -/
def performMemWrite (c : Clock) (d : Dev) (h : Nat) (data : List Byte) : Reply :=
  let a := rqOffset h
  let bs := data.take (rqLength h)
  match d.memBar a (rqLength h) with
  | some st => refuse c d st
  | none =>
    if bs.length != rqLength h then refuse c d .rangeInvalid
    else ⟨c, d.memStore a bs false, none, []⟩

/-- The right of the path, and the entry, of a request whose header is in order. -/
def performHere (c : Clock) (d : Dev) (p : Path) (h : Nat) (data : List Byte) (ecc : List EccFinding) : Reply :=
  let op := rqOp h
  let idx := rqIndex h
  let sub := rqSub h
  if (d.boot.recovery || decide (d.life = .fatal)) && !d.restricted op idx sub then refuse c d .noEntry
  else if !d.mayRequest (d.pathRight p) op idx sub (rqOffset h) (rqLength h) data then
    refuse c (d.bump 0x80E0 2 0 1) .accessDenied
  else if op = 4 then performMemRead c d h ecc
  else if op = 5 then performMemWrite c d h data
  else
    match findEntry idx sub with
    | none => refuse c d (if indexDefined idx then .noSubindex else .noEntry)
    | some e =>
      match op with
      | 1 => performRead c d e h
      | 2 => performWrite c d p e h data
      | _ => performDescribe c d e h

/-- A request that this device is to perform. In recovery the mailboxes are refused (R392). -/
def perform (c : Clock) (d : Dev) (p : Path) (h : Nat) (data : List Byte) (ecc : List EccFinding) : Reply :=
  if d.boot.recovery && (pathFn p).isSome then refuse c d .notPrimed
  else
    match headerBar p h with
    | some .accessDenied => refuse c (d.bump 0x80E0 2 0 1) .accessDenied
    | some st => refuse c d st
    | none => performHere c d p h data ecc

/-! ### Responses (R359, R363 to R367) -/

/-- A response is in place in a function's mailbox. -/
def Dev.mbxDone (d : Dev) (f hdr : Nat) (data : List Byte) : Dev :=
  let r := d.reg f
  let d1 := d.setReg f { r with state := 2, rspHdr := hdr, rspData := hostPut r.rspData 0 data, waiting := none, remote := none }
  if r.irq % 2 = 1 then d1.sendMsix f 0 else d1

/-- The payload of a management frame or a MGMT packet (R365, R367): KIND 1 a request, 2 a response. -/
def mgmtPayload (kind hdr : Nat) (data : List Byte) : List Byte := natLe 4 (frameHeader kind) ++ natLe 16 hdr ++ data

/-- A payload with zeros up to the Ethernet minimum, 46 bytes (PRESUMED, log entry 112). -/
def ethernetPad (bs : List Byte) : List Byte := bs ++ List.replicate (46 - bs.length) 0#8

/-- Send a MGMT packet (R367). -/
def Dev.sendMgmt (d : Dev) (c : Clock) (dest : Nat) (bs : List Byte) : Dev :=
  let e := d.takeE2e dest
  let echo := e.1.echoes.contains dest
  let h := e.1.header c ⟨.mgmt, true, 1, false, echo, 0, 0, dest, e.2, bs.length⟩
  (({ e.1 with echoes := if echo then e.1.echoes.filter (· != dest) else e.1.echoes } : Dev).launch ⟨h, .own (.mgmt bs), none⟩ dest).1

/-- A response goes back by the path of its request. -/
def Dev.deliver (d : Dev) (c : Clock) (p : Path) (hdr : Nat) (data : List Byte) : Dev :=
  match p with
  | .pf => d.mbxDone 0 hdr data
  | .vf v => d.mbxDone (v.val + 1) hdr data
  | .mgmt f => d.emit (.mgmtFrame f.src.toNat d.mac mgmtEtherType (ethernetPad (mgmtPayload 2 hdr data)))
  | .fabric g _ => d.sendMgmt c g.toNat (mgmtPayload 2 hdr data)

/-- A path that keeps its last responses (R366). -/
def keeps (p : Path) : Bool := (pathFn p).isNone

/-- Keep a response: the last 16 of a source, one for each TXN (R366). -/
def Dev.keep (d : Dev) (k : Kept) : Dev :=
  let mine := d.kept.filter fun x => x.src = k.src && rqTxn x.request != rqTxn k.request
  let others := d.kept.filter fun x => x.src != k.src
  { d with kept := others ++ mine.drop (mine.length - 15) ++ [k] }

/-- Perform a request and send its response. -/
def answer (c : Clock) (d : Dev) (p : Path) (h : Nat) (data : List Byte) (ecc : List EccFinding) : Clock × Dev :=
  let r := perform c d p h data ecc
  let hdr := rspHeader h r.dev.geid (statusCode r.result) r.data.length
  let d1 := if keeps p then r.dev.keep ⟨pathSource p, h, hdr, r.data⟩ else r.dev
  (r.clk, d1.deliver r.clk p hdr r.data)

/-- A mailbox request with REMOTE set is sent to its target (R367), without REMOTE and TARGET, which the fabric path
reserves. -/
def Dev.sendRemote (d : Dev) (c : Clock) (r : RemoteReq) : Dev := d.sendMgmt c r.target (mgmtPayload 1 r.header r.data)

def Dev.forwardRequest (d : Dev) (c : Clock) (h : Nat) (data : List Byte) : Dev :=
  let r : RemoteReq := ⟨rqTarget h, putFld (putFld h 79 60 0) 59 59 0, if rqOp h = 2 || rqOp h = 5 then data.take (rqLength h) else [], 1⟩
  (d.setReg 0 { d.reg 0 with remote := some r }).sendRemote c r

/-- A request that the control processors serve: replayed from a kept response, forwarded, or performed. -/
def serve (c : Clock) (d0 : Dev) (p : Path) (h : Nat) (data : List Byte) (ecc : List EccFinding) : Clock × Dev :=
  let d := d0.bump 0x80E0 1 (pathCount p) 1
  match (if keeps p then d.kept.find? fun k => k.src = pathSource p && k.request = h else none) with
  | some k => (c, (d.bump 0x80E0 4 0 1).deliver c p k.header k.data)
  | none =>
    if p = .pf && !d.boot.recovery && (headerBar p h).isNone && rqRemote h then (c, d.forwardRequest c h data)
    else answer c d p h data ecc

/-! ### The queue of requests (R356, R366) -/

/-- Must a request wait? A MEM operation of this device does while a refresh slot runs: cisterns serve no accesses (R30). -/
def Dev.requestWaits (d : Dev) (x : WaitReq) : Bool := d.slotOn && (rqOp x.header = 4 || rqOp x.header = 5) && !rqRemote x.header

/-- Requests are served one at a time, in order of arrival, until one must wait: `n` bounds them. -/
def serveQueue : Nat → Clock → Dev → Clock × Dev
  | 0, c, d => (c, d)
  | n + 1, c, d =>
    match d.reqQueue with
    | [] => (c, d)
    | x :: xs =>
      if d.requestWaits x then (c, d)
      else
        let r := serve c { d with reqQueue := xs } x.src x.header x.data x.ecc
        serveQueue n r.1 r.2

/-- A request arrives at the control processors. The management port and the fabric share 64 places. -/
def arrive (c : Clock) (d : Dev) (p : Path) (h : Nat) (data : List Byte) (ecc : List EccFinding) : Clock × Dev :=
  if keeps p && decide (64 ≤ (d.reqQueue.filter fun x => keeps x.src).length) then (c, d.bump 0x80E0 3 0 1)
  else serveQueue (d.reqQueue.length + 1) c { d with reqQueue := d.reqQueue ++ [⟨p, h, data, ecc⟩] }

/-! ### Mailboxes (R363, R387) -/

/-- Can the host reach the module over PCIe (R384, R444)? -/
def Dev.hostUp (d : Dev) : Bool := d.primeOf 3 = 1 && d.perstHigh

/-- The path of a function's mailbox. -/
def fnPath (f : Nat) : Path := if f = 0 then .pf else .vf (Fin.ofNat 8 (f - 1))

/-- A doorbell of function `f`. -/
def doorbell (c : Clock) (d : Dev) (f : Nat) (ecc : List EccFinding) : Clock × Dev :=
  let r := d.reg f
  if r.state = 1 then (c, d.bump 0x80E0 5 0 1)
  else
    let data := (List.range (rqLength r.reqHdr)).map fun i => SMap.get (fun _ => 0#8) r.reqData i
    if d.primeOf 0 = 1 then arrive c (d.setReg f { r with state := 1 }) (fnPath f) r.reqHdr data ecc
    else (c, d.setReg f { r with state := 1, waiting := some (r.reqHdr, data) })

/-- The request of a mailbox that waited for the dictionary's priming is performed (R387). -/
def runWaiting (c : Clock) (d : Dev) (f : Nat) : Clock × Dev :=
  match (d.reg f).waiting with
  | some w => arrive c (d.setReg f { d.reg f with waiting := none }) (fnPath f) w.1 w.2 []
  | none => (c, d)

/-- A request arrives on a path: through a mailbox, its header and data are written there first. -/
def request (c : Clock) (d : Dev) (p : Path) (h : Nat) (data : List Byte) (ecc : List EccFinding) : Clock × Dev :=
  match pathFn p with
  | some f =>
    if d.hostUp then
      doorbell c (d.setReg f { d.reg f with reqHdr := h, reqData := hostPut (d.reg f).reqData 0 (data.take 4096) }) f ecc
    else (c, d)
  | none => if d.primeOf 0 = 1 && d.takesFrame p then arrive c d p h data ecc else (c, d)

/-- A WRITE of one entry's whole value. -/
def writeEntry (p : Path) (txn : BitVec 16) (idx sub : Nat) (data : List Byte) (s : State) : Host.Outcome State Fault Refusal :=
  onRequest s p fun c d => request c d p (rqHeader 2 txn.toNat idx sub 0 data.length) data []

/-- The bytes of a CTX_COMMAND. -/
def ctxBytes (ctx : BitVec 16) (op : Nat) : List Byte := natLe 2 ctx.toNat ++ natLe 2 op

/-! ### The rows -/

/-- READ (R357, R360). -/
def execRead (p : Path) (h : BitVec 128) (s : State) : Host.Outcome State Fault Refusal :=
  onRequest s p fun c d => request c d p h.toNat [] []

/-- WRITE (R355, R356). -/
def execWrite (p : Path) (h : BitVec 128) (data : List Byte) (s : State) : Host.Outcome State Fault Refusal :=
  onRequest s p fun c d => request c d p h.toNat data []

/-- DESCRIBE (R360). -/
def execDescribe (p : Path) (h : BitVec 128) (s : State) : Host.Outcome State Fault Refusal :=
  onRequest s p fun c d => request c d p h.toNat [] []

/-- MEM_READ (R360, R406). -/
def execMemRead (p : Path) (h : BitVec 128) (ecc : List EccFinding) (s : State) : Host.Outcome State Fault Refusal :=
  onRequest s p fun c d => request c d p h.toNat [] ecc

/-- MEM_WRITE (R360). -/
def execMemWrite (p : Path) (h : BitVec 128) (data : List Byte) (s : State) : Host.Outcome State Fault Refusal :=
  onRequest s p fun c d => request c d p h.toNat data []

/-- PERIOD_CHANGE (R29). -/
def execPeriodChange (p : Path) (txn : BitVec 16) (data : List Byte) (s : State) : Host.Outcome State Fault Refusal :=
  writeEntry p txn 0x2000 2 data s

/-- ROUTE_LOAD (R305). -/
def execRouteLoad (p : Path) (txn : BitVec 16) (data : List Byte) (s : State) : Host.Outcome State Fault Refusal :=
  writeEntry p txn 0x4010 2 data s

/-- EPOCH_CHANGE (R306). -/
def execEpochChange (p : Path) (txn : BitVec 16) (data : List Byte) (s : State) : Host.Outcome State Fault Refusal :=
  writeEntry p txn 0x4010 4 data s

/-- DOMAIN_DRAIN (R311). -/
def execDomainDrain (p : Path) (txn : BitVec 16) (data : List Byte) (s : State) : Host.Outcome State Fault Refusal :=
  writeEntry p txn 0x4000 5 data s

/-- PORT_RETRAIN (R294, R296). -/
def execPortRetrain (p : Path) (txn : BitVec 16) (data : List Byte) (s : State) : Host.Outcome State Fault Refusal :=
  writeEntry p txn 0x4030 2 data s

/-- DEFINE (R337). -/
def execDefine (p : Path) (txn ctx : BitVec 16) (s : State) : Host.Outcome State Fault Refusal :=
  writeEntry p txn 0x3000 2 (ctxBytes ctx 1) s

/-- REMOVE (R349). -/
def execRemove (p : Path) (txn ctx : BitVec 16) (s : State) : Host.Outcome State Fault Refusal :=
  writeEntry p txn 0x3000 2 (ctxBytes ctx 2) s

/-- ABORT (R350). -/
def execAbort (p : Path) (txn ctx : BitVec 16) (s : State) : Host.Outcome State Fault Refusal :=
  writeEntry p txn 0x3000 2 (ctxBytes ctx 3) s

/-- RESUME (R349). -/
def execResume (p : Path) (txn ctx : BitVec 16) (s : State) : Host.Outcome State Fault Refusal :=
  writeEntry p txn 0x3000 2 (ctxBytes ctx 4) s

/-- SEQ_DROPS_CLEAR (R190). -/
def execSeqDropsClear (p : Path) (txn : BitVec 16) (data : List Byte) (s : State) : Host.Outcome State Fault Refusal :=
  writeEntry p txn 0x8060 0x0C data s

/-- LOG_CLEAR (R417). -/
def execLogClear (domain : Fin 11) (p : Path) (txn : BitVec 16) (data : List Byte) (s : State) : Host.Outcome State Fault Refusal :=
  writeEntry p txn (0x7010 + domain.val) 4 data s

/-- LS_CLEAR (R424). -/
def execLsClear (p : Path) (txn : BitVec 16) (data : List Byte) (s : State) : Host.Outcome State Fault Refusal :=
  writeEntry p txn 0x7100 0x0B data s

/-- DEVICE_RESET (R382, R403). -/
def execDeviceReset (p : Path) (txn : BitVec 16) (data : List Byte) (s : State) : Host.Outcome State Fault Refusal :=
  writeEntry p txn 0x2040 1 data s

/-- FLASH_OP 1, READ (R395). -/
def execFlashRead (p : Path) (txn : BitVec 16) (data : List Byte) (s : State) : Host.Outcome State Fault Refusal :=
  writeEntry p txn 0x9010 3 data s

/-- FLASH_OP 2, PROGRAM (R395). -/
def execFlashProgram (p : Path) (txn : BitVec 16) (data : List Byte) (s : State) : Host.Outcome State Fault Refusal :=
  writeEntry p txn 0x9010 3 data s

/-- FLASH_OP 3, ERASE (R395). -/
def execFlashErase (p : Path) (txn : BitVec 16) (data : List Byte) (s : State) : Host.Outcome State Fault Refusal :=
  writeEntry p txn 0x9010 3 data s

/-- SVN_ADVANCE (R393). -/
def execSvnAdvance (p : Path) (txn : BitVec 16) (data : List Byte) (s : State) : Host.Outcome State Fault Refusal :=
  writeEntry p txn 0x9000 3 data s

/-- KEY_REVOKE (R393). -/
def execKeyRevoke (p : Path) (txn : BitVec 16) (data : List Byte) (s : State) : Host.Outcome State Fault Refusal :=
  writeEntry p txn 0x9000 5 data s

/-- BOOT_PREFERENCE (R394). -/
def execBootPreference (p : Path) (txn : BitVec 16) (data : List Byte) (s : State) : Host.Outcome State Fault Refusal :=
  writeEntry p txn 0x9000 6 data s

/-- ATTEST_NONCE (R398). -/
def execAttestNonce (p : Path) (txn : BitVec 16) (data : List Byte) (s : State) : Host.Outcome State Fault Refusal :=
  writeEntry p txn 0x9030 1 data s

/-- MBX_DOORBELL (R363): a write of 1 submits what the function's mailbox holds. -/
def execMbxDoorbell (f : FunctionId) (v : BitVec 32) (s : State) : Host.Outcome State Fault Refusal :=
  onBoth s fun c d => if d.hostUp && v = 1#32 then doorbell c d f.val [] else (c, d)

/-- MGMT_RESPONSE (R367): it completes the mailbox whose forwarded request it answers. -/
def execMgmtResponse (src : Geid) (h : BitVec 128) (data : List Byte) (s : State) : Host.Outcome State Fault Refusal :=
  onDev s fun _ d =>
    match (d.reg 0).remote with
    | some r => if r.target = src.toNat && h.toNat / 2 ^ 80 = r.header / 2 ^ 80 then
        d.mbxDone 0 h.toNat (data.take (rqLength h.toNat)) else d
    | none => d

/-- MBX_REMOTE_RESEND (R367): another sending, or TIMEOUT after 40. -/
def execMbxRemoteResend (f : FunctionId) (s : State) : Host.Outcome State Fault Refusal :=
  onDev s fun c d =>
    match (d.reg f.val).remote with
    | some r =>
      if r.sendings < 40 then
        (d.setReg f.val { d.reg f.val with remote := some { r with sendings := r.sendings + 1 } }).sendRemote c r
      else d.mbxDone f.val (rspHeader r.header d.geid (statusCode (some .timeout)) 0) []
    | none => d

end Sys2Proof.Machine
end

