-- ==== Sys2Proof/Machine/HostOps.lean ====
section
/-! DEFINITION. The PCIe host port: doorbells, register blocks, BAR2 and the resets of its functions (spec/16_control.md
R363, R371 to R374, R379; spec/11_memory_fabric.md R243, R244; spec/20_module.md R444). -/

namespace Sys2Proof.Machine

/-! ### Doorbells (R374, R379) -/

/-- A tail doorbell through function `f`'s register block. -/
def Dev.tailDoorbell (d : Dev) (f q v : Nat) : Dev :=
  if d.sqSize q ≤ v || d.sqFunction q != f then d.bump 0x80E0 5 0 1 else d.setSq q { d.sq q with tail := v }

/-- A head doorbell: room appears, and held entries are posted. -/
def Dev.headDoorbell (d : Dev) (f q v : Nat) : Dev :=
  if d.cqSize q ≤ v || d.cqFunction q != f then d.bump 0x80E0 5 0 1
  else
    let d1 := d.setCq q { d.cq q with head := v }
    d1.flushHeldCq.cqVectors d1

/-! ### Register blocks (R363, R372) -/

/-- Byte `i` of a number. -/
def byteOf (w i : Nat) : Byte := BitVec.ofNat 8 (w / 256 ^ i)

/-- SQ_TAIL and CQ_HEAD of function `f`'s block: a doorbell of another function's queue has written nothing there (R374). -/
def Dev.tailShown (d : Dev) (f q : Nat) : Nat := if d.sqFunction q = f then (d.sq q).tail else 0
def Dev.headShown (d : Dev) (f q : Nat) : Nat := if d.cqFunction q = f then (d.cq q).head else 0

/-- A byte of function `f`'s register block, as a read finds it. -/
def Dev.regByte (d : Dev) (f off : Nat) : Byte :=
  let r := d.reg f
  if off < 0x10 then byteOf r.reqHdr off
  else if 0x14 ≤ off && off < 0x18 then byteOf r.state (off - 0x14)
  else if 0x18 ≤ off && off < 0x1C then byteOf r.irq (off - 0x18)
  else if 0x40 ≤ off && off < 0x1040 then SMap.get (fun _ => 0#8) r.reqData (off - 0x40)
  else if 0x1040 ≤ off && off < 0x1050 then byteOf r.rspHdr (off - 0x1040)
  else if 0x1080 ≤ off && off < 0x2080 then SMap.get (fun _ => 0#8) r.rspData (off - 0x1080)
  else if 0x3000 ≤ off && off < 0x4000 then byteOf (d.tailShown f ((off - 0x3000) / 4)) (off % 4)
  else if 0x4000 ≤ off && off < 0x5000 then byteOf (d.headShown f ((off - 0x4000) / 4)) (off % 4)
  else if 0x5000 ≤ off && off < 0x5400 then SMap.get (fun _ => 0#8) r.msixTable (off - 0x5000)
  else if 0x5400 ≤ off && off < 0x5408 then byteOf r.pba (off - 0x5400)
  else 0#8

/-- The data areas, which accept wider accesses. -/
def dataArea (off n : Nat) : Bool :=
  (decide (0x40 ≤ off) && decide (off + n ≤ 0x1040)) || (decide (0x1080 ≤ off) && decide (off + n ≤ 0x2080))

/-- An access that BAR0 accepts. -/
def regAccessOk (off n : Nat) : Bool := off % n = 0 && (n = 4 || n = 8 || (0 < n && n ≤ 64 && dataArea off n))

/-- A vector that is unmasked while it is pending is sent. -/
def Dev.unmasked (d : Dev) (f v : Nat) : Dev :=
  let r := d.reg f
  if bit r.pba v && !r.masked v then (d.setReg f { r with pba := r.pba - 2 ^ v }).emit (.msix f v) else d

/-- A 32-bit word is written to function `f`'s register block. -/
def regWord (c : Clock) (d : Dev) (f off v : Nat) : Clock × Dev :=
  let r := d.reg f
  if off < 0x10 then (c, d.setReg f { r with reqHdr := putFld r.reqHdr (8 * off + 31) (8 * off) v })
  else if off = 0x10 then (if v = 1 then doorbell c d f [] else (c, d))
  else if off = 0x18 then (c, d.setReg f { r with irq := v % 2 })
  else if 0x40 ≤ off && off < 0x1040 then (c, d.setReg f { r with reqData := hostPut r.reqData (off - 0x40) (natLe 4 v) })
  else if 0x3000 ≤ off && off < 0x4000 then (c, d.tailDoorbell f ((off - 0x3000) / 4) v)
  else if 0x4000 ≤ off && off < 0x5000 then (c, d.headDoorbell f ((off - 0x4000) / 4) v)
  else if 0x5000 ≤ off && off < 0x5400 then
    (c, (d.setReg f { r with msixTable := hostPut r.msixTable (off - 0x5000) (natLe 4 v) }).unmasked f ((off - 0x5000) / 16))
  else (c, d)

/-- A write to a register block. -/
def regWrite (c : Clock) (d : Dev) (f off : Nat) (bs : List Byte) : Clock × Dev :=
  if !regAccessOk off bs.length then (c, d)
  else if bs.length = 4 || bs.length = 8 then
    (List.range (bs.length / 4)).foldl (fun x i => regWord x.1 x.2 f (off + 4 * i) (leNat ((bs.drop (4 * i)).take 4))) (c, d)
  else if off < 0x1040 then (c, d.setReg f { d.reg f with reqData := hostPut (d.reg f).reqData (off - 0x40) bs })
  else (c, d)

/-- The register block at a device address of the MMIO region: function and offset. -/
def mmioBlock (a : Nat) : Option (Nat × Nat) :=
  if 0x1C000000000 ≤ a && a < 0x1C000000000 + 9 * 65536 then some ((a - 0x1C000000000) / 65536, a % 65536) else none

/-! ### BAR2 (R371) -/

/-- The device address of an offset into function `f`'s BAR2. -/
def Dev.bar2Addr (d : Dev) (f off : Nat) : Nat := if f = 0 then d.v 0x2030 3 0 + off else off

/-- Is a host access refused? -/
def Dev.hostRefused (d : Dev) (f a n : Nat) : Bool :=
  if (d.servesOnly && (mmioBlock a).isNone) || (f != 0 && !inShare (d.share (f - 1)) a n) then true
  else decide (a < cisternEnd) && (d.cisternsOf a (min n (cisternEnd - a))).any d.cisternFaulted

/-- The core whose well aperture holds an address, if its byte exists. -/
def apertureCore (a : Nat) : Option Nat :=
  let w := (a - cisternEnd) / 0x800000
  if cisternEnd ≤ a && w < 256 && a % 0x800000 < wellBytes then some w else none

/-- Does a resident context hold the well (R244)? -/
def Dev.wellHeld (d : Dev) (core : Nat) : Bool := (d.cluster (core / 8)).holder.isSome

/-- A byte that the host reads. A well in use, and a cistern still PRIMING, give undefined bytes (R244; log entry 36). -/
def Dev.hostByte (d : Dev) (a : Nat) : Byte :=
  if a < cisternEnd then
    (if d.primeOf (64 + d.cisternOf a) = 1 then d.memNow.byte a else Config.freeByte d.freeCtr a)
  else
    match apertureCore a with
    | some w => if d.wellHeld w then Config.freeByte d.freeCtr a else d.mem.byte a
    | none =>
      match mmioBlock a with
      | some b => d.regByte b.1 b.2
      | none => 0#8

/-- A read through BAR2. -/
def Dev.hostBar2Read (d : Dev) (c : Clock) (f off n : Nat) (ecc : List EccFinding) : Dev :=
  let a := d.bar2Addr f off
  if d.hostRefused f a n then (d.bump 0x80E0 6 0 1).emit (.hostRead f (List.replicate n 0xFF#8) false)
  else
    let d1 := d.eccAll c none ecc
    let inMmio := (mmioBlock a).isSome && !regAccessOk (a % 65536) n
    let bs := if inMmio then List.replicate n 0#8 else (List.range n).map fun i => d1.hostByte (a + i)
    d1.tickFree.emit (.hostRead f bs (d1.memNow.anyPoison a (min n (cisternEnd - a))))

/-- One byte of a host write, outside the MMIO region. A cistern still PRIMING will be zero-filled (log entry 36). -/
def Dev.hostStoreByte (d : Dev) (a : Nat) (b : Byte) : Dev :=
  if a < cisternEnd then d
  else
    match apertureCore a with
    | some w => { d with mem := d.mem.setByte a (if d.wellHeld w then Config.freeByte d.freeCtr a else b) }
    | none => d

/-- The part of a host write that lies in cistern memory: clean data (R241). -/
def Dev.hostStoreCistern (d : Dev) (a : Nat) (bs : List Byte) : Dev :=
  if bs.isEmpty || (d.cisternsOf a bs.length).any (fun ci => d.primeOf (64 + ci) != 1) then d
  else d.memStore a bs false

/-- A write through BAR2. -/
def hostBar2Write (c : Clock) (d : Dev) (f off : Nat) (bs : List Byte) : Clock × Dev :=
  let a := d.bar2Addr f off
  if d.hostRefused f a bs.length then (c, d.bump 0x80E0 6 0 1)
  else
    match mmioBlock a with
    | some b => regWrite c d b.1 b.2 bs
    | none =>
      let d1 := d.hostStoreCistern a (bs.take (cisternEnd - a))
      (c, ((List.zip (List.range bs.length) bs).foldl (fun d x => d.hostStoreByte (a + x.1) x.2) d1).tickFree)

/-! ### Resets of functions (R373) -/

/-- The queues of function `f` are disabled, and their doorbells read zero again (R363, R373). -/
def Dev.disableQueues (d : Dev) (f : Nat) : Dev :=
  let d1 := ((List.range 1024).filter fun q => d.sqSize q != 0 && d.sqFunction q = f).foldl (fun d q =>
    (d.setV (0x3400 + q) 3 0 0).setSq q { d.sq q with tail := 0 }) d
  ((List.range 1024).filter fun q => d.cqSize q != 0 && d.cqFunction q = f).foldl (fun d q =>
    (d.setV (0x3800 + q) 3 0 0).setCq q { d.cq q with head := 0 }) d1

/-- The contexts of client `f` are torn down at the next turnover. -/
def Dev.removeClient (d : Dev) (c : Clock) (f : Nat) : Dev :=
  let n := nextTurnover c
  let d1 := (d.ctxIds.filter fun k => (d.ctx k).client = f).foldl (fun d k =>
    d.updCtx k fun x => { x with removeAt := some (min (x.removeAt.getD n) n) }) d
  { d1 with defines := d1.defines.map fun r => if r.client = f then { r with doomed := true } else r }

/-- One function is reset. A request of its mailbox that waits is no more. -/
def Dev.resetFunction (d : Dev) (c : Clock) (f : Nat) : Dev :=
  let d1 := ((d.disableQueues f).setReg f {}).removeClient c f
  { d1 with reqQueue := d1.reqQueue.filter fun x => pathFn x.src != some f }

/-- Every function is reset. -/
def Dev.resetFunctions (d : Dev) (c : Clock) : Dev := (List.range 9).foldl (fun d f => d.resetFunction c f) d

/-! ### Refresh slots (R30) -/

/-- Does a host access wait for the end of a refresh slot: is it one that a cistern would have to serve? -/
def Dev.hostWaits (d : Dev) (f off : Nat) : Bool := d.slotOn && decide (d.bar2Addr f off < cisternEnd)

/-- A host access, at once or at the end of the slot. -/
def hostAccess (c : Clock) (d : Dev) : Instr → Clock × Dev
  | .hostBar2Read f off n ecc => (c, d.hostBar2Read c f.val off.toNat n.val ecc)
  | .hostBar2Write f off data => hostBar2Write c d f.val off.toNat data
  | _ => (c, d)

/-- The slot that runs has ended: dictionary requests and host accesses that waited for it are served. -/
def slotOver (c : Clock) (d : Dev) : Clock × Dev :=
  let d1 : Dev := { d with slotOn := false, slotHeld := [] }
  let r := serveQueue d.reqQueue.length c d1
  d.slotHeld.foldl (fun x i => hostAccess x.1 x.2 i) r

/-! ### The rows -/

/-- DEADLINE (R33). A slot that still runs ends with it. -/
def execDeadline (s : State) : Host.Outcome State Fault Refusal :=
  turnoverEvent s .work fun c d =>
    let r := if d.slotOn then slotOver c d else (c, d)
    (r.1.enter .deadline, r.2.deadline r.1)

/-- REFRESH_SLOT_END (R30). -/
def execRefreshSlotEnd (s : State) : Host.Outcome State Fault Refusal :=
  onBoth s fun c d =>
    if d.slotOn && c.running then
      let tap := min (max c.phase (c.slotPhase c.slotsDone + 1500)) (max c.phase (c.nextEvent - 1))
      let r := slotOver { c with phase := tap } d
      (r.1, r.2.resume r.1)
    else (c, d)

/-- SQ_TAIL (R374). -/
def execSqTail (f : FunctionId) (q : QueueId) (v : BitVec 32) (s : State) : Host.Outcome State Fault Refusal :=
  onDev s fun _ d => if d.hostUp then d.tailDoorbell f.val q.val v.toNat else d

/-- CQ_HEAD (R374, R379). -/
def execCqHead (f : FunctionId) (q : QueueId) (v : BitVec 32) (s : State) : Host.Outcome State Fault Refusal :=
  onDev s fun _ d => if d.hostUp then d.headDoorbell f.val q.val v.toNat else d

/-- HOST_BAR2_READ (R371, R406). -/
def execHostBar2Read (f : FunctionId) (off : BitVec 41) (bytes : Fin 4097) (ecc : List EccFinding) (s : State) :
    Host.Outcome State Fault Refusal :=
  onDev s fun c d =>
    if !d.hostUp then d
    else if d.hostWaits f.val off.toNat then { d with slotHeld := d.slotHeld ++ [.hostBar2Read f off bytes ecc] }
    else d.hostBar2Read c f.val off.toNat bytes.val ecc

/-- HOST_BAR2_WRITE (R371). -/
def execHostBar2Write (f : FunctionId) (off : BitVec 41) (data : List Byte) (s : State) : Host.Outcome State Fault Refusal :=
  onBoth s fun c d =>
    if !d.hostUp then (c, d)
    else if d.hostWaits f.val off.toNat then (c, { d with slotHeld := d.slotHeld ++ [.hostBar2Write f off data] })
    else hostBar2Write c d f.val off.toNat data

/-- FUNCTION_LEVEL_RESET (R373). That of the physical function resets them all. -/
def execFunctionLevelReset (f : FunctionId) (s : State) : Host.Outcome State Fault Refusal :=
  onDev s fun c d => if !d.hostUp then d else if f.val = 0 then d.resetFunctions c else d.resetFunction c f.val

/-- HOT_RESET (R373). -/
def execHotReset (s : State) : Host.Outcome State Fault Refusal := onDev s fun c d => if d.hostUp then d.resetFunctions c else d

/-- PCIE_LINK_LOSS (R373). -/
def execPcieLinkLoss (s : State) : Host.Outcome State Fault Refusal :=
  onDev s fun c d => if d.hostUp then d.resetFunctions c else d

/-- PERST_N (R444): its fall takes the PCIe link down; from its rise the host port primes (R384). The land itself follows
its level whatever the module does. -/
def execPerstN (level : Bool) (s : State) : Host.Outcome State Fault Refusal :=
  let lost := decide (s.dev.life = .on) && s.dev.hostUp && !level
  .next { s with dev := { (if lost then s.dev.resetFunctions s.clk else s.dev) with perstHigh := level } }

end Sys2Proof.Machine
end

