-- ==== Sys2Proof/Machine/BootOps.lean ====
section
/-! DEFINITION. Reset, the boot ROM, priming, and the ends of flash operations and attestation reports
(spec/17_priming_security.md R382 to R398; spec/20_module.md R444, R451). -/

namespace Sys2Proof.Machine

/-! ### The boot ROM (R389 to R392) -/

/-- A manifest as the ROM reads it (R390). -/
structure Manifest where
  bytes : List Byte
deriving DecidableEq, Repr

def Manifest.part (m : Manifest) (a n : Nat) : List Byte := (m.bytes.drop a).take n
/-- The manifest head, and component entry `i`, as words. -/
def Manifest.head (m : Manifest) : Nat := leNat (m.part 384 64)
def Manifest.entry (m : Manifest) (i : Nat) : Nat := leNat (m.part (48 * i) 48)
def Manifest.magic (m : Manifest) : Nat := fld m.head 31 0
def Manifest.svn (m : Manifest) : Nat := fld m.head 63 32
def Manifest.version (m : Manifest) : Nat := fld m.head 95 64
def Manifest.components (m : Manifest) : Nat := fld m.head 103 96
def Manifest.keySlot (m : Manifest) : Nat := fld m.head 111 104
def Manifest.key (m : Manifest) : List Byte := m.part 512 64
/-- DIGEST of component `i`. -/
def Manifest.digest (m : Manifest) (i : Nat) : List Byte := m.part (48 * i + 16) 32

/-- Is a reserved bit of the manifest other than zero? (log entry 37) -/
def Manifest.reservedSet (m : Manifest) : Bool :=
  fld m.head 511 112 != 0 || ((List.range 8).any fun i => fld (m.entry i) 63 8 != 0) || leNat (m.part 448 64) != 0
    || leNat (m.part 640 384) != 0

/-- The fused digest of key `k`. -/
def keyDigest (k : Nat) : List Byte := (List.finRange 32).map (Config.keyDigest (Fin.ofNat 4 k))

/-- "YLV-FW". -/
def fwIdent : List Byte := [0x59#8, 0x4C#8, 0x56#8, 0x2D#8, 0x46#8, 0x57#8]

/-- What component `i` of the slot at `base` is refused for: 2 beyond the slot or of a reserved kind, 6 its digest. -/
def Dev.componentResult (d : Dev) (base : Nat) (m : Manifest) (i : Nat) : Option Nat :=
  let e := m.entry i
  if 0x1000000 < fld e 95 64 + fld e 127 96 || 4 < fld e 7 0 then some 2
  else if sm3 (d.flashRead (base + fld e 95 64) (fld e 127 96)) != m.digest i then some 6
  else none

/-- The result of trying slot 0 (A) or 1 (B): 0 passes (R391, R396). -/
def Dev.slotResult (d : Dev) (slot : Nat) (readError : Bool) : Nat :=
  let base := slot * 0x1000000
  let m : Manifest := ⟨d.flashRead base 1024⟩
  if readError then 7
  else if m.magic != 0x464D4C59 || m.components = 0 || 8 < m.components || m.reservedSet || 3 < m.keySlot then 2
  else if bit d.keyRevoked m.keySlot || sm3 m.key != keyDigest m.keySlot then 3
  else if !sm2Verify m.key fwIdent (m.part 0 512) (m.part 576 64) then 4
  else if 64 < m.svn || m.svn < d.fusedSvn then 5
  else ((List.range m.components).findSome? fun i => d.componentResult base m i).getD 0

/-- The image of a slot starts. -/
def Dev.startImage (d : Dev) (slot a b : Nat) : Dev :=
  let m : Manifest := ⟨d.flashRead (slot * 0x1000000) 1024⟩
  { d with boot := { done := true, recovery := false, slot := some slot, resultA := a, resultB := b, version := m.version
                     svn := m.svn % 256, keySlot := m.keySlot, digests := (List.range m.components).map m.digest } }

/-- Functions that recovery leaves FAULTED: all but the management dictionary, the security engine and the host port. -/
def recoveryFaults : List Nat := 1 :: ((List.range 2).map (16 + ·) ++ (List.range 32).map (32 + ·) ++ (List.range 32).map (64 + ·)
  ++ (List.range 32).map (96 + ·))

/-- Recovery (R392). -/
def Dev.enterRecovery (d : Dev) (a b : Nat) : Dev :=
  { d with boot := { done := true, recovery := true, resultA := a, resultB := b }
           prime := recoveryFaults.foldl (fun m k => SMap.put (fun _ => 0) m k 2) d.prime }

/-- The ROM tries the preferred slot and then the other (R391). -/
def Dev.runRom (d : Dev) (errA errB : Bool) : Dev :=
  let first := if d.flashByte 0x2000000 = 1#8 then 1 else 0
  let res := fun s => d.slotResult s (if s = 0 then errA else errB)
  let r1 := res first
  if r1 = 0 then d.startImage first (if first = 0 then 0 else 1) (if first = 1 then 0 else 1)
  else
    let r2 := res (1 - first)
    let a := if first = 0 then r1 else r2
    let b := if first = 0 then r2 else r1
    if r2 = 0 then d.startImage (1 - first) a b else d.enterRecovery a b

/-! ### Priming (R384 to R388) -/

/-- Can the priming of a function end now? Everything but the security engine and the host port runs on what the ROM has
loaded; the host port primes while PERST# is high (log entry 38). -/
def Dev.mayPrime (d : Dev) (fn : PrimeFn) : Bool :=
  d.primeOf (primeKey fn) = 0 && (match fn with
    | .security => true
    | .pcie => d.perstHigh
    | _ => d.boot.done)

/-- What a function does on becoming PRIMED. -/
def primedNow (c : Clock) (d : Dev) (fn : PrimeFn) : Clock × Dev :=
  match fn with
  | .mgmt => (List.range 9).foldl (fun x f => runWaiting x.1 x.2 f) (c, d)
  | .stroke => ({ c with sync := .locked }, d)
  | .security => (c, { d with identity := d.identityMatch })
  | .cistern _ => (c, d.resume c)
  | .port p => (c, d.trainIf p.val)
  | _ => (c, d)

/-- A function's priming ends. -/
def endPriming (c : Clock) (d : Dev) (fn : PrimeFn) (ok : Bool) : Clock × Dev :=
  if !d.mayPrime fn then (c, d)
  else
    let d1 : Dev := { d with prime := SMap.put (fun _ => 0) d.prime (primeKey fn) (if ok then 1 else 2) }
    if ok then primedNow c d1 fn
    else
      match fn with
      | .security => (c, { d1 with identity := 3 })
      | .hdie _ => settleUpstream c ((List.range 32).foldl (fun d p => d.portOut p) d1)
      | _ => (c, d1)

/-! ### Flash operations (R395) -/

/-- A flash operation ends. After a flash error the sector's bytes, and the buffer of a READ, are undefined. -/
def Dev.flashEnds (d : Dev) (ok : Bool) : Dev :=
  match d.flashOp with
  | none => d
  | some o =>
    let d1 : Dev := { d with flashOp := none }
    let fill := fun (d : Dev) (f : Nat → Byte) => (List.range 4096).foldl (fun d i => d.setV 0x9010 2 i (f i).toNat) d
    let put := fun (n a : Nat) (f : Nat → Byte) => (List.range n).foldl (fun m i => SMap.put flashDflt m (a + i) (f i)) d.flash
    if ok then
      (match o.op with
        | 1 => fill d1 fun i => d.flashByte (o.offset + i)
        | 2 => { d1 with flash := put 4096 o.offset fun i => o.data.getD i 0#8 }
        | _ => { d1 with flash := put 65536 o.offset fun _ => 0xFF#8 }).setV 0x9010 4 0 2
    else
      let a := o.offset / 65536 * 65536
      let d2 : Dev := { d1.tickFree with flash := put 65536 a fun i => Config.freeByte d.freeCtr (a + i) }
      (if o.op = 1 then fill d2 fun i => Config.freeByte d.freeCtr (2 ^ 32 + i) else d2).setV 0x9010 4 0 4

/-! ### The rows -/

/-- MODULE_RESET_N (R382, R444): low holds the full reset; at its rise the test port leaves the instructions of R451. -/
def execModuleResetN (level : Bool) (s : State) : Host.Outcome State Fault Refusal :=
  if level then
    let t := s.dev.tap
    let t1 : TestPort := match t.instr with
      | .extest | .extestPulse | .extestTrain | .clamp | .highz => { t with instr := .idcode }
      | _ => t
    .next { s with dev := { s.dev with resetPinHigh := true, tap := if s.dev.resetPinHigh then t else t1 } }
  else
    let s1 := if s.dev.life = .off then s else s.resetBy .resetPin
    .next { s1 with dev := { s1.dev with resetPinHigh := false } }

/-- FULL_RESET (R382, R383, R415): the one that DEVICE_RESET has asked for, or that follows device fatal. -/
def execFullReset (s : State) : Host.Outcome State Fault Refusal :=
  let up := decide (s.dev.life = .on) || decide (s.dev.life = .fatal)
  if up && s.dev.resetAsked then .next (s.resetBy .command)
  else if s.dev.life = .fatal && s.dev.v 0x7200 4 0 = 1 then .next (s.resetBy .fatal)
  else .next s

/-- RESET_RELEASE (R382). -/
def execResetRelease (straps : Fin 8) (s : State) : Host.Outcome State Fault Refusal :=
  match s.dev.life with
  | .held cause => if s.dev.resetPinHigh then .next { s with clk := {}, dev := s.dev.released cause straps.val } else .next s
  | _ => .next s

/-- BOOT_ROM (R391, R392). -/
def execBootRom (readErrorA readErrorB : Bool) (s : State) : Host.Outcome State Fault Refusal :=
  onDev s fun _ d => if d.boot.done then d else d.runRom readErrorA readErrorB

/-- PRIMING_COMPLETE (R384). -/
def execPrimingComplete (fn : PrimeFn) (ok : Bool) (s : State) : Host.Outcome State Fault Refusal :=
  onBoth s fun c d => endPriming c d fn ok

/-- FLASH_OP_DONE (R395): in service, in recovery, and while halted after device fatal. -/
def execFlashOpDone (ok : Bool) (s : State) : Host.Outcome State Fault Refusal :=
  .next (if s.dev.life = .on || s.dev.life = .fatal then { s with dev := s.dev.flashEnds ok } else s)

/-- ATTEST_REPORT_READY (R398). -/
def execAttestReportReady (s : State) : Host.Outcome State Fault Refusal := onDev s fun _ d => d.attestReady

end Sys2Proof.Machine
end

