-- ==== Sys2Proof/Machine/CoreOps.lean ====
section
/-! DEFINITION. The meanings of the rows of the core: the instructions of a stroke plan and what happens on a core
(spec/04_matrix_array.md, spec/05_core.md, spec/06_sparsity.md, spec/09_pumps.md, spec/10_buckets_valves.md). Each works
on the next instruction of the plan that the core runs (log entry 17). -/

namespace Sys2Proof.Machine

/-- NOP (R94). -/
def execNop (c : CoreId) (s : State) : Host.Outcome State Fault Refusal :=
  onDev s fun clk d => d.seqStep clk c.val (fun i => i.op = 0) fun d _ i => d.advance c.val i

/-- ARRAY (R77 to R90). -/
def execArray (c : CoreId) (s : State) : Host.Outcome State Fault Refusal :=
  onDev s fun clk d => d.seqStep clk c.val (fun i => i.op = 1) fun d r i => d.issueArray c.val r i

/-- VOP 0x00: A_i (R106). -/
def execCopy (c : CoreId) (s : State) : Host.Outcome State Fault Refusal :=
  onDev s fun clk d => d.seqStep clk c.val (fun i => i.op = 2 && fld i.body 255 248 = 0x00) fun d r i => d.issueVector c.val r i

/-- VOP 0x01: A_i + B_i (R106). -/
def execAdd (c : CoreId) (s : State) : Host.Outcome State Fault Refusal :=
  onDev s fun clk d => d.seqStep clk c.val (fun i => i.op = 2 && fld i.body 255 248 = 0x01) fun d r i => d.issueVector c.val r i

/-- VOP 0x02: A_i − B_i (R106). -/
def execSub (c : CoreId) (s : State) : Host.Outcome State Fault Refusal :=
  onDev s fun clk d => d.seqStep clk c.val (fun i => i.op = 2 && fld i.body 255 248 = 0x02) fun d r i => d.issueVector c.val r i

/-- VOP 0x03: A_i × B_i (R106). -/
def execMul (c : CoreId) (s : State) : Host.Outcome State Fault Refusal :=
  onDev s fun clk d => d.seqStep clk c.val (fun i => i.op = 2 && fld i.body 255 248 = 0x03) fun d r i => d.issueVector c.val r i

/-- VOP 0x04: A_i × B_i + C_i (R106). -/
def execFma (c : CoreId) (s : State) : Host.Outcome State Fault Refusal :=
  onDev s fun clk d => d.seqStep clk c.val (fun i => i.op = 2 && fld i.body 255 248 = 0x04) fun d r i => d.issueVector c.val r i

/-- VOP 0x05: the minimum of R64 (R106). -/
def execMin (c : CoreId) (s : State) : Host.Outcome State Fault Refusal :=
  onDev s fun clk d => d.seqStep clk c.val (fun i => i.op = 2 && fld i.body 255 248 = 0x05) fun d r i => d.issueVector c.val r i

/-- VOP 0x06: the maximum of R64 (R106). -/
def execMax (c : CoreId) (s : State) : Host.Outcome State Fault Refusal :=
  onDev s fun clk d => d.seqStep clk c.val (fun i => i.op = 2 && fld i.body 255 248 = 0x06) fun d r i => d.issueVector c.val r i

/-- VOP 0x07: 1.0 where A_i < B_i (R106). -/
def execCmpLt (c : CoreId) (s : State) : Host.Outcome State Fault Refusal :=
  onDev s fun clk d => d.seqStep clk c.val (fun i => i.op = 2 && fld i.body 255 248 = 0x07) fun d r i => d.issueVector c.val r i

/-- VOP 0x08: A_i × IMM (R106). -/
def execScale (c : CoreId) (s : State) : Host.Outcome State Fault Refusal :=
  onDev s fun clk d => d.seqStep clk c.val (fun i => i.op = 2 && fld i.body 255 248 = 0x08) fun d r i => d.issueVector c.val r i

/-- VOP 0x10: 2^A_i (R106). -/
def execExp2 (c : CoreId) (s : State) : Host.Outcome State Fault Refusal :=
  onDev s fun clk d => d.seqStep clk c.val (fun i => i.op = 2 && fld i.body 255 248 = 0x10) fun d r i => d.issueVector c.val r i

/-- VOP 0x11: e^A_i (R106). -/
def execExp (c : CoreId) (s : State) : Host.Outcome State Fault Refusal :=
  onDev s fun clk d => d.seqStep clk c.val (fun i => i.op = 2 && fld i.body 255 248 = 0x11) fun d r i => d.issueVector c.val r i

/-- VOP 0x12: log2 A_i (R106). -/
def execLog2 (c : CoreId) (s : State) : Host.Outcome State Fault Refusal :=
  onDev s fun clk d => d.seqStep clk c.val (fun i => i.op = 2 && fld i.body 255 248 = 0x12) fun d r i => d.issueVector c.val r i

/-- VOP 0x13: ln A_i (R106). -/
def execLog (c : CoreId) (s : State) : Host.Outcome State Fault Refusal :=
  onDev s fun clk d => d.seqStep clk c.val (fun i => i.op = 2 && fld i.body 255 248 = 0x13) fun d r i => d.issueVector c.val r i

/-- VOP 0x14: 1 ÷ A_i (R106). -/
def execRcp (c : CoreId) (s : State) : Host.Outcome State Fault Refusal :=
  onDev s fun clk d => d.seqStep clk c.val (fun i => i.op = 2 && fld i.body 255 248 = 0x14) fun d r i => d.issueVector c.val r i

/-- VOP 0x15: √A_i (R106). -/
def execSqrt (c : CoreId) (s : State) : Host.Outcome State Fault Refusal :=
  onDev s fun clk d => d.seqStep clk c.val (fun i => i.op = 2 && fld i.body 255 248 = 0x15) fun d r i => d.issueVector c.val r i

/-- VOP 0x16: 1 ÷ √A_i (R106). -/
def execRsqrt (c : CoreId) (s : State) : Host.Outcome State Fault Refusal :=
  onDev s fun clk d => d.seqStep clk c.val (fun i => i.op = 2 && fld i.body 255 248 = 0x16) fun d r i => d.issueVector c.val r i

/-- VOP 0x17: tanh A_i (R106). -/
def execTanh (c : CoreId) (s : State) : Host.Outcome State Fault Refusal :=
  onDev s fun clk d => d.seqStep clk c.val (fun i => i.op = 2 && fld i.body 255 248 = 0x17) fun d r i => d.issueVector c.val r i

/-- VOP 0x18: the sigmoid of A_i (R106). -/
def execSigmoid (c : CoreId) (s : State) : Host.Outcome State Fault Refusal :=
  onDev s fun clk d => d.seqStep clk c.val (fun i => i.op = 2 && fld i.body 255 248 = 0x18) fun d r i => d.issueVector c.val r i

/-- VOP 0x20: the sum of all A_i (R106). -/
def execRsum (c : CoreId) (s : State) : Host.Outcome State Fault Refusal :=
  onDev s fun clk d => d.seqStep clk c.val (fun i => i.op = 2 && fld i.body 255 248 = 0x20) fun d r i => d.issueVector c.val r i

/-- VOP 0x21: the largest A_i (R106). -/
def execRmax (c : CoreId) (s : State) : Host.Outcome State Fault Refusal :=
  onDev s fun clk d => d.seqStep clk c.val (fun i => i.op = 2 && fld i.body 255 248 = 0x21) fun d r i => d.issueVector c.val r i

/-- VOP 0x28: A into OCP scaling (R106). -/
def execQuantMx (c : CoreId) (s : State) : Host.Outcome State Fault Refusal :=
  onDev s fun clk d => d.seqStep clk c.val (fun i => i.op = 2 && fld i.body 255 248 = 0x28) fun d r i => d.issueVector c.val r i

/-- VOP 0x29: A into fine blocks (R106). -/
def execQuantFine (c : CoreId) (s : State) : Host.Outcome State Fault Refusal :=
  onDev s fun clk d => d.seqStep clk c.val (fun i => i.op = 2 && fld i.body 255 248 = 0x29) fun d r i => d.issueVector c.val r i

/-- VOP 0x2A: A read with OCP scales (R106). -/
def execDequantMx (c : CoreId) (s : State) : Host.Outcome State Fault Refusal :=
  onDev s fun clk d => d.seqStep clk c.val (fun i => i.op = 2 && fld i.body 255 248 = 0x2A) fun d r i => d.issueVector c.val r i

/-- VOP 0x2B: A read with fine-block scales (R106). -/
def execDequantFine (c : CoreId) (s : State) : Host.Outcome State Fault Refusal :=
  onDev s fun clk d => d.seqStep clk c.val (fun i => i.op = 2 && fld i.body 255 248 = 0x2B) fun d r i => d.issueVector c.val r i

/-- SOP 0x01: GEMM (R118 to R127). -/
def execGemm (c : CoreId) (s : State) : Host.Outcome State Fault Refusal :=
  onDev s fun clk d => d.seqStep clk c.val (fun i => i.op = 3 && fld i.body 255 248 = 0x01) fun d r i => d.issueSparse c.val r i

/-- SOP 0x08: SPLIT (R133). -/
def execSplit (c : CoreId) (s : State) : Host.Outcome State Fault Refusal :=
  onDev s fun clk d => d.seqStep clk c.val (fun i => i.op = 3 && fld i.body 255 248 = 0x08) fun d r i => d.issueSparse c.val r i

/-- SOP 0x10: ACC_OPEN (R128). -/
def execAccOpen (c : CoreId) (s : State) : Host.Outcome State Fault Refusal :=
  onDev s fun clk d => d.seqStep clk c.val (fun i => i.op = 3 && fld i.body 255 248 = 0x10) fun d r i => d.issueSparse c.val r i

/-- SOP 0x11: SCATTER (R129). -/
def execScatter (c : CoreId) (s : State) : Host.Outcome State Fault Refusal :=
  onDev s fun clk d => d.seqStep clk c.val (fun i => i.op = 3 && fld i.body 255 248 = 0x11) fun d r i => d.issueSparse c.val r i

/-- SOP 0x12: ROWDOT (R134). -/
def execRowdot (c : CoreId) (s : State) : Host.Outcome State Fault Refusal :=
  onDev s fun clk d => d.seqStep clk c.val (fun i => i.op = 3 && fld i.body 255 248 = 0x12) fun d r i => d.issueSparse c.val r i

/-- SOP 0x13: ACC_DRAIN (R130). -/
def execAccDrain (c : CoreId) (s : State) : Host.Outcome State Fault Refusal :=
  onDev s fun clk d => d.seqStep clk c.val (fun i => i.op = 3 && fld i.body 255 248 = 0x13) fun d r i => d.issueSparse c.val r i

/-- SOP 0x14: MERGE (R135). -/
def execMerge (c : CoreId) (s : State) : Host.Outcome State Fault Refusal :=
  onDev s fun clk d => d.seqStep clk c.val (fun i => i.op = 3 && fld i.body 255 248 = 0x14) fun d r i => d.issueSparse c.val r i

/-- START (R197); what reading the descriptor and the stream's lines found (R406, R408). -/
def execStart (c : CoreId) (ecc : List EccFinding) (refetch : Nat) (s : State) : Host.Outcome State Fault Refusal :=
  onDev s fun clk d => d.seqStep clk c.val (fun i => i.op = 4 && fld i.body 255 252 = 1) fun d r i => d.issueStream clk c.val r i ecc refetch

/-- ARM (R212, R213; R406, R408). -/
def execArm (c : CoreRead) (s : State) : Host.Outcome State Fault Refusal :=
  onDev s fun clk d => d.seqStep clk c.core.val (fun i => i.op = 4 && fld i.body 255 252 = 2) fun d r i =>
    ((d.eccAll clk (some r.ctx) c.ecc).refetched (c.core.val / 8) c.refetch).issueArm clk c.core.val r i

/-- RELAY (R202; R406, R408). -/
def execRelay (c : CoreRead) (s : State) : Host.Outcome State Fault Refusal :=
  onDev s fun clk d => d.seqStep clk c.core.val (fun i => i.op = 4 && fld i.body 255 252 = 3) fun d r i =>
    d.issueStream clk c.core.val r i c.ecc c.refetch

/-- SIGNAL (R230 to R232, R235). -/
def execSignal (c : CoreId) (parityError : Bool) (s : State) : Host.Outcome State Fault Refusal :=
  onDev s fun clk d => d.seqStep clk c.val (fun i => i.op = 5 && fld i.body 255 252 = 1) fun d r i => d.issueSignal clk c.val r i parityError

/-- WAIT (R230, R235). -/
def execWait (c : CoreId) (parityError : Bool) (s : State) : Host.Outcome State Fault Refusal :=
  onDev s fun clk d => d.seqStep clk c.val (fun i => i.op = 5 && fld i.body 255 252 = 2) fun d r i => d.issueWait c.val r i false parityError

/-- WAIT_TAKE (R230, R235). -/
def execWaitTake (c : CoreId) (parityError : Bool) (s : State) : Host.Outcome State Fault Refusal :=
  onDev s fun clk d => d.seqStep clk c.val (fun i => i.op = 5 && fld i.body 255 252 = 3) fun d r i => d.issueWait c.val r i true parityError

/-- BUCKET_ALLOC (R225, R235, R236). -/
def execBucketAlloc (c : CoreId) (parityError : Bool) (s : State) : Host.Outcome State Fault Refusal :=
  onDev s fun clk d => d.seqStep clk c.val (fun i => i.op = 5 && fld i.body 255 252 = 8) fun d r i => d.issueAlloc c.val r i parityError

/-- BUCKET_ADD (R226, R235). -/
def execBucketAdd (c : PoolSeen) (s : State) : Host.Outcome State Fault Refusal :=
  onDev s fun clk d => d.seqStep clk c.core.val (fun i => i.op = 5 && fld i.body 255 252 = 9) fun d r i => d.issueBucketAdd c.core.val r i c.parityError

/-- BUCKET_RELEASE (R226, R235). -/
def execBucketRelease (c : CoreId) (parityError : Bool) (s : State) : Host.Outcome State Fault Refusal :=
  onDev s fun clk d => d.seqStep clk c.val (fun i => i.op = 5 && fld i.body 255 252 = 10) fun d r i => d.issueRelease c.val r i parityError

/-- A parity error in the state of a core's instruction (R412). -/
def Dev.coreParity (d : Dev) (core k : Nat) (controlParity : Bool) : Dev :=
  if controlParity then d.raiseUncorrected k .controlCheck .core core else d

/-- QUEUE_PUSH (R236, R412). -/
def execQueuePush (c : HandleSeen) (s : State) : Host.Outcome State Fault Refusal :=
  onDev s fun clk d => d.seqStep clk c.core.val (fun i => i.op = 5 && fld i.body 255 252 = 11) fun d r i =>
    ((d.coreParity c.core.val r.ctx c.controlParity).seqPush c.core.val r i).pump clk

/-- QUEUE_POP (R236, R412). -/
def execQueuePop (c : HandleSeen) (s : State) : Host.Outcome State Fault Refusal :=
  onDev s fun clk d => d.seqStep clk c.core.val (fun i => i.op = 5 && fld i.body 255 252 = 12) fun d r i =>
    ((d.coreParity c.core.val r.ctx c.controlParity).seqPop c.core.val r i).pump clk

/-- COMPUTE (R98). -/
def execCompute (c : CoreId) (s : State) : Host.Outcome State Fault Refusal :=
  onDev s fun clk d => d.seqStep clk c.val (fun i => i.op = 6 && i.arg = 0) fun d _ i => d.issuePhase c.val i true

/-- TRANSFER (R98). -/
def execTransfer (c : CoreId) (s : State) : Host.Outcome State Fault Refusal :=
  onDev s fun clk d => d.seqStep clk c.val (fun i => i.op = 6 && i.arg = 1) fun d _ i => d.issuePhase c.val i false

/-- PHASE_SWITCH_DONE (R98): the switch of 4 cycles is over. -/
def execPhaseSwitchDone (c : CoreId) (s : State) : Host.Outcome State Fault Refusal :=
  onDev s fun clk d => d.switchDone clk c.val

/-- END_ITEM (R101). -/
def execEndItem (c : CoreId) (s : State) : Host.Outcome State Fault Refusal :=
  onDev s fun clk d => d.seqStep clk c.val (fun i => i.op = 7) fun d r i => (d.sessionOpen c.val r).advance c.val i

/-- END_PLAN (R95). -/
def execEndPlan (c : CoreId) (s : State) : Host.Outcome State Fault Refusal :=
  onDev s fun clk d => d.seqStep clk c.val (fun i => i.op = 0x0F) fun d r i => d.issueEndPlan c.val r i

/-- ENGINE_OP_FINISHED (R97): the operation in a scoreboard slot. -/
def execEngineOpFinished (c : CoreId) (slot : Fin 64) (check : OpSeen) (s : State) : Host.Outcome State Fault Refusal :=
  onDev s fun clk d => if clk.stage = .work then d.finishOp clk c.val slot.val check.check check.ecc else d

/-- ITEM_TAKE (R347). -/
def execItemTake (c : CoreId) (s : State) : Host.Outcome State Fault Refusal :=
  onDev s fun clk d => d.takeItem clk c.val

/-- STREAM_COMPLETE (R199; R235, R412). -/
def execStreamComplete (c : CoreId) (ch : Fin 16) (seen : StreamSeen) (s : State) : Host.Outcome State Fault Refusal :=
  onDev s fun clk d => d.completeStream clk c.val ch.val seen.controlParity seen.poolParity

end Sys2Proof.Machine
end

