-- ==== Sys2Proof/Machine/PacketOps.lean ====
section
/-! DEFINITION. The meanings of the rows that packets, links and the memory fabric bring (spec/08_tridal_dispatch.md,
spec/11_memory_fabric.md, spec/13_rolkan.md, spec/14_collectives.md). -/

namespace Sys2Proof.Machine

/-- DEMAND (R171). -/
def execDemand (m : TridalIn) (disagree : List Nat) (s : State) : Host.Outcome State Fault Refusal :=
  onDev s fun clk d => d.ingress clk (.demand m disagree)

/-- DEMAND_END (R171). -/
def execDemandEnd (m : TridalIn) (disagree : List Nat) (s : State) : Host.Outcome State Fault Refusal :=
  onDev s fun clk d => d.ingress clk (.demandEnd m disagree)

/-- GRANT (R175). -/
def execGrant (m : TridalIn) (s : State) : Host.Outcome State Fault Refusal :=
  onDev s fun clk d => d.ingress clk (.grant m)

/-- GRANT_END (R175). -/
def execGrantEnd (m : TridalIn) (s : State) : Host.Outcome State Fault Refusal :=
  onDev s fun clk d => d.ingress clk (.grantEnd m)

/-- ROWS (R179). -/
def execRows (m : TridalIn) (s : State) : Host.Outcome State Fault Refusal :=
  onDev s fun clk d => d.ingress clk (.rows m)

/-- RETURN_ROWS (R181). -/
def execReturnRows (m : TridalIn) (s : State) : Host.Outcome State Fault Refusal :=
  onDev s fun clk d => d.ingress clk (.returnRows m)

/-- UP (R323, R329). -/
def execUp (m : CollIn) (seen : UpSeen) (s : State) : Host.Outcome State Fault Refusal :=
  onDev s fun clk d => d.ingress clk (.up m seen)

/-- DOWN (R323, R329). -/
def execDown (m : DownIn) (s : State) : Host.Outcome State Fault Refusal :=
  onDev s fun clk d => d.ingress clk (.down m)

/-- POISON_NOTICE (R330). -/
def execPoisonNotice (m : CollIn) (s : State) : Host.Outcome State Fault Refusal :=
  onDev s fun clk d => d.ingress clk (.poisonNotice m)

/-- CONFIRM (R327). -/
def execConfirm (m : CollIn) (s : State) : Host.Outcome State Fault Refusal :=
  onDev s fun clk d => d.ingress clk (.confirm m)

/-- VERDICT (R327). -/
def execVerdict (m : CollIn) (s : State) : Host.Outcome State Fault Refusal :=
  onDev s fun clk d => d.ingress clk (.verdict m)

/-- MEM_REQ (R258 to R264). -/
def execMemReq (m : MemReqSeen) (s : State) : Host.Outcome State Fault Refusal :=
  onDev s fun clk d => d.ingress clk (.memReq m)

/-- MEM_RESP (R259, R262, R307). -/
def execMemResp (m : MemResp) (s : State) : Host.Outcome State Fault Refusal :=
  onDev s fun clk d => d.ingress clk (.memResp m)

/-- BULK (R268, R269). -/
def execBulk (b : BulkAt) (s : State) : Host.Outcome State Fault Refusal :=
  onDev s fun clk d => d.ingress clk (.bulk b)

/-- BULK_ACK (R309). -/
def execBulkAck (src : Geid) (seq : BitVec 16) (denied ecnEcho : Bool) (s : State) : Host.Outcome State Fault Refusal :=
  onDev s fun clk d => d.ingress clk (.bulkAck src seq denied ecnEcho)

/-- CONGESTION (R310). -/
def execCongestion (src : Geid) (s : State) : Host.Outcome State Fault Refusal :=
  onDev s fun clk d => d.echoIn clk src.toNat

/-- PACKET_FORWARD (R303, R306, R307). -/
def execPacketForward (ingress : Option PortId) (pk : PacketSeen) (s : State) : Host.Outcome State Fault Refusal :=
  onDev s fun clk d => ((d.tableSeen clk pk.tableParity).forward clk ingress pk.packet).flowControl

/-- FRAME (R291, R308). -/
def execFrame (port : PortId) (f : FrameIn) (s : State) : Host.Outcome State Fault Refusal :=
  onBoth s fun clk d => settleUpstream clk (d.frameIn clk port f).flowControl

/-- LINK_OFFER (R292 to R295). -/
def execLinkOffer (port : PortId) (offer : BitVec 128) (rttNs : BitVec 32) (s : State) : Host.Outcome State Fault Refusal :=
  onBoth s fun clk d =>
    let d1 := d.linkOffer port.val offer.toNat rttNs.toNat
    let up := if clk.upstream = some port then (d1.port port.val).partner.map (·.geid) else none
    settleUpstream { clk with upGeid := up.getD clk.upGeid } d1

/-- ROUTE_LOAD_DONE (R305). -/
def execRouteLoadDone (s : State) : Host.Outcome State Fault Refusal :=
  onDev s fun _ d => d.routeLoadDone

/-- DRAIN_COMPLETE (R311). -/
def execDrainComplete (link : PortId) (domain : BitVec 12) (s : State) : Host.Outcome State Fault Refusal :=
  onDev s fun _ d => d.drainSignal link.val domain.toNat

/-- DRAIN_TIMEOUT (R311). -/
def execDrainTimeout (link : PortId) (s : State) : Host.Outcome State Fault Refusal :=
  onDev s fun _ d => d.drainTimeout link.val

/-- ECN_ECHO_TIMEOUT (R310). -/
def execEcnEchoTimeout (src : Geid) (s : State) : Host.Outcome State Fault Refusal :=
  onDev s fun clk d => if d.echoes.contains src.toNat then d.respond clk src.toNat 0 .congestion else d

/-- ECN_RATE_STEP (R310). -/
def execEcnRateStep (s : State) : Host.Outcome State Fault Refusal :=
  onDev s fun _ d => d.rateStep

/-- BULK_TRANSFER_CLOSE (R268). -/
def execBulkTransferClose (h : HdieId) (dest : Geid) (s : State) : Host.Outcome State Fault Refusal :=
  onDev s fun clk d => (d.closeBulks clk fun b => b.hdie = h.val && b.dest = dest.toNat).goOn clk

/-- ATOMIC_RETRANSMIT (R264). -/
def execAtomicRetransmit (dest : Geid) (e2e : BitVec 16) (s : State) : Host.Outcome State Fault Refusal :=
  onDev s fun clk d => d.retransmit clk dest.toNat e2e.toNat true

/-- ATOMIC_REPLY_TIMEOUT (R265). -/
def execAtomicReplyTimeout (dest : Geid) (e2e : BitVec 16) (s : State) : Host.Outcome State Fault Refusal :=
  onDev s fun clk d => d.atomicTimeout clk dest.toNat e2e.toNat

/-- LOAD_RETRANSMIT (R267). -/
def execLoadRetransmit (dest : Geid) (e2e : BitVec 16) (s : State) : Host.Outcome State Fault Refusal :=
  onDev s fun clk d => d.retransmit clk dest.toNat e2e.toNat false

/-- REQUEST_REPLY_TIMEOUT (R267). -/
def execRequestReplyTimeout (dest : Geid) (e2e : BitVec 16) (s : State) : Host.Outcome State Fault Refusal :=
  onDev s fun clk d => d.replyTimeout clk dest.toNat e2e.toNat

/-- TRANSLATION_WALK_DONE (R254). -/
def execTranslationWalkDone (cl : ClusterId) (ctx : Fin 4096) (va : BitVec 48) (store : Bool) (s : State) : Host.Outcome State Fault Refusal :=
  onDev s fun _ d => d.walkDone cl.val ctx.val va.toNat store

/-- PAGE_BROUGHT_IN (R253). -/
def execPageBroughtIn (ctx : Fin 4096) (va : BitVec 48) (hostReadOk : Bool) (s : State) : Host.Outcome State Fault Refusal :=
  onDev s fun clk d => d.pageIn clk ctx.val va.toNat hostReadOk

/-- SCRUB (R406, R407). -/
def execScrub (ci : CisternId) (found : Option Bool) (s : State) : Host.Outcome State Fault Refusal :=
  onDev s fun clk d => d.scrub clk ci.val found

/-- REGULATOR_WINDOW (R336). -/
def execRegulatorWindow (s : State) : Host.Outcome State Fault Refusal :=
  onDev s fun _ d => d.regulatorWindow

end Sys2Proof.Machine
end

