-- ==== Sys2Proof/Machine/QueueOps.lean ====
section
/-! DEFINITION. The meanings of the rows of the submission queues and of the units they drive (spec/16_control.md R376,
R377; spec/07_tridal_scoring.md, spec/08_tridal_dispatch.md, spec/12_update_unit.md, spec/14_collectives.md,
spec/11_memory_fabric.md R263). A queue row issues its queue's next command, if that command is of its kind. -/

namespace Sys2Proof.Machine

/-- POOL_EMPTY_RETRY (R225). -/
def execPoolEmptyRetry (r : PoolRetry) (s : State) : Host.Outcome State Fault Refusal :=
  onDev s fun clk d => d.poolRetry clk r.who r.parityError

/-- PLAN (R347, R377; cache lines fetched again, R408). -/
def execPlan (q : CmdRead) (refetch : Nat) (s : State) : Host.Outcome State Fault Refusal :=
  onDev s fun clk d => d.issueRead clk q 1 fun d x => d.handPlan x refetch

/-- SELECT (R141 to R158). -/
def execSelect (q : CmdRead) (seen : SelectSeen) (s : State) : Host.Outcome State Fault Refusal :=
  onDev s fun clk d => d.issueSelect clk q seen.disagree seen.steps

/-- ROUND (R166 to R178). -/
def execRound (q : QueueSeen) (s : State) : Host.Outcome State Fault Refusal :=
  onDev s fun clk d => d.issueRound clk q.q q.steps

/-- RETURN (R180). -/
def execReturn (q : CmdRead) (s : State) : Host.Outcome State Fault Refusal :=
  onDev s fun clk d => d.issueRead clk q 4 fun d x => d.runReturn clk x

/-- COMBINE (R182). -/
def execCombine (q : CmdRead) (s : State) : Host.Outcome State Fault Refusal :=
  onDev s fun clk d => d.issueRead clk q 5 fun d x => d.runCombine x

/-- COMBINE_RECORD_START (R183, R184). -/
def execCombineRecordStart (cl : ClusterId) (seen : Option ArithStep) (s : State) : Host.Outcome State Fault Refusal :=
  onDev s fun clk d => d.combineBegin clk cl.val seen

/-- UPDATE (R272 to R282). -/
def execUpdate (q : CmdRead) (seen : List StepSeen) (s : State) : Host.Outcome State Fault Refusal :=
  onDev s fun clk d => d.issueUpdate clk q seen

/-- FACTORED_PHASE_START (R279). -/
def execFactoredPhaseStart (q : CmdRead) (seen : List StepSeen) (s : State) : Host.Outcome State Fault Refusal :=
  onDev s fun clk d => d.nextPhase clk q seen

/-- ALLSUM (R320 to R322). -/
def execAllsum (q : CmdRead) (s : State) : Host.Outcome State Fault Refusal :=
  onDev s fun clk d => d.issueRead clk q 7 fun d x => d.runAllsum clk x

/-- AOP 0x1 of ATOMIC (R263). -/
def execFetchAdd (q : CmdRead) (s : State) : Host.Outcome State Fault Refusal :=
  onDev s fun clk d => d.issueAtomic clk q 1

/-- AOP 0x2 of ATOMIC (R263). -/
def execSwap (q : CmdRead) (s : State) : Host.Outcome State Fault Refusal :=
  onDev s fun clk d => d.issueAtomic clk q 2

/-- AOP 0x3 of ATOMIC (R263). -/
def execCmpSwap (q : CmdRead) (s : State) : Host.Outcome State Fault Refusal :=
  onDev s fun clk d => d.issueAtomic clk q 3

/-- AOP 0x4 of ATOMIC (R263). -/
def execMinS (q : CmdRead) (s : State) : Host.Outcome State Fault Refusal :=
  onDev s fun clk d => d.issueAtomic clk q 4

/-- AOP 0x5 of ATOMIC (R263). -/
def execMaxS (q : CmdRead) (s : State) : Host.Outcome State Fault Refusal :=
  onDev s fun clk d => d.issueAtomic clk q 5

/-- AOP 0x6 of ATOMIC (R263). -/
def execMinU (q : CmdRead) (s : State) : Host.Outcome State Fault Refusal :=
  onDev s fun clk d => d.issueAtomic clk q 6

/-- AOP 0x7 of ATOMIC (R263). -/
def execMaxU (q : CmdRead) (s : State) : Host.Outcome State Fault Refusal :=
  onDev s fun clk d => d.issueAtomic clk q 7

/-- GROUP_CREATE (R316 to R319). -/
def execGroupCreate (q : CmdRead) (s : State) : Host.Outcome State Fault Refusal :=
  onDev s fun clk d => d.issueRead clk q 9 fun d x => d.runGroupCreate clk x

/-- GROUP_DESTROY (R318, R319). -/
def execGroupDestroy (q : QueueId) (s : State) : Host.Outcome State Fault Refusal :=
  onDev s fun clk d => d.issueCmd clk q.val 0x0A fun d x => d.runGroupDestroy x

/-- NOP (R377): it completes when its wait is satisfied. -/
def execNopCommand (q : QueueId) (s : State) : Host.Outcome State Fault Refusal :=
  onDev s fun clk d => d.issueCmd clk q.val 0x0B fun d x => d.cmdWork x.id

/-- JOB_END (R378). -/
def execJobEnd (q : QueueId) (s : State) : Host.Outcome State Fault Refusal :=
  onDev s fun clk d => d.issueCmd clk q.val 0x11 fun d x => d.cmdWork x.id

/-- COMMAND_COMPLETE (R376). -/
def execCommandComplete (q : QueueId) (index : BitVec 16) (s : State) : Host.Outcome State Fault Refusal :=
  onDev s fun clk d => if clk.stage = .work then d.completeCmd clk (q.val * 65536 + index.toNat) else d

end Sys2Proof.Machine
end

