-- ==== Sys2Proof/Machine/TestOps.lean ====
section
/-! DEFINITION. The test port (spec/20_module.md R444, R450, R451). -/

namespace Sys2Proof.Machine

/-- A command of the test port: it acts while the module has power and TRST_N is high. -/
def onTap (s : State) (f : Dev → Dev) : Host.Outcome State Fault Refusal :=
  .next (if s.dev.life != .off && s.dev.tap.trst then { s with dev := f s.dev } else s)

/-- An instruction takes the place of the one before; `out` is what it presents. -/
def Dev.tapLoad (d : Dev) (i : TapInstr) (out : List Output) : Dev :=
  { d with tap := { d.tap with instr := i }, out := d.out ++ out }

/-- The IDCODE register, least significant bit first (R450). -/
def idcodeBits : List Bool := (List.range 32).map fun i => 0x104805AB / 2 ^ i % 2 = 1

/-- The bypass register: one bit, which captures 0. -/
def Dev.tapBypass (d : Dev) : Dev := d.tapLoad .bypass [.tdo [false]]

/-- An instruction that has effect only while MODULE_RESET_N is held low; else it acts as BYPASS (R451). -/
def Dev.tapHeld (d : Dev) (i : TapInstr) (out : List Output) : Dev := if d.resetPinHigh then d.tapBypass else d.tapLoad i out

/-- IDCODE (R450). -/
def execIdcode (s : State) : Host.Outcome State Fault Refusal := onTap s fun d => d.tapLoad .idcode [.tdo idcodeBits]

/-- SAMPLE/PRELOAD (R450). -/
def execSamplePreload (pins preload : List Bool) (s : State) : Host.Outcome State Fault Refusal :=
  onTap s fun d => ({ d with tap := { d.tap with captured := pins, preload := preload } } : Dev).tapLoad .samplePreload [.tdo pins]

/-- EXTEST (R450, R451). -/
def execExtest (s : State) : Host.Outcome State Fault Refusal :=
  onTap s fun d => d.tapHeld .extest [.lands (some d.tap.preload)]

/-- EXTEST_PULSE (R450, R451). -/
def execExtestPulse (s : State) : Host.Outcome State Fault Refusal :=
  onTap s fun d => d.tapHeld .extestPulse [.lands (some d.tap.preload)]

/-- EXTEST_TRAIN (R450, R451). -/
def execExtestTrain (s : State) : Host.Outcome State Fault Refusal :=
  onTap s fun d => d.tapHeld .extestTrain [.lands (some d.tap.preload)]

/-- CLAMP (R450, R451): the lands as preloaded, through the bypass register. -/
def execClamp (s : State) : Host.Outcome State Fault Refusal :=
  onTap s fun d => d.tapHeld .clamp [.lands (some d.tap.preload), .tdo [false]]

/-- HIGHZ (R450, R451). -/
def execHighz (s : State) : Host.Outcome State Fault Refusal := onTap s fun d => d.tapHeld .highz [.lands none, .tdo [false]]

/-- BYPASS (R450). -/
def execBypass (s : State) : Host.Outcome State Fault Refusal := onTap s Dev.tapBypass

/-- TRST_N (R444): low holds the test port in reset; either way it is at IDCODE. -/
def execTrstN (level : Bool) (s : State) : Host.Outcome State Fault Refusal :=
  .next { s with dev := { s.dev with tap := { s.dev.tap with trst := level, instr := .idcode } } }

end Sys2Proof.Machine
end

