-- ==== Sys2Proof/Machine/Dispatch.lean ====
section
/-! DEFINITION. The meaning of each command, one arm per row of spec/opcode_table.json. `exec` works on everything but
the queue of waiting commands. -/

namespace Sys2Proof.Machine

def exec (i : Instr) (s : State) : Host.Outcome State Fault Refusal :=
  match i with
  | .deadline => Sys2Proof.Machine.execDeadline s
  | .skewGuardEnd => Sys2Proof.Machine.execSkewGuardEnd s
  | .verdicts => Sys2Proof.Machine.execVerdicts s
  | .unitHangCheck hung => Sys2Proof.Machine.execUnitHangCheck hung s
  | .turnoverChanges => Sys2Proof.Machine.execTurnoverChanges s
  | .refreshBurstEnd => Sys2Proof.Machine.execRefreshBurstEnd s
  | .valveCountReset => Sys2Proof.Machine.execValveCountReset s
  | .strokeStart => Sys2Proof.Machine.execStrokeStart s
  | .counterHoldRelease => Sys2Proof.Machine.execCounterHoldRelease s
  | .inStrokeRefreshSlot => Sys2Proof.Machine.execInStrokeRefreshSlot s
  | .refreshSlotEnd => Sys2Proof.Machine.execRefreshSlotEnd s
  | .timingMarker port m => Sys2Proof.Machine.execTimingMarker port m s
  | .markerSend link => Sys2Proof.Machine.execMarkerSend link s
  | .holdoverTimeout => Sys2Proof.Machine.execHoldoverTimeout s
  | .periodChange p txn data => Sys2Proof.Machine.execPeriodChange p txn data s
  | .nop c => Sys2Proof.Machine.execNop c s
  | .array c => Sys2Proof.Machine.execArray c s
  | .copy c => Sys2Proof.Machine.execCopy c s
  | .add c => Sys2Proof.Machine.execAdd c s
  | .sub c => Sys2Proof.Machine.execSub c s
  | .mul c => Sys2Proof.Machine.execMul c s
  | .fma c => Sys2Proof.Machine.execFma c s
  | .min c => Sys2Proof.Machine.execMin c s
  | .max c => Sys2Proof.Machine.execMax c s
  | .cmpLt c => Sys2Proof.Machine.execCmpLt c s
  | .scale c => Sys2Proof.Machine.execScale c s
  | .exp2 c => Sys2Proof.Machine.execExp2 c s
  | .exp c => Sys2Proof.Machine.execExp c s
  | .log2 c => Sys2Proof.Machine.execLog2 c s
  | .log c => Sys2Proof.Machine.execLog c s
  | .rcp c => Sys2Proof.Machine.execRcp c s
  | .sqrt c => Sys2Proof.Machine.execSqrt c s
  | .rsqrt c => Sys2Proof.Machine.execRsqrt c s
  | .tanh c => Sys2Proof.Machine.execTanh c s
  | .sigmoid c => Sys2Proof.Machine.execSigmoid c s
  | .rsum c => Sys2Proof.Machine.execRsum c s
  | .rmax c => Sys2Proof.Machine.execRmax c s
  | .quantMx c => Sys2Proof.Machine.execQuantMx c s
  | .quantFine c => Sys2Proof.Machine.execQuantFine c s
  | .dequantMx c => Sys2Proof.Machine.execDequantMx c s
  | .dequantFine c => Sys2Proof.Machine.execDequantFine c s
  | .gemm c => Sys2Proof.Machine.execGemm c s
  | .split c => Sys2Proof.Machine.execSplit c s
  | .accOpen c => Sys2Proof.Machine.execAccOpen c s
  | .scatter c => Sys2Proof.Machine.execScatter c s
  | .rowdot c => Sys2Proof.Machine.execRowdot c s
  | .accDrain c => Sys2Proof.Machine.execAccDrain c s
  | .merge c => Sys2Proof.Machine.execMerge c s
  | .start c ecc refetch => Sys2Proof.Machine.execStart c ecc refetch s
  | .arm c => Sys2Proof.Machine.execArm c s
  | .relay c => Sys2Proof.Machine.execRelay c s
  | .signal c parityError => Sys2Proof.Machine.execSignal c parityError s
  | .wait c parityError => Sys2Proof.Machine.execWait c parityError s
  | .waitTake c parityError => Sys2Proof.Machine.execWaitTake c parityError s
  | .bucketAlloc c parityError => Sys2Proof.Machine.execBucketAlloc c parityError s
  | .bucketAdd c => Sys2Proof.Machine.execBucketAdd c s
  | .bucketRelease c parityError => Sys2Proof.Machine.execBucketRelease c parityError s
  | .queuePush c => Sys2Proof.Machine.execQueuePush c s
  | .queuePop c => Sys2Proof.Machine.execQueuePop c s
  | .compute c => Sys2Proof.Machine.execCompute c s
  | .transfer c => Sys2Proof.Machine.execTransfer c s
  | .phaseSwitchDone c => Sys2Proof.Machine.execPhaseSwitchDone c s
  | .endItem c => Sys2Proof.Machine.execEndItem c s
  | .endPlan c => Sys2Proof.Machine.execEndPlan c s
  | .engineOpFinished c slot check => Sys2Proof.Machine.execEngineOpFinished c slot check s
  | .itemTake c => Sys2Proof.Machine.execItemTake c s
  | .streamComplete c ch seen => Sys2Proof.Machine.execStreamComplete c ch seen s
  | .poolEmptyRetry r => Sys2Proof.Machine.execPoolEmptyRetry r s
  | .plan q refetch => Sys2Proof.Machine.execPlan q refetch s
  | .select q seen => Sys2Proof.Machine.execSelect q seen s
  | .round q => Sys2Proof.Machine.execRound q s
  | .return_ q => Sys2Proof.Machine.execReturn q s
  | .combine q => Sys2Proof.Machine.execCombine q s
  | .combineRecordStart cl seen => Sys2Proof.Machine.execCombineRecordStart cl seen s
  | .update q seen => Sys2Proof.Machine.execUpdate q seen s
  | .factoredPhaseStart q seen => Sys2Proof.Machine.execFactoredPhaseStart q seen s
  | .allsum q => Sys2Proof.Machine.execAllsum q s
  | .fetchAdd q => Sys2Proof.Machine.execFetchAdd q s
  | .swap q => Sys2Proof.Machine.execSwap q s
  | .cmpSwap q => Sys2Proof.Machine.execCmpSwap q s
  | .minS q => Sys2Proof.Machine.execMinS q s
  | .maxS q => Sys2Proof.Machine.execMaxS q s
  | .minU q => Sys2Proof.Machine.execMinU q s
  | .maxU q => Sys2Proof.Machine.execMaxU q s
  | .groupCreate q => Sys2Proof.Machine.execGroupCreate q s
  | .groupDestroy q => Sys2Proof.Machine.execGroupDestroy q s
  | .nopCommand q => Sys2Proof.Machine.execNopCommand q s
  | .jobStart q => Sys2Proof.Machine.execJobStart q s
  | .jobEnd q => Sys2Proof.Machine.execJobEnd q s
  | .commandComplete q index => Sys2Proof.Machine.execCommandComplete q index s
  | .demand m disagree => Sys2Proof.Machine.execDemand m disagree s
  | .demandEnd m disagree => Sys2Proof.Machine.execDemandEnd m disagree s
  | .grant m => Sys2Proof.Machine.execGrant m s
  | .grantEnd m => Sys2Proof.Machine.execGrantEnd m s
  | .rows m => Sys2Proof.Machine.execRows m s
  | .returnRows m => Sys2Proof.Machine.execReturnRows m s
  | .up m seen => Sys2Proof.Machine.execUp m seen s
  | .down m => Sys2Proof.Machine.execDown m s
  | .poisonNotice m => Sys2Proof.Machine.execPoisonNotice m s
  | .confirm m => Sys2Proof.Machine.execConfirm m s
  | .verdict m => Sys2Proof.Machine.execVerdict m s
  | .memReq m => Sys2Proof.Machine.execMemReq m s
  | .memResp m => Sys2Proof.Machine.execMemResp m s
  | .bulk b => Sys2Proof.Machine.execBulk b s
  | .bulkAck src seq denied ecnEcho => Sys2Proof.Machine.execBulkAck src seq denied ecnEcho s
  | .congestion src => Sys2Proof.Machine.execCongestion src s
  | .packetForward ingress pk => Sys2Proof.Machine.execPacketForward ingress pk s
  | .frame port f => Sys2Proof.Machine.execFrame port f s
  | .linkOffer port offer rttNs => Sys2Proof.Machine.execLinkOffer port offer rttNs s
  | .portDown port => Sys2Proof.Machine.execPortDown port s
  | .routeLoad p txn data => Sys2Proof.Machine.execRouteLoad p txn data s
  | .routeLoadDone => Sys2Proof.Machine.execRouteLoadDone s
  | .epochChange p txn data => Sys2Proof.Machine.execEpochChange p txn data s
  | .domainDrain p txn data => Sys2Proof.Machine.execDomainDrain p txn data s
  | .drainComplete link domain => Sys2Proof.Machine.execDrainComplete link domain s
  | .drainTimeout link => Sys2Proof.Machine.execDrainTimeout link s
  | .portRetrain p txn data => Sys2Proof.Machine.execPortRetrain p txn data s
  | .ecnEchoTimeout src => Sys2Proof.Machine.execEcnEchoTimeout src s
  | .ecnRateStep => Sys2Proof.Machine.execEcnRateStep s
  | .bulkTransferClose h dest => Sys2Proof.Machine.execBulkTransferClose h dest s
  | .atomicRetransmit dest e2e => Sys2Proof.Machine.execAtomicRetransmit dest e2e s
  | .atomicReplyTimeout dest e2e => Sys2Proof.Machine.execAtomicReplyTimeout dest e2e s
  | .loadRetransmit dest e2e => Sys2Proof.Machine.execLoadRetransmit dest e2e s
  | .requestReplyTimeout dest e2e => Sys2Proof.Machine.execRequestReplyTimeout dest e2e s
  | .translationWalkDone cl ctx va store => Sys2Proof.Machine.execTranslationWalkDone cl ctx va store s
  | .pageBroughtIn ctx va hostReadOk => Sys2Proof.Machine.execPageBroughtIn ctx va hostReadOk s
  | .scrub ci found => Sys2Proof.Machine.execScrub ci found s
  | .regulatorWindow => Sys2Proof.Machine.execRegulatorWindow s
  | .define p txn ctx => Sys2Proof.Machine.execDefine p txn ctx s
  | .remove p txn ctx => Sys2Proof.Machine.execRemove p txn ctx s
  | .abort p txn ctx => Sys2Proof.Machine.execAbort p txn ctx s
  | .abortComplete ctx => Sys2Proof.Machine.execAbortComplete ctx s
  | .resume p txn ctx => Sys2Proof.Machine.execResume p txn ctx s
  | .switchOverComplete cl => Sys2Proof.Machine.execSwitchOverComplete cl s
  | .read p h => Sys2Proof.Machine.execRead p h s
  | .write p h data => Sys2Proof.Machine.execWrite p h data s
  | .describe p h => Sys2Proof.Machine.execDescribe p h s
  | .memRead p h ecc => Sys2Proof.Machine.execMemRead p h ecc s
  | .memWrite p h data => Sys2Proof.Machine.execMemWrite p h data s
  | .mgmtResponse src h data => Sys2Proof.Machine.execMgmtResponse src h data s
  | .mbxRemoteResend f => Sys2Proof.Machine.execMbxRemoteResend f s
  | .sqTail f q v => Sys2Proof.Machine.execSqTail f q v s
  | .cqHead f q v => Sys2Proof.Machine.execCqHead f q v s
  | .seqDropsClear p txn data => Sys2Proof.Machine.execSeqDropsClear p txn data s
  | .logClear domain p txn data => Sys2Proof.Machine.execLogClear domain p txn data s
  | .lsClear p txn data => Sys2Proof.Machine.execLsClear p txn data s
  | .lockstepSignatures port payload => Sys2Proof.Machine.execLockstepSignatures port payload s
  | .hostBar2Read f off bytes ecc => Sys2Proof.Machine.execHostBar2Read f off bytes ecc s
  | .hostBar2Write f off data => Sys2Proof.Machine.execHostBar2Write f off data s
  | .functionLevelReset f => Sys2Proof.Machine.execFunctionLevelReset f s
  | .hotReset => Sys2Proof.Machine.execHotReset s
  | .pcieLinkLoss => Sys2Proof.Machine.execPcieLinkLoss s
  | .perstN level => Sys2Proof.Machine.execPerstN level s
  | .powerOn volts => Sys2Proof.Machine.execPowerOn volts s
  | .moduleResetN level => Sys2Proof.Machine.execModuleResetN level s
  | .deviceReset p txn data => Sys2Proof.Machine.execDeviceReset p txn data s
  | .fullReset => Sys2Proof.Machine.execFullReset s
  | .resetRelease straps => Sys2Proof.Machine.execResetRelease straps s
  | .bootRom readErrorA readErrorB => Sys2Proof.Machine.execBootRom readErrorA readErrorB s
  | .primingComplete fn ok => Sys2Proof.Machine.execPrimingComplete fn ok s
  | .flashRead p txn data => Sys2Proof.Machine.execFlashRead p txn data s
  | .flashProgram p txn data => Sys2Proof.Machine.execFlashProgram p txn data s
  | .flashErase p txn data => Sys2Proof.Machine.execFlashErase p txn data s
  | .flashOpDone ok => Sys2Proof.Machine.execFlashOpDone ok s
  | .svnAdvance p txn data => Sys2Proof.Machine.execSvnAdvance p txn data s
  | .keyRevoke p txn data => Sys2Proof.Machine.execKeyRevoke p txn data s
  | .bootPreference p txn data => Sys2Proof.Machine.execBootPreference p txn data s
  | .attestNonce p txn data => Sys2Proof.Machine.execAttestNonce p txn data s
  | .attestReportReady => Sys2Proof.Machine.execAttestReportReady s
  | .heartbeatTimeout cp => Sys2Proof.Machine.execHeartbeatTimeout cp s
  | .powerControlTick m => Sys2Proof.Machine.execPowerControlTick m s
  | .supplyWarningExit => Sys2Proof.Machine.execSupplyWarningExit s
  | .undervoltageLockout => Sys2Proof.Machine.execUndervoltageLockout s
  | .overvoltageLockout => Sys2Proof.Machine.execOvervoltageLockout s
  | .thermalSample t => Sys2Proof.Machine.execThermalSample t s
  | .thermalLimitStep => Sys2Proof.Machine.execThermalLimitStep s
  | .coolantSample inlet outlet flow => Sys2Proof.Machine.execCoolantSample inlet outlet flow s
  | .idcode => Sys2Proof.Machine.execIdcode s
  | .samplePreload pins preload => Sys2Proof.Machine.execSamplePreload pins preload s
  | .extest => Sys2Proof.Machine.execExtest s
  | .extestPulse => Sys2Proof.Machine.execExtestPulse s
  | .extestTrain => Sys2Proof.Machine.execExtestTrain s
  | .clamp => Sys2Proof.Machine.execClamp s
  | .highz => Sys2Proof.Machine.execHighz s
  | .bypass => Sys2Proof.Machine.execBypass s
  | .mbxDoorbell f v => Sys2Proof.Machine.execMbxDoorbell f v s
  | .portSignalReturn port => Sys2Proof.Machine.execPortSignalReturn port s
  | .bridgeFlitReplay bridge failedReplays => Sys2Proof.Machine.execBridgeFlitReplay bridge failedReplays s
  | .unitResetDone u cleared => Sys2Proof.Machine.execUnitResetDone u cleared s
  | .trstN level => Sys2Proof.Machine.execTrstN level s

end Sys2Proof.Machine
end

