-- ==== Sys2Proof/Safety.lean ====
section
/-! DEFINITION. What counts as safe: the invariant of the stroke counter and its turnover (spec/02_stroke.md R21, R22, R24,
R35, R460), and the canonical form of memory; and the situations that the statements name: a module in service, a core at an
instruction, a queue at a command, an engine operation on the scoreboard, a dictionary request that may be performed. -/

namespace Sys2Proof.Machine

/-! ### Invariants -/

/-- The stroke counter's invariant: the phase never passes the event that is due; while the counter is held it stands at
phase 0 with its turnover done; a stroke's work window ends 1,500 ns before its period does; no stroke has slewed by more
than 20 ns. -/
def Clock.Inv (c : Clock) : Prop :=
  c.phase ≤ c.nextEvent ∧ (c.held = true → c.stage = .valvesReset ∧ c.phase = 0) ∧
    (c.stage = .work ∨ c.held = true → c.turnStart = c.period - 1500) ∧ c.slewed ≤ 20

/-- The invariant of the whole state that every command keeps. -/
def State.Inv (s : State) : Prop := s.clk.Inv

/-- Memory is in canonical form. -/
def State.MemWf (s : State) : Prop := s.dev.mem.wf = true

/-! ### Situations -/

/-- The module is in service (R382). -/
def State.On (s : State) : Prop := s.dev.life = .on

/-- The module is in service and its stroke is in its work window (R22). -/
structure State.Working (s : State) : Prop where
  on : s.dev.life = .on
  work : s.clk.stage = .work

/-- The counter runs and the turnover has had the event before `st` (R35). -/
structure State.TurnAt (s : State) (st : Stage) : Prop where
  on : s.dev.life = .on
  runs : s.clk.running = true
  stage : s.clk.stage = st

/-- Core `c` runs plan `r`, whose next instruction is `i`, and `i` may issue: the context runs, no phase switch and no
remote signal is in progress, the instruction keeps R94 and its operation code is not reserved, and an engine or stream
instruction finds the cluster's wells its context's (R93 to R98, R347). -/
structure State.SeqAt (s : State) (c : Nat) (r : PlanRun) (i : SeqInstr) : Prop where
  on : s.dev.life = .on
  work : s.clk.stage = .work
  run : (s.dev.core c).run = some r
  steady : (s.dev.core c).switchTo = none
  asked : (s.dev.core c).signalAsked = none
  may : s.dev.mayRun r.ctx = true
  next : s.dev.seqNext c r = .got i
  ok : i.ok = true
  owned : 1 ≤ i.op → i.op ≤ 4 → (s.dev.cluster (c / 8)).holder = some r.ctx
  known : opReserved i = none

/-- Core `c` is at a VALVE instruction whose body `b` keeps R236. -/
structure State.ValveAt (s : State) (c : Nat) (r : PlanRun) (i : SeqInstr) (b : ValveBody) : Prop where
  at_ : s.SeqAt c r i
  op : i.op = 5
  body : ValveBody.ofBody i.body = b
  good : b.ok = true

/-- Queue `q`'s next command is `x`, of operation `op`, and it is eligible (R376). -/
structure State.CmdAt (s : State) (q op : Nat) (x : QCmd) : Prop where
  on : s.dev.life = .on
  work : s.clk.stage = .work
  next : s.dev.nextCmd q = some x
  may : s.dev.mayRun x.ctx = true
  gate : s.dev.gate x = .run
  op : envOp x.env = op

/-- The command `x` of a queue has been issued: what it waits for is taken (R230), and it counts as issued. -/
def Dev.issuedCmd (d : Dev) (x : QCmd) : Dev := (d.takeWait x).cmdIssue x.id

/-- The same, with what its reads find (R406, R412). -/
def Dev.readCmd (d : Dev) (c : Clock) (x : QCmd) (r : CmdRead) : Dev := (d.issuedCmd x).seenBy c x r

/-- A plan behind the instruction `i` that has issued (R95, R101). -/
def PlanRun.after (r : PlanRun) (i : SeqInstr) : PlanRun :=
  { r.moveTo (r.pc + 1) with itemOpen := if i.op = 7 then false else r.itemOpen || i.itemStart }

/-- Core `c` goes on with plan `r`: its run is `r`, its instruction waits for nothing, and what was fetched for the instruction
behind it is dropped. -/
def Dev.goesOn (d : Dev) (c : Nat) (r : PlanRun) : Dev :=
  let d1 := d.updCore c fun co => { co with run := some r, valveWait := none, queueWaits := false }
  { d1 with fetched := d1.fetched.filter fun x => x.cmd != seqKey c }

/-- The plan's instruction has been fetched through the core's caches (R93, R108). -/
def Dev.afterFetch (d : Dev) (c : Nat) (r : PlanRun) : Dev := d.loaded (whoSeq c r) ((r.va + 40 * r.pc) % 2 ^ 48) 40

/-- Core `c`'s plan goes on behind the instruction `i` that has issued; a taken item that ends there is complete (R347). -/
def Dev.passed (d : Dev) (c : Nat) (r : PlanRun) (i : SeqInstr) : Dev :=
  ((d.afterFetch c r).goesOn c (r.after i)).settle c

/-- An engine operation takes a scoreboard entry (R97), and the plan goes on; `keep` is what the engine keeps on the core. -/
def Dev.onBoard (d : Dev) (c : Nat) (r : PlanRun) (i : SeqInstr) (e : BoardEntry) (keep : Core → Core) : Dev :=
  ((d.tickFree.updCore c fun co => { keep co with board := co.board ++ [e] }).afterFetch c r).goesOn c (r.after i)

/-- The operation of scoreboard entry `e0` has left core `c` (R97) with the outcome of `e`: its writes are in the well, poisoned
where a check of the operation failed (`bad`: R68, R412), its rectangle has drained, and an error, or a line lost while it
read (`lost`: R104), poisons what it works on. -/
def Dev.opDone (d : Dev) (c : Nat) (e0 e : BoardEntry) (bad lost : Bool) : Dev :=
  ({ d with mem := e.out.writes.foldl (fun m w => m.write (wellBase c + w.addr) w.data (w.poison || bad)) d.mem } : Dev).updCore c fun co =>
    let co1 := { co with board := co.board.filter (· != e0), rects := rectDrained co.rects e.out }
    if bad || lost then co1.errorSpreads e else co1

/-- The entry `e` of core `c` as it finishes, when its reading found `ecc` (R104). -/
def Dev.outcome (d : Dev) (clk : Clock) (c : Nat) (e : BoardEntry) (ecc : List EccFinding) : BoardEntry :=
  (d.eccAll clk (some e.ctx) ecc).outAfter c e (!(e.linesLost c ecc).isEmpty)

/-- The VECTOR rows with their operation codes (R106). -/
def vectorRows : List ((CoreId → Instr) × Nat) :=
  [(.copy, 0x00), (.add, 0x01), (.sub, 0x02), (.mul, 0x03), (.fma, 0x04), (.min, 0x05), (.max, 0x06), (.cmpLt, 0x07), (.scale, 0x08),
   (.exp2, 0x10), (.exp, 0x11), (.log2, 0x12), (.log, 0x13), (.rcp, 0x14), (.sqrt, 0x15), (.rsqrt, 0x16), (.tanh, 0x17),
   (.sigmoid, 0x18), (.rsum, 0x20), (.rmax, 0x21), (.quantMx, 0x28), (.quantFine, 0x29), (.dequantMx, 0x2A), (.dequantFine, 0x2B)]

/-- The SPARSE rows with their operation codes (R117). -/
def sparseRows : List ((CoreId → Instr) × Nat) :=
  [(.gemm, 0x01), (.split, 0x08), (.accOpen, 0x10), (.scatter, 0x11), (.rowdot, 0x12), (.accDrain, 0x13), (.merge, 0x14)]

/-- The ATOMIC rows with their operation codes (R263). -/
def atomicRows : List ((CmdRead → Instr) × Nat) :=
  [(.fetchAdd, 1), (.swap, 2), (.cmpSwap, 3), (.minS, 4), (.maxS, 5), (.minU, 6), (.maxU, 7)]

/-- Plan `r` of core `c` is complete (R95): the core goes on to its next eligible plan, and the plan's command has done its
work. -/
def Dev.planOver (d : Dev) (c : Nat) (r : PlanRun) : Dev :=
  let d0 := d.afterFetch c r
  let d1 := d0.setCore c { (d0.core c).nextPlan r with valveWait := none, queueWaits := false }
  ({ d1 with fetched := d1.fetched.filter fun x => x.cmd != seqKey c } : Dev).cmdWork r.cmd

/-- An engine operation with outcome `out` can take a scoreboard entry at once: the core is in its COMPUTE phase, there is
room, and nothing it meets is unfinished (R97, R98). -/
structure Core.RoomFor (co : Core) (e : EngineKind) (out : EngOut) (slot : Nat) : Prop where
  phase : co.compute = true
  room : co.boardRoom e = some slot
  free : co.hazard out.rd out.wr = false

/-- A tagged packet is taken now: the work window of a counter that is not held, or the skew guard (R34). -/
def Clock.open (c : Clock) : Bool := (c.stage = .work && !c.held) || c.stage = .deadline

/-- `n` steps of a unit, none of which meets a bar, lead from one device to another. -/
inductive Steps (step : Dev → Option (Who × Except Bar Dev)) : Nat → Dev → Dev → Prop where
  | rest (d : Dev) : Steps step 0 d d
  | more {n : Nat} {w : Who} {d e f : Dev} : step d = some (w, .ok e) → Steps step n e f → Steps step (n + 1) d f

/-- The cistern update units take every step they have, one unit after another, none of which meets a bar (R272, R285). -/
def UnitsRun (c : Clock) (d e : Dev) : Prop :=
  ∃ f : Nat → Dev, f 0 = d ∧ f 32 = e ∧ ∀ u, u < 32 → ∃ n, n ≤ 4194304 ∧ Steps (fun d => d.updStep c u) n (f u) (f (u + 1)) ∧
    (f (u + 1)).updStep c u = none

/-- The dictionary request a row makes: its path, its header, its data, and what the symbol code finds while it is
performed (R358, R361). -/
def requestOf : Instr → Option (Path × Nat × List Byte × List EccFinding)
  | .read p h => some (p, h.toNat, [], [])
  | .write p h data => some (p, h.toNat, data, [])
  | .describe p h => some (p, h.toNat, [], [])
  | .memRead p h ecc => some (p, h.toNat, [], ecc)
  | .memWrite p h data => some (p, h.toNat, data, [])
  | .periodChange p txn data => some (p, rqHeader 2 txn.toNat 0x2000 2 0 data.length, data, [])
  | .routeLoad p txn data => some (p, rqHeader 2 txn.toNat 0x4010 2 0 data.length, data, [])
  | .epochChange p txn data => some (p, rqHeader 2 txn.toNat 0x4010 4 0 data.length, data, [])
  | .domainDrain p txn data => some (p, rqHeader 2 txn.toNat 0x4000 5 0 data.length, data, [])
  | .portRetrain p txn data => some (p, rqHeader 2 txn.toNat 0x4030 2 0 data.length, data, [])
  | .define p txn ctx => some (p, rqHeader 2 txn.toNat 0x3000 2 0 4, ctxBytes ctx 1, [])
  | .remove p txn ctx => some (p, rqHeader 2 txn.toNat 0x3000 2 0 4, ctxBytes ctx 2, [])
  | .abort p txn ctx => some (p, rqHeader 2 txn.toNat 0x3000 2 0 4, ctxBytes ctx 3, [])
  | .resume p txn ctx => some (p, rqHeader 2 txn.toNat 0x3000 2 0 4, ctxBytes ctx 4, [])
  | .seqDropsClear p txn data => some (p, rqHeader 2 txn.toNat 0x8060 0x0C 0 data.length, data, [])
  | .logClear dom p txn data => some (p, rqHeader 2 txn.toNat (0x7010 + dom.val) 4 0 data.length, data, [])
  | .lsClear p txn data => some (p, rqHeader 2 txn.toNat 0x7100 0x0B 0 data.length, data, [])
  | .deviceReset p txn data => some (p, rqHeader 2 txn.toNat 0x2040 1 0 data.length, data, [])
  | .flashRead p txn data => some (p, rqHeader 2 txn.toNat 0x9010 3 0 data.length, data, [])
  | .flashProgram p txn data => some (p, rqHeader 2 txn.toNat 0x9010 3 0 data.length, data, [])
  | .flashErase p txn data => some (p, rqHeader 2 txn.toNat 0x9010 3 0 data.length, data, [])
  | .svnAdvance p txn data => some (p, rqHeader 2 txn.toNat 0x9000 3 0 data.length, data, [])
  | .keyRevoke p txn data => some (p, rqHeader 2 txn.toNat 0x9000 5 0 data.length, data, [])
  | .bootPreference p txn data => some (p, rqHeader 2 txn.toNat 0x9000 6 0 data.length, data, [])
  | .attestNonce p txn data => some (p, rqHeader 2 txn.toNat 0x9030 1 0 data.length, data, [])
  | _ => none

/-- The device as it performs a request with header `h` on path `p`: counted, and, through a mailbox, in its registers
(R363, R381). -/
def Dev.received (d : Dev) (p : Path) (h : Nat) (data : List Byte) : Dev :=
  (match pathFn p with
    | some f => d.setReg f { d.reg f with reqHdr := h, reqData := hostPut (d.reg f).reqData 0 (data.take 4096), state := 1 }
    | none => d).bump 0x80E0 1 (pathCount p) 1

/-- The data of a request as the control processors find them: through a mailbox, in its registers (R363). -/
def Dev.heard (d : Dev) (p : Path) (h : Nat) (data : List Byte) : List Byte :=
  match pathFn p with
  | some f => (List.range (rqLength h)).map fun i => SMap.get (fun _ => 0#8) (hostPut (d.reg f).reqData 0 (data.take 4096)) i
  | none => data

/-- A request with header `h` on path `p` that this device performs: the module is in service and not in recovery, the
dictionary is primed, a mailbox is free and the host reaches it, a frame is for this module, no earlier request waits and no
refresh slot holds this one, the header breaks no rule and is not for another device, no response to the same request is
kept, and the path has the right (R30, R355 to R367). -/
structure State.Req (s : State) (p : Path) (h : Nat) (data : List Byte) : Prop where
  on : s.dev.life = .on
  normal : s.dev.boot.recovery = false
  primed : s.dev.primeOf 0 = 1
  mailbox : ∀ f, pathFn p = some f → s.dev.hostUp = true ∧ (s.dev.reg f).state ≠ 1
  frame : s.dev.takesFrame p = true
  turn : s.dev.reqQueue = []
  served : s.dev.slotOn = false ∨ (rqOp h ≠ 4 ∧ rqOp h ≠ 5)
  header : headerBar p h = none
  here : rqRemote h = false
  first : ∀ k ∈ s.dev.kept, ¬(k.src = pathSource p ∧ k.request = h)
  may : (s.dev.received p h data).mayRequest ((s.dev.received p h data).pathRight p) (rqOp h) (rqIndex h) (rqSub h)
    (rqOffset h) (rqLength h) (s.dev.heard p h data) = true

/-- The device after it has performed a request: the response is kept where the path keeps responses, and leaves. -/
def Reply.answered (r : Reply) (p : Path) (h : Nat) : Dev :=
  let hdr := rspHeader h r.dev.geid (statusCode r.result) r.data.length
  (if keeps p then r.dev.keep ⟨pathSource p, h, hdr, r.data⟩ else r.dev).deliver r.clk p hdr r.data

/-- The commands that act on a module without power: its supply, and the lands that the board holds. -/
def actsWithoutPower : Instr → Bool
  | .powerOn _ | .perstN _ | .moduleResetN _ | .trstN _ => true
  | _ => false

/-- The turnover events with the stage each follows (R35). -/
def turnoverEvents (hung : List UnitName) : List (Instr × Stage) :=
  [(.deadline, .work), (.skewGuardEnd, .deadline), (.verdicts, .closed), (.unitHangCheck hung, .judged),
   (.turnoverChanges, .hangChecked), (.refreshBurstEnd, .changed), (.valveCountReset, .burstEnded), (.strokeStart, .valvesReset)]

/-- The commands that can move the stroke counter, its phase, its turnover or its synchronisation. -/
def movesClock : Instr → Bool
  | .deadline | .skewGuardEnd | .verdicts | .unitHangCheck _ | .turnoverChanges | .refreshBurstEnd | .valveCountReset | .strokeStart
  | .counterHoldRelease | .inStrokeRefreshSlot | .refreshSlotEnd | .timingMarker _ _ | .holdoverTimeout | .frame _ _
  | .linkOffer _ _ _ | .portDown _ | .mbxDoorbell _ _ | .hostBar2Write _ _ _ | .primingComplete _ _ | .moduleResetN _ | .fullReset
  | .resetRelease _ | .undervoltageLockout | .overvoltageLockout | .thermalSample _ => true
  | c => (requestOf c).isSome

/-- What a reset of the functions in `fs` leaves (R373): their register blocks are as after reset, their queues are disabled,
their clients' contexts go at the next turnover at the latest, and nothing else of the device is reset. -/
structure FunctionsReset (c : Clock) (fs : List Nat) (d e : Dev) : Prop where
  regs : ∀ g, e.reg g = if g ∈ fs then {} else d.reg g
  sq : ∀ q, q < 1024 → e.sqSize q = if d.sqFunction q ∈ fs then 0 else d.sqSize q
  cq : ∀ q, q < 1024 → e.cqSize q = if d.cqFunction q ∈ fs then 0 else d.cqSize q
  tail : ∀ q, q < 1024 → d.sqSize q ≠ 0 → (e.sq q).tail = if d.sqFunction q ∈ fs then 0 else (d.sq q).tail
  head : ∀ q, q < 1024 → d.cqSize q ≠ 0 → (e.cq q).head = if d.cqFunction q ∈ fs then 0 else (d.cq q).head
  gone : ∀ k ∈ d.ctxIds, (d.ctx k).client ∈ fs → ∃ n, (e.ctx k).removeAt = some n ∧ n ≤ nextTurnover c
  others : ∀ k, (d.ctx k).client ∉ fs → e.ctx k = d.ctx k
  mem : e.mem = d.mem
  cores : e.cores = d.cores
  valves : e.valves = d.valves

/-- The slot that the ROM tries first (R389, R391). -/
def Dev.preferred (d : Dev) : Nat := if d.flashByte 0x2000000 = 1#8 then 1 else 0

/-- The rows of tagged packets (R34). -/
def taggedRow : Instr → Bool
  | .demand _ _ | .demandEnd _ _ | .grant _ | .grantEnd _ | .rows _ | .returnRows _ | .up _ _ | .down _ | .poisonNotice _ | .confirm _
  | .verdict _ | .memReq _ | .memResp _ | .bulk _ | .bulkAck _ _ _ _ => true
  | _ => false

/-- What a test-port instruction does where it takes effect: what it makes the port present (R450). -/
def tapRows : List (Instr × TapInstr × (TestPort → List Output)) :=
  [(.extest, .extest, fun t => [.lands (some t.preload)]), (.extestPulse, .extestPulse, fun t => [.lands (some t.preload)]),
   (.extestTrain, .extestTrain, fun t => [.lands (some t.preload)]), (.clamp, .clamp, fun t => [.lands (some t.preload), .tdo [false]]),
   (.highz, .highz, fun _ => [.lands none, .tdo [false]])]

/-- Queue `q`'s head is a JOB_START `x`, alone in its batch, that the turnover in progress may examine (R378). -/
structure State.JobAt (s : State) (q : QueueId) (x : QCmd) : Prop where
  on : s.dev.life = .on
  runs : s.clk.running = true
  stage : s.clk.stage.formed = true
  next : s.dev.nextBatch q.val (s.clk.stroke + 1) = [x]
  alone : x.examined = true
  quiet : (s.dev.sq q.val).batch = 0
  there : (s.dev.ctx x.ctx).gone = false

end Sys2Proof.Machine
end

