-- ==== Sys2Proof/Certificates/Slice0/Obligations.lean ====
section
/-! DEFINITION. The statements for the provers. Each docstring names the rules of spec/ that the statement formalises or
rests on, and the log entry of a choice of the model where it rests on one. -/

open Sys2Proof Sys2Proof.Machine

/-- O1, tier 1, derived. A step runs the front command; with none waiting the counter ticks, not past the next event or the
edge of a refresh slot (the model's choice, log 24). From spec/00_scope.md; spec/02_stroke.md (R22, R30, R35). -/
def Obligations.StepRunsTheFrontCommand : Prop :=
  (∀ (s : State) (c : Instr) (rest : List Instr), s.pending = c :: rest → step s = exec c { s with pending := rest }) ∧
  (∀ s : State, s.pending = [] →
     step s = .next { s with clk := { s.clk with phase :=
       if s.dev.life = .on ∧ s.clk.running = true ∧ s.clk.phase + 1 < s.clk.nextEvent ∧ s.clk.phase < s.clk.slotStop s.dev.slotOn
       then s.clk.phase + 1 else s.clk.phase } })

/-- O2, tier 1, derived. Every command answers a next state and leaves the queue of waiting commands alone. From
spec/00_scope.md; spec/16_control.md. -/
def Obligations.EveryCommandCompletes : Prop :=
  ∀ (c : Instr) (s : State), ∃ t, exec c s = .next t ∧ t.pending = s.pending

/-- O3, tier 1, derived. A module without power changes on no command but its supply and the lands that its board
holds. From spec/17_priming_security.md (R382); spec/19_power_cooling.md (R425). Model's choices in it: log 8. -/
def Obligations.OffModuleDoesNothing : Prop :=
  ∀ (c : Instr) (s : State), s.dev.life = .off → actsWithoutPower c = false → exec c s = .next s

/-- O4, tier 1, derived. What reset leaves: counter at 0, period 1,000,000 ns, nothing primed, no contexts, valves at
0, clean memory. From spec/02_stroke.md (R22, R43); spec/17_priming_security.md (R382, R383); spec/15_contexts.md
(R339). Model's choices in it: log 1, 8, 85. -/
def Obligations.ResetLeavesNothingPrimed : Prop :=
  let s := State.reset
  s.pending = [] ∧ s.clk.stroke = 0 ∧ s.clk.phase = 0 ∧ s.clk.period = 1000000 ∧ s.clk.turnStart = 998500 ∧ s.clk.stage = .work ∧
    s.clk.sync = .priming ∧ s.clk.running = false ∧ s.dev.isRoot = true ∧ s.clk.extended = false ∧
    (∀ k, s.dev.primeOf k = 0) ∧ (∀ a, s.dev.mem.byte a = 0#8 ∧ s.dev.mem.poisoned a = false) ∧
    (∀ k, (s.dev.ctx k).state = .undefined) ∧ (∀ v, s.dev.valve v = 0) ∧ (∀ c, (s.dev.core c).run = none) ∧
    (∀ dom, s.dev.logHeld dom = 0) ∧ s.dev.power.thermal = 4600 ∧ s.dev.val = []

/-- O5, tier 1, derived. The state after reset meets the stroke counter's invariant and its memory is in canonical form.
From spec/02_stroke.md (R21, R22, R35); spec/11_memory_fabric.md (R240). -/
def Obligations.ClockInvariantAtReset : Prop :=
  State.reset.Inv ∧ State.reset.MemWf

/-- O6, tier 3, derived. Every step keeps the stroke counter's invariant. From spec/02_stroke.md (R21, R22, R24, R35,
R460). -/
def Obligations.ClockInvariantKept : Prop :=
  ∀ s t : State, s.Inv → step s = .next t → t.Inv

/-- O7, tier 2, derived. Only the commands named as moving the clock can change the stroke counter. From
spec/02_stroke.md (R22, R26, R35, R460). Model's choices in it: log 24. -/
def Obligations.OtherCommandsLeaveTheClock : Prop :=
  ∀ (c : Instr) (s : State), movesClock c = false → ∃ t, exec c s = .next t ∧ t.clk = s.clk

/-- O8, tier 2, derived. The events of a turnover follow one another at the times of R35, and do nothing out of their
order. From spec/02_stroke.md (R22, R30, R32, R35). Model's choices in it: log 24. -/
def Obligations.TurnoverEventsFollowInOrder : Prop :=
  (∀ s : State,
     (s.TurnAt .work → ∃ t, exec .deadline s = .next t ∧ t.clk.phase = s.clk.turnStart ∧ t.clk.stage = .deadline ∧
       t.clk.stroke = s.clk.stroke ∧ t.clk.turnStart = s.clk.turnStart ∧
       (s.dev.slotOn = false → t.clk = { s.clk with phase := s.clk.turnStart, stage := .deadline })) ∧
     (s.TurnAt .deadline → ∃ t, exec .skewGuardEnd s = .next t ∧
       t.clk = { s.clk with phase := s.clk.turnStart + 200, stage := .closed }) ∧
     (s.TurnAt .closed → ∃ t, exec .verdicts s = .next t ∧
       t.clk = { s.clk with phase := s.clk.turnStart + 200, stage := .judged }) ∧
     (s.TurnAt .judged → ∀ hung, ∃ t, exec (.unitHangCheck hung) s = .next t ∧
       t.clk = { s.clk with phase := s.clk.turnStart + 700, stage := .hangChecked }) ∧
     (s.TurnAt .hangChecked → ∃ t, exec .turnoverChanges s = .next t ∧ t.clk.phase = s.clk.turnStart + 700 ∧
       t.clk.stage = .changed ∧ t.clk.stroke = s.clk.stroke ∧ t.clk.turnStart = s.clk.turnStart) ∧
     (s.TurnAt .changed → exec .refreshBurstEnd s =
       .next { s with clk := { s.clk with phase := s.clk.turnStart + 1200, stage := .burstEnded }, dev := s.dev.burstEnd }) ∧
     (s.TurnAt .burstEnded → exec .valveCountReset s =
       .next { s with clk := { s.clk with phase := s.clk.turnStart + 1400, stage := .valvesReset }
                      dev := { s.dev with valves := [] } }) ∧
     (s.TurnAt .valvesReset → (∀ n ∈ s.clk.stepDue, s.clk.stroke < n) → ∃ t, exec .strokeStart s = .next t ∧
       t.clk = { s.clk with stroke := s.clk.stroke + 1, phase := 0, stage := .work, turnStart := s.clk.period - 1500
                            slewed := 0, slotsDone := 0 })) ∧
  (∀ (s : State) (hung : List UnitName), ∀ x ∈ turnoverEvents hung, (s.clk.running = false ∨ s.clk.stage ≠ x.2) → exec x.1 s = .next s)

/-- O9, tier 2, derived. The deadline ends what is under way and begins the refresh burst, whose end writes the stores that
wait; the end of the skew guard clears the units, not memory. From spec/02_stroke.md (R33, R35); spec/05_core.md (R95);
spec/06_sparsity.md (R137); spec/11_memory_fabric.md (R254). Model's choices in it: log 2, 62, 79. -/
def Obligations.DeadlineAndSkewGuardEndWhatIsUnderWay : Prop :=
  (∀ s : State, s.TurnAt .work → ∃ t, exec .deadline s = .next t ∧ t.dev.slotOn = false ∧ t.dev.burstOn = true ∧
     t.dev.reqs = [] ∧ t.dev.demandsOut = [] ∧ t.dev.openBulks = [] ∧ t.dev.sentBulks = [] ∧ t.dev.fetched = [] ∧
     (∀ q, (t.dev.sq q).sampled = (t.dev.sq q).tail) ∧ t.pending = s.pending) ∧
  (∀ (d : Dev) (a : Nat) (bs : List Byte) (p : Bool), d.burstOn = true →
     (d.memStore a bs p).mem = d.mem ∧ (d.memStore a bs p).memNow = d.memNow.write a bs p ∧
     (d.memStore a bs p).burstEnd.mem = d.memNow.write a bs p ∧ d.burstEnd.burstOn = false ∧ d.burstEnd.mem = d.memNow) ∧
  (∀ s : State, s.TurnAt .deadline → ∃ t, exec .skewGuardEnd s = .next t ∧
     (∀ c, (t.dev.core c).run = none ∧ (t.dev.core c).waiting = [] ∧ (t.dev.core c).board = [] ∧ (t.dev.core c).rects = [] ∧
       (t.dev.core c).session = none ∧ (t.dev.core c).seqDone = [] ∧ (t.dev.core c).valveWait = none ∧ (t.dev.core c).queueWaits = false) ∧
     (∀ c, c < 256 → (t.dev.core c).dcache = []) ∧
     (∀ cl, (t.dev.cluster cl).tlb = []) ∧ (∀ cl, cl < 32 → (t.dev.cluster cl).cache = []) ∧
     t.dev.rounds = [] ∧ t.dev.selects = [] ∧ t.dev.allsums = [] ∧ t.dev.updates = [] ∧ t.dev.respCaches = [] ∧ t.dev.bulkHeld = [] ∧
     t.dev.valvePend = [] ∧ t.dev.regHeld = [] ∧ t.dev.shapeHeld = [] ∧
     t.dev.mem = s.dev.mem ∧ t.dev.valves = s.dev.valves ∧ t.dev.inForce = s.dev.inForce)

/-- O10, tier 2, derived. The hang check marks exactly the hung units for reset and withholds their clusters' grants.
From spec/02_stroke.md (R37); spec/18_faults.md (R413). Model's choices in it: log 92. -/
def Obligations.HungUnitsAreToBeReset : Prop :=
  ∀ (s : State) (hung : List UnitName), s.TurnAt .judged → ∃ t, exec (.unitHangCheck hung) s = .next t ∧
    (∀ u ∈ hung, u ∈ t.dev.unitResets ∧ ∀ cl, unitCluster u = some cl → (t.dev.cluster cl).noGrant = true) ∧
    (∀ u ∈ t.dev.unitResets, u ∈ s.dev.unitResets ∨ u ∈ hung) ∧
    t.dev.mem = s.dev.mem ∧ t.dev.cores = s.dev.cores ∧ t.dev.valves = s.dev.valves

/-- O11, tier 1, derived. In-stroke refresh slots begin in order, each once, and end by letting what waited go on; a held
counter starts on its release, with its period. From spec/02_stroke.md (R21, R29, R30, R460). Model's choices in it: log 24.
-/
def Obligations.HeldCountersAndRefreshSlots : Prop :=
  (∀ s : State, s.dev.life = .on →
     (s.clk.running = true → s.clk.slotLeft = true → s.dev.slotOn = false → exec .inStrokeRefreshSlot s = .next
       { s with
         clk := { s.clk with phase := max s.clk.phase (s.clk.slotPhase (s.clk.slotsDone + 1)), slotsDone := s.clk.slotsDone + 1 }
         dev := { s.dev with slotOn := true } }) ∧
     (s.clk.running = false ∨ s.clk.slotLeft = false ∨ s.dev.slotOn = true → exec .inStrokeRefreshSlot s = .next s) ∧
     (s.dev.slotOn = true → s.clk.running = true → ∃ c : Clock, exec .refreshSlotEnd s = .next
       { s with clk := (slotOver c s.dev).1, dev := (slotOver c s.dev).2.resume (slotOver c s.dev).1 } ∧
       c = { s.clk with phase := c.phase } ∧ s.clk.phase ≤ c.phase ∧
       (s.clk.phase < s.clk.nextEvent → c.phase < s.clk.nextEvent)) ∧
     (∀ c : Clock, s.dev.reqQueue = [] → s.dev.slotHeld = [] → slotOver c s.dev = (c, { s.dev with slotOn := false })) ∧
     (s.dev.slotOn = false ∨ s.clk.running = false → exec .refreshSlotEnd s = .next s)) ∧
  (∀ s : State, s.dev.life = .on →
     (s.clk.held = true → exec .counterHoldRelease s = .next
       { s with clk := s.clk.release, dev := (s.dev.powerStroke s.clk.release.stroke).startStroke s.clk.release }) ∧
     (s.clk.pendingPeriod = none → s.clk.release = { s.clk with held := false, stage := .work }) ∧
     (∀ p e, s.clk.pendingPeriod = some (p, e) →
       (e = s.clk.stroke → s.clk.release =
         { s.clk with held := false, stage := .work, period := p, turnStart := p - 1500, pendingPeriod := none }) ∧
       (e ≠ s.clk.stroke → s.clk.release = { s.clk with held := false, stage := .work })) ∧
     (s.clk.held = false → exec .counterHoldRelease s = .next s))

/-- O12, tier 2, derived. Markers guide followers, slews stay within 20 ns a stroke, markers leave on links that are
up, holdover ends unlocked. From spec/02_stroke.md (R24, R25, R26); spec/13_rolkan.md (R302). Model's choices in it:
log 28, 71. -/
def Obligations.MarkersGuideFollowers : Prop :=
  (∀ (s : State) (p : PortId) (m : BitVec 256), s.dev.life = .on →
     ((s.dev.port p.val).link = none → exec (.timingMarker p m) s = .next s) ∧
     ((s.dev.port p.val).link ≠ none →
       let d1 := s.dev.setPort p.val { s.dev.port p.val with marker := some (Marker.ofWord m.toNat), markerAt := (s.clk.stroke, s.clk.phase) }
       let now := fun q : PortId => (neighbourNow s.clk d1 q.val).getD (Marker.ofWord m.toNat)
       (d1.isRoot = true ∨ s.clk.held = true → exec (.timingMarker p m) s = .next { s with dev := d1 }) ∧
       (d1.isRoot = false → s.clk.held = false → ∀ q, d1.bestUpstream = some q →
         (s.clk.sync = .priming → exec (.timingMarker p m) s = .next
           { s with clk := { takeCounter { adopt s.clk d1 q with pendingPeriod := (now q).pending } (now q) with sync := .locked }, dev := d1 }) ∧
         (s.clk.sync = .unlocked → s.clk.stepDue = none → exec (.timingMarker p m) s = .next
           { s with clk := { adopt s.clk d1 q with stepDue := some (nextTurnover s.clk) }, dev := d1 }) ∧
         (s.clk.sync = .locked → p = q → missedChange (adopt s.clk d1 q) (now q) = false → s.clk.period = (now q).period →
           exec (.timingMarker p m) s = .next
             { s with clk := slew (adopt s.clk d1 q) (leadOf (adopt s.clk d1 q) (now q)), dev := d1 })))) ∧
  (∀ (c : Clock) (lead : Int), c.slewed ≤ 20 →
     let c1 := slew c lead
     c1.slewed ≤ 20 ∧ ((c1.phase : Int) - c.phase).natAbs = c1.slewed - c.slewed ∧
     c1 = { c with phase := c1.phase, slewed := c1.slewed, offset := c1.offset } ∧
     (c.stage = .work → 0 ≤ (c.phase : Int) + lead → (c.phase : Int) + lead < c.turnStart → lead.natAbs ≤ 20 - c.slewed →
       (c1.phase : Int) = c.phase + lead ∧ c1.offset = 0)) ∧
  (∀ (s : State) (l : PortId), s.dev.life = .on →
     ((s.dev.link l.val).ports ≠ [] → s.clk.sync ≠ .priming →
       exec (.markerSend l) s = .next { s with dev := s.dev.emit (.marker l.val (markerWord s.clk s.dev)) }) ∧
     ((s.dev.link l.val).ports = [] ∨ s.clk.sync = .priming → exec (.markerSend l) s = .next s)) ∧
  (∀ s : State, s.dev.life = .on →
     (s.clk.sync = .holdover → exec .holdoverTimeout s = .next
       { s with
         clk := { s.clk with sync := .unlocked, upstream := none, stepDue := none }
         dev := s.dev.faultMembers .strokeUnlocked }) ∧
     (s.clk.sync ≠ .holdover → exec .holdoverTimeout s = .next s))

/-- O13, tier 1, derived. NOP and END_ITEM move a plan on, END_PLAN completes it when quiet, rejected instructions take
their status; an open session raises SPARSE_OP_INVALID. From spec/05_core.md (R93, R94, R95, R96, R101); spec/06_sparsity.md
(R128). Model's choices in it: log 17, 99. -/
def Obligations.PlansMoveOnRejectAndEnd : Prop :=
  (∀ (s : State) (c : CoreId) (r : PlanRun) (i : SeqInstr), s.SeqAt c.val r i →
     let raised := (s.dev.planStatus r .sparseOpInvalid).raiseAt r.ctx .sparseOpInvalid 0 .core c.val
     (i.op = 0 → exec (.nop c) s = .next { s with dev := s.dev.passed c.val r i }) ∧
     (i.op = 7 → (s.dev.core c.val).session = none → exec (.endItem c) s = .next { s with dev := s.dev.passed c.val r i }) ∧
     (i.op = 7 → (s.dev.core c.val).session ≠ none → exec (.endItem c) s = .next { s with dev := raised.passed c.val r i }) ∧
     ((r.after i).ended = false → s.dev.passed c.val r i = (s.dev.afterFetch c.val r).goesOn c.val (r.after i))) ∧
  (∀ (s : State) (c : CoreId) (r : PlanRun) (i : SeqInstr), s.SeqAt c.val r i → i.op = 0x0F → r.owner = none → r.takenOut = 0 →
     let d := if (s.dev.core c.val).session = none then s.dev
       else (s.dev.planStatus r .sparseOpInvalid).raiseAt r.ctx .sparseOpInvalid 0 .core c.val
     ((s.dev.core c.val).planQuiet r = true → exec (.endPlan c) s = .next { s with dev := d.planOver c.val r }) ∧
     ((s.dev.core c.val).planQuiet r = false →
       exec (.endPlan c) s = .next { s with dev := (d.afterFetch c.val r).goesOn c.val ({ r with ended := true }.after i) })) ∧
  (∀ (s : State) (c : CoreId) (r : PlanRun) (i : SeqInstr), s.On → s.clk.stage = .work → (s.dev.core c.val).run = some r →
     (s.dev.core c.val).switchTo = none → (s.dev.core c.val).signalAsked = none → s.dev.mayRun r.ctx = true →
     s.dev.seqNext c.val r = .got i →
     (i.ok = false → exec (.nop c) s = .next { s with dev := s.dev.reject c.val r i .planInvalid }) ∧
     (i.ok = true → 1 ≤ i.op → i.op ≤ 4 → (s.dev.cluster (c.val / 8)).holder ≠ some r.ctx → ∀ x ∈ vectorRows ++ sparseRows,
       exec (x.1 c) s = .next { s with dev := s.dev.reject c.val r i .wellNotOwned }))

/-- O14, tier 1, derived. COMPUTE and TRANSFER begin a phase switch where the phase changes, and the switch takes
effect when it is done. From spec/05_core.md (R98, R99). Model's choices in it: log 17. -/
def Obligations.PhasesSwitch : Prop :=
  (∀ (s : State) (c : CoreId) (r : PlanRun) (i : SeqInstr), s.SeqAt c.val r i → i.op = 6 →
     (i.arg = 0 → exec (.compute c) s = .next { s with dev :=
       (if (s.dev.core c.val).compute then s.dev.passed c.val r i
         else (s.dev.beginSwitch c.val true).passed c.val r i) }) ∧
     (i.arg = 1 → ((s.dev.core c.val).compute = true → (s.dev.core c.val).board = []) → exec (.transfer c) s = .next { s with dev :=
       (if (s.dev.core c.val).compute then (s.dev.beginSwitch c.val false).passed c.val r i
         else s.dev.passed c.val r i) }) ∧
     (i.arg = 1 → (s.dev.core c.val).compute = true → (s.dev.core c.val).board ≠ [] → exec (.transfer c) s = .next s)) ∧
  (∀ (s : State) (c : CoreId) (b : Bool), s.On → (s.dev.core c.val).switchTo = some b →
     exec (.phaseSwitchDone c) s = .next { s with
       dev := (s.dev.updCore c.val fun co => { co with compute := b, switchTo := none }).pump s.clk })

/-- O15, tier 1, derived. Every VECTOR, ARRAY and SPARSE row issues to its engine and takes a scoreboard entry, once nothing
that it reads or writes is unfinished. From spec/04_matrix_array.md (R75, R78, R86); spec/05_core.md (R97, R98, R106);
spec/06_sparsity.md (R117). Model's choices in it: log 17, 58. -/
def Obligations.EngineOperationsIssue : Prop :=
  (∀ (s : State) (c : CoreId) (r : PlanRun) (i : SeqInstr) (out : EngOut) (slot : Nat), s.SeqAt c.val r i → i.op = 2 →
     vectorIssue s.dev.mem c.val (s.dev.ctx r.ctx).srSeed s.dev.freeCtr (VectorOp.ofBody i.body) = .ok out →
     (s.dev.core c.val).RoomFor .vector out slot → ∀ x ∈ vectorRows, fld i.body 255 248 = x.2 →
     exec (x.1 c) s = .next { s with dev := s.dev.onBoard c.val r i ⟨slot, .vector, r.ctx, out, i.body, s.dev.freeCtr⟩ id }) ∧
  (∀ (s : State) (c : CoreId) (r : PlanRun) (i : SeqInstr) (rects : List Rect) (out : EngOut) (slot : Nat), s.SeqAt c.val r i → i.op = 1 →
     let op := ArrayOp.ofBody i.body
     let rg := arrayRanges op op.kPass (!op.reuse)
     arrayReject op = none → (s.dev.core c.val).hazard (boundRange rg.1) rg.2 = false →
     arrayIssue s.dev.mem c.val s.dev.freeCtr (s.dev.core c.val).rects op = .ok (rects, out) →
     (s.dev.core c.val).RoomFor .array out slot →
     exec (.array c) s = .next { s with
       dev := s.dev.onBoard c.val r i ⟨slot, .array, r.ctx, out, i.body, s.dev.freeCtr⟩ fun co => { co with rects := rects } }) ∧
  (∀ (s : State) (c : CoreId) (r : PlanRun) (i : SeqInstr) (rects : List Rect) (ses : Option AccSession) (out : EngOut) (slot : Nat),
     s.SeqAt c.val r i → i.op = 3 →
     (∀ x ∈ sparseReads s.dev.mem c.val (SparseOp.ofBody i.body), (s.dev.core c.val).hazard x (0, 0) = false) →
     sparseIssue s.dev.mem c.val s.dev.freeCtr (s.dev.core c.val).rects (s.dev.core c.val).session (SparseOp.ofBody i.body)
       = .ok (rects, ses, out) →
     (s.dev.core c.val).RoomFor .sparse out slot → ∀ x ∈ sparseRows, fld i.body 255 248 = x.2 →
     exec (x.1 c) s = .next { s with
       dev := s.dev.onBoard c.val r i ⟨slot, .sparse, r.ctx, out, i.body, s.dev.freeCtr⟩ fun co =>
         { co with rects := rects, session := ses } })

/-- O16, tier 1, derived. A finished engine operation leaves the board, writes its results, sets flags and counts, and
reports a failed check; one that must come later does not finish. From spec/05_core.md (R97, R104); spec/03_numerics.md
(R66, R67, R68); spec/04_matrix_array.md (R78); spec/06_sparsity.md (R117); spec/18_faults.md (R411, R412). Model's choices
in it: log 58. -/
def Obligations.EngineOperationsFinish : Prop :=
  ∀ (s : State) (c : CoreId) (slot : Fin 64) (check : EngineCheck) (ecc : List EccFinding) (e0 : BoardEntry), s.Working →
    (s.dev.core c.val).board.find? (fun e => e.slot = slot.val) = some e0 →
    ((s.dev.core c.val).mayFinish e0 = false → exec (.engineOpFinished c slot ⟨check, ecc⟩) s = .next s) ∧
    ((s.dev.core c.val).mayFinish e0 = true →
      let e := s.dev.outcome s.clk c.val e0 ecc
      let bad := match check with
        | .clean => false
        | .arith step => stepMismatch step
        | .controlParity => true
      let d := (s.dev.eccAll s.clk (some e0.ctx) ecc).opDone c.val e0 e bad (!(e0.linesLost c.val ecc).isEmpty)
      let d1 := match check with
        | .clean => d
        | .arith step => if stepMismatch step then d.residueError e.ctx e.engine.residueSub .core c.val else d
        | .controlParity => d.raiseUncorrected e.ctx .controlCheck .core c.val
      let d2 := e.out.counts.foldl (fun d x => d.bumpKey x.1 x.2) ((d1.flagN e.ctx e.out.nflags).flagS e.ctx e.out.sflags)
      exec (.engineOpFinished c slot ⟨check, ecc⟩) s = .next { s with
        dev := ((e.out.statuses.foldl (fun d st => d.raiseAt e.ctx st 0 .core c.val) d2).settle c.val).pump s.clk })

/-- O17, tier 2, derived. What a finishing engine operation stores in its core's well: no byte of memory outside its
results, whatever the check and its reading find. From spec/05_core.md (R97, R100, R104); spec/03_numerics.md (R68). Model's
choices in it: log 58. -/
def Obligations.EngineOperationsWriteTheirResultsAlone : Prop :=
  ∀ (s : State) (c : CoreId) (slot : Fin 64) (check : EngineCheck) (ecc : List EccFinding) (e0 : BoardEntry), s.Working →
    (s.dev.core c.val).board.find? (fun e => e.slot = slot.val) = some e0 → (s.dev.core c.val).mayFinish e0 = true →
    let e := s.dev.outcome s.clk c.val e0 ecc
    ∃ d : Dev, exec (.engineOpFinished c slot ⟨check, ecc⟩) s = .next { s with dev := d.pump s.clk } ∧
      (∀ a, (∀ w ∈ e.out.writes, a < wellBase c.val + w.addr ∨ wellBase c.val + w.addr + w.data.length ≤ a) →
        d.mem.byte a = s.dev.mem.byte a) ∧
      (∀ w, e.out.writes = [w] → ∀ (j : Nat) (hj : j < w.data.length), d.mem.byte (wellBase c.val + w.addr + j) = w.data[j]) ∧
      (s.dev.mem.wf = true → d.mem.wf = true) ∧ (ecc = [] → e = e0) ∧ e0 ∉ (d.core c.val).board

/-- O18, tier 1, derived. SIGNAL adds to its valve up to 2^32 - 1 and lets those that wait for it go on; WAIT and WAIT_TAKE
hold until the count is reached, and WAIT_TAKE takes it. From spec/10_buckets_valves.md (R229, R230, R235, R236). Model's
choices in it: log 17. -/
def Obligations.ValvesCountSignalsAndHoldWaits : Prop :=
  (∀ (s : State) (c : CoreId) (r : PlanRun) (i : SeqInstr) (b : ValveBody) (parity : Bool), s.ValveAt c.val r i b → b.fop = 1 →
     b.remote = false → (s.dev.core c.val).planQuiet r = true → s.dev.valveUsable r.ctx b.valve = true →
     s.dev.clusterFaulted (b.valve / 512) = false →
     (let d := (s.dev.valveTouch r.ctx b.valve parity).bump 0x8080 7 (b.valve / 512) 1
      let n := s.dev.valve b.valve + b.value
      exec (.signal c parity) s = .next { s with
       dev := ((if n ≤ 4294967295 then d.setValve b.valve n
         else (d.setValve b.valve 4294967295).raise r.ctx .valveOverflow).serveValve b.valve).passed c.val r i }) ∧
     (parity = false → s.dev.valveBad.contains b.valve = false → s.dev.valveTouch r.ctx b.valve parity = s.dev)) ∧
  (∀ (d : Dev) (v : Nat), (∀ k w, (d.core k).valveWait = some w → w.valve ≠ v) → (∀ w ∈ d.valvePend, w.valve ≠ v) → d.serveValve v = d) ∧
  (∀ (d : Dev) (k : Nat) (w : ValveWait) (r : PlanRun), (d.core k).valveWait = some w → (d.core k).run = some r → w.granted = false →
     (d.valve w.valve < w.count → d.serveCore w.valve k = d) ∧
     (w.count ≤ d.valve w.valve → ((d.serveCore w.valve k).core k).valveWait = some { w with granted := true } ∧
       (d.serveCore w.valve k).valve w.valve = if w.take then d.valve w.valve - w.count else d.valve w.valve)) ∧
  (∀ (s : State) (c : CoreId) (r : PlanRun) (i : SeqInstr) (b : ValveBody) (parity : Bool), s.ValveAt c.val r i b →
     s.dev.valveUsable r.ctx b.valve = true → s.dev.clusterFaulted (b.valve / 512) = false →
     (let d := s.dev.valveTouch r.ctx b.valve parity
      let waits := fun take : Bool => d.updCore c.val fun co =>
        { co with valveWait := some ⟨b.valve, b.value, take, false, d.valveBad.contains b.valve⟩ }
      ((s.dev.core c.val).valveWait = none →
       (b.fop = 2 → s.dev.valve b.valve < b.value → exec (.wait c parity) s = .next { s with dev := waits false }) ∧
       (b.fop = 3 → s.dev.valve b.valve < b.value → exec (.waitTake c parity) s = .next { s with dev := waits true }) ∧
       (b.fop = 2 → b.value ≤ s.dev.valve b.valve → exec (.wait c parity) s = .next { s with dev := d.passed c.val r i }) ∧
       (b.fop = 3 → b.value ≤ s.dev.valve b.valve → exec (.waitTake c parity) s = .next { s with
         dev := (d.setValve b.valve (s.dev.valve b.valve - b.value)).passed c.val r i }))) ∧
     (∀ w, (s.dev.core c.val).valveWait = some w →
       (w.granted = false → (b.fop = 2 → exec (.wait c parity) s = .next s) ∧ (b.fop = 3 → exec (.waitTake c parity) s = .next s)) ∧
       (w.granted = true → (b.fop = 2 → exec (.wait c parity) s = .next { s with dev := s.dev.passed c.val r i }) ∧
         (b.fop = 3 → exec (.waitTake c parity) s = .next { s with dev := s.dev.passed c.val r i }))))

/-- O19, tier 1, derived. Bucket requests take a free bucket of the smallest class, wait where there is none, and
reference counts follow. From spec/10_buckets_valves.md (R219, R223, R224, R225, R226, R236). Model's choices in it:
log 15, 17. -/
def Obligations.BucketsAreGrantedAndCounted : Prop :=
  (∀ (s : State) (c : CoreId) (r : PlanRun) (i : SeqInstr) (b : ValveBody) (parity : Bool), s.ValveAt c.val r i b → b.fop = 8 →
     (s.dev.core c.val).hreg b.hreg = nullHandle → (s.dev.core c.val).poolWait = false →
     (classFor b.value = none → exec (.bucketAlloc c parity) s =
       .next { s with dev := ((s.dev.raise r.ctx .bucketTooLarge).planStatus r .bucketTooLarge).passed c.val r i }) ∧
     (∀ cl, classFor b.value = some cl →
       (let p := (s.dev.ctx r.ctx).partition
        let hd := homeHdie c.val
        ((s.dev.pool (poolKey p cl hd)).next (s.dev.poolCount p cl hd) = none → exec (.bucketAlloc c parity) s = .next { s with
           dev := (s.dev.bump 0x8080 2 (32 * p + 2 * cl + hd) 1).updCore c.val fun co => { co with poolWait := true } }) ∧
        (∀ x q, (s.dev.pool (poolKey p cl hd)).next (s.dev.poolCount p cl hd) = some (x, q) →
           (let h := handleMake cl hd x
            let d := ((s.dev.setPool (poolKey p cl hd) q).setBucket (bucketKey p h) (some ⟨1, r.ctx⟩)).bump 0x8080 1 hd 1
            let e := (d.setHreg c.val b.hreg h).updCore c.val fun co => { co with poolWait := false }
            exec (.bucketAlloc c parity) s = .next { s with dev := (if parity then e.poolCheck p h else e).passed c.val r i }))))) ∧
  (∀ (s : State) (c : CoreId) (r : PlanRun) (i : SeqInstr) (b : ValveBody) (k : Bucket), s.ValveAt c.val r i b →
     (let h := (s.dev.core c.val).hreg b.hreg
      let p := (s.dev.ctx r.ctx).partition
      s.dev.handleOk r.ctx h = true → s.dev.bucket (bucketKey p h) = some k →
      (b.fop = 9 → k.count + b.value ≤ 65535 → exec (.bucketAdd ⟨c, false⟩) s = .next { s with
         dev := (s.dev.setBucket (bucketKey p h) (some { k with count := k.count + b.value })).passed c.val r i }) ∧
      (b.fop = 9 → 65535 < k.count + b.value → exec (.bucketAdd ⟨c, false⟩) s = .next { s with
         dev := ((s.dev.raise r.ctx .refcountOverflow).planStatus r .refcountOverflow).passed c.val r i }) ∧
      (b.fop = 9 → k.count + b.value ≤ 65535 → exec (.bucketAdd ⟨c, true⟩) s = .next { s with
         dev := ((s.dev.poolCheck p h).setBucket (bucketKey p h) (some { k with count := k.count + b.value })).passed c.val r i }) ∧
      (b.fop = 10 → 1 < k.count → exec (.bucketRelease c false) s = .next { s with
         dev := ((s.dev.setBucket (bucketKey p h) (some { k with count := k.count - 1 })).setHreg c.val b.hreg nullHandle).passed c.val r i }) ∧
      (b.fop = 10 → k.count ≤ 1 → exec (.bucketRelease c false) s = .next { s with
         dev := ((s.dev.freeBucket p h).setHreg c.val b.hreg nullHandle).passed c.val r i }) ∧
      (b.fop = 10 → exec (.bucketRelease c true) s = .next { s with
         dev := (((s.dev.poolCheck p h).release r.ctx h).setHreg c.val b.hreg nullHandle).passed c.val r i }))) ∧
  ((∀ (s : State) (c : CoreId) (ch : Fin 16) (x : Stream), s.Working → s.dev.stream c.val ch.val = some x → x.poolWait = true →
     let d := (s.dev.setStream c.val ch.val (some { x with poolWait := false })).pump s.clk
     exec (.poolEmptyRetry ⟨.stream c ch, false⟩) s = .next { s with dev := d } ∧
     (∀ h, ((d.stream c.val ch.val).bind (·.handle)) = some h →
       exec (.poolEmptyRetry ⟨.stream c ch, true⟩) s = .next { s with dev := d.poolCheck (d.ctx x.ctx).partition h })) ∧
   (∀ (s : State) (c : CoreId) (r : PlanRun) (i : SeqInstr) (b : ValveBody) (parity : Bool), s.ValveAt c.val r i b → b.fop = 8 →
     (s.dev.core c.val).poolWait = true →
     exec (.poolEmptyRetry ⟨.sequencer c, parity⟩) s = .next { s with dev := s.dev.allocAnswer c.val r i b parity }) ∧
   (∀ (s : State) (h : HdieId) (parity : Bool), s.Working → h.val ∈ s.dev.packWait →
     exec (.poolEmptyRetry ⟨.packer h, parity⟩) s = .next { s with
       dev := packerRun s.clk h.val parity (s.dev.packQueue.length + 1) { s.dev with packWait := s.dev.packWait.filter (· != h.val) } }))

/-- O20, tier 1, derived. Handle queues take handles in order, hold a push at 256 entries and a pop at none. From
spec/09_pumps.md (R205, R208); spec/10_buckets_valves.md (R226, R236); spec/18_faults.md (R412). Model's choices in it: log
17. -/
def Obligations.HandleQueuesPushAndPop : Prop :=
  ∀ (s : State) (c : CoreId) (parity : Bool) (r : PlanRun) (i : SeqInstr) (b : ValveBody) (d : Dev), s.ValveAt c.val r i b →
    s.dev.queueBar r.ctx b.queue = none → d = s.dev.coreParity c.val r.ctx parity →
    let held := d.updCore c.val fun co => { co with queueWaits := true }
    (b.fop = 11 → s.dev.handleOk r.ctx ((s.dev.core c.val).hreg b.hreg) = true →
      (256 ≤ (s.dev.hq b.queue).handles.length → exec (.queuePush ⟨c, parity⟩) s = .next { s with dev := held.pump s.clk }) ∧
      ((s.dev.hq b.queue).handles.length < 256 → b.keep = false →
        exec (.queuePush ⟨c, parity⟩) s = .next { s with
          dev := (((d.setHq b.queue ⟨(s.dev.hq b.queue).handles ++ [(s.dev.core c.val).hreg b.hreg], some r.ctx⟩).setHreg
            c.val b.hreg nullHandle).passed c.val r i).pump s.clk }) ∧
      (∀ k, (s.dev.hq b.queue).handles.length < 256 → b.keep = true →
        s.dev.bucket (bucketKey (s.dev.ctx r.ctx).partition ((s.dev.core c.val).hreg b.hreg)) = some k → k.count + 1 ≤ 65535 →
        exec (.queuePush ⟨c, parity⟩) s = .next { s with
          dev := (((d.setBucket (bucketKey (s.dev.ctx r.ctx).partition ((s.dev.core c.val).hreg b.hreg))
              (some { k with count := k.count + 1 })).setHq b.queue
            ⟨(s.dev.hq b.queue).handles ++ [(s.dev.core c.val).hreg b.hreg], some r.ctx⟩).passed c.val r i).pump s.clk })) ∧
    (b.fop = 12 → (s.dev.core c.val).hreg b.hreg = nullHandle →
      ((s.dev.hq b.queue).handles = [] → exec (.queuePop ⟨c, parity⟩) s = .next { s with dev := held.pump s.clk }) ∧
      (∀ h rest, (s.dev.hq b.queue).handles = h :: rest → exec (.queuePop ⟨c, parity⟩) s = .next { s with
        dev := (((d.setHq b.queue ⟨rest, some r.ctx⟩).setHreg c.val b.hreg h).passed c.val r i).pump s.clk }))

/-- O21, tier 1, derived. START and RELAY put a checked descriptor in the channel's active slot; a finished stream
completes: its source bucket is released and its valve signalled. From spec/09_pumps.md (R192, R195, R197, R198, R199,
R203, R207). Model's choices in it: log 17, 59, 100. -/
def Obligations.StreamsStartAndComplete : Prop :=
  (∀ (s : State) (c : CoreId) (r : PlanRun) (i : SeqInstr) (b : StreamBody) (ecc : List EccFinding) (refetch : Nat) (bs : List Byte),
     s.SeqAt c.val r i → i.op = 4 → StreamBody.ofBody i.body = b → s.dev.valveReject r.ctx b.valve = none →
     s.dev.stream c.val b.channel = none → (s.dev.core c.val).boardUse < 64 →
     (let st := { Stream.fresh r.ctx b.descAddr (r.owner.getD c.val) b (some r.cmd) with behind := (s.dev.core c.val).unread }
      let rg := sdWellRange (leNat bs)
      let entered := fun e : Dev => (((e.loaded (whoStream c.val b.channel st) b.descAddr 64).setStream c.val b.channel
        (some { st with desc := leNat bs, descRead := true })).passed c.val r i).pump s.clk
      (∀ e, e = (s.dev.eccAll s.clk (some r.ctx) ecc).refetched (c.val / 8) refetch →
       e.load (whoStream c.val b.channel st) b.descAddr 64 = .ok (bs, false) → e.descReject r.ctx (leNat bs) = none →
       (b.sop = 1 → (s.dev.core c.val).hazard (if sdOut (leNat bs) then rg else (0, 0)) (if sdOut (leNat bs) then (0, 0) else rg) = false →
         exec (.start c ecc refetch) s = .next { s with dev := entered e }) ∧
       (b.sop = 3 → e.relayReject r.ctx c.val (leNat bs) b.prev b.next = none → (s.dev.core c.val).hazard (0, 0) rg = false →
         exec (.relay ⟨c, ecc, refetch⟩) s = .next { s with dev := entered e })))) ∧
  (∀ (s : State) (c : CoreId) (ch : Fin 16) (x : Stream) (control pool : Bool), s.Working → s.dev.stream c.val ch.val = some x →
     s.dev.streamFinished c.val ch.val x = true →
     let d0 := if control then (s.dev.poisonStream c.val x).raiseUncorrected x.ctx .controlCheck .core c.val else s.dev
     let ends := fun d : Dev => (((d.setStream c.val ch.val none).bump 0x8070 1 c.val 1).settle c.val).pump s.clk
     let signals := fun d : Dev => match x.valve with
       | some v => d.signalOp x.ctx v 1
       | none => d
     ((x.handle = none ∨ sdFreeSrc x.desc = false) → exec (.streamComplete c ch ⟨control, pool⟩) s = .next { s with dev := ends (signals d0) }) ∧
     (∀ h, x.handle = some h → sdFreeSrc x.desc = true →
       exec (.streamComplete c ch ⟨control, pool⟩) s = .next { s with dev := ends (signals (d0.releaseFrom x.ctx h pool)) }))

/-- O22, tier 1, derived. ARM fills the armed slot, and an ARM that finds it filled overwrites it, with DESC_OVERRUN; one that
names PREV or NEXT keeps the rules of a RELAY. From spec/09_pumps.md (R202, R212, R213). Model's choices in it: log 17,
69, 101. -/
def Obligations.ArmsFillTheArmedSlot : Prop :=
  ∀ (s : State) (c : CoreId) (ecc : List EccFinding) (refetch : Nat) (r : PlanRun) (i : SeqInstr) (b : StreamBody) (bs : List Byte) (e : Dev),
    s.SeqAt c.val r i → i.op = 4 → StreamBody.ofBody i.body = b → b.sop = 2 → s.dev.valveReject r.ctx b.valve = none →
    e = (s.dev.eccAll s.clk (some r.ctx) ecc).refetched (c.val / 8) refetch →
    e.load (whoSeq c.val r) b.descAddr 64 = .ok (bs, false) → e.descReject r.ctx (leNat bs) = none →
    ((b.prev = none ∧ b.next = none) ∨ e.relayReject r.ctx c.val (leNat bs) b.prev b.next = none) →
    (let a : Armed := { ctx := r.ctx, desc := leNat bs, descAddr := b.descAddr, prev := b.prev, next := b.next, valve := b.valve }
     let d := (e.loaded (whoSeq c.val r) b.descAddr 64).updCore c.val fun co => co.setArmed b.channel (some a)
     ((s.dev.core c.val).armedSlot b.channel = none → exec (.arm ⟨c, ecc, refetch⟩) s = .next { s with dev := d.passed c.val r i }) ∧
     ((s.dev.core c.val).armedSlot b.channel ≠ none → exec (.arm ⟨c, ecc, refetch⟩) s = .next { s with
       dev := ((d.updCmd r.cmd fun q => { q with note := if q.note.isSome then q.note else some .descOverrun }).bump 0x8070 6 c.val 1).passed
         c.val r i }))

/-- O23, tier 1, derived. PLAN commands reach their core, and an idle core of a balancing context takes the last item
of the richest core. From spec/05_core.md (R95, R101); spec/15_contexts.md (R347). Model's choices in it: log 16, 17.
-/
def Obligations.CoresTakePlansAndItems : Prop :=
  (∀ (s : State) (q : CmdRead) (x : QCmd) (refetch : Nat), s.CmdAt q.q.val 1 x →
     (let core := fld (envPayload x.env) 255 248
      let r : PlanRun := { cmd := x.id, ctx := x.ctx, va := fld (envPayload x.env) 47 0 }
      exec (.plan q refetch) s = .next { s with
        dev := ((s.dev.readCmd s.clk x q).updCore core fun co =>
          if co.run.isNone then { co with run := some r } else { co with waiting := co.waiting ++ [r] }).refetched (core / 8) refetch })) ∧
  (∀ (s : State) (c : CoreId) (k o : Nat) (items : List (Nat × Nat)) (t : Nat × Nat) (r : PlanRun), s.Working →
     (s.dev.cluster (c.val / 8)).holder = some k → (s.dev.ctx k).loadBalance = true → s.dev.mayRun k = true →
     (s.dev.core c.val).run = none → (s.dev.core c.val).waiting = [] → (s.dev.core c.val).seqDone ≠ [] →
     (s.dev.core c.val).switchTo = none → s.dev.planWaits c.val = false →
     (s.dev.richest k ((List.range 8).map fun j => c.val / 8 * 8 + j) = some (o, items) ∨
       s.dev.richest k ((List.range 8).map fun j => c.val / 8 * 8 + j) = none ∧
       s.dev.richest k (((s.dev.heldBy k).filter (· != c.val / 8)).flatMap fun x => (List.range 8).map fun j => x * 8 + j) = some (o, items)) →
     items.getLast? = some t → (s.dev.core o).run = some r →
     exec (.itemTake c) s = .next { s with
       dev := ((s.dev.updCore o fun x => { x with
           run := some { ({ r with taken := r.taken ++ [t] } : PlanRun).moveTo r.pc with takenOut := r.takenOut + 1 } }).updCore c.val fun x => { x with
           run := some { cmd := r.cmd, ctx := k, va := r.va, pc := t.1, stopAt := some t.2, owner := some o } }).bump 0x8030 7 c.val 1 })

/-- O24, tier 1, derived. NOP, JOB_END and GROUP_DESTROY do their work at issue; a command whose work is done completes
and signals. From spec/16_control.md (R376, R377); spec/10_buckets_valves.md (R230, R231); spec/14_collectives.md
(R318). Model's choices in it: log 17, 70. -/
def Obligations.CommandsIssueAndComplete : Prop :=
  (∀ (s : State) (q : QueueId) (x : QCmd),
     (s.CmdAt q.val 0x0B x → exec (.nopCommand q) s = .next { s with dev := (s.dev.issuedCmd x).cmdWork x.id }) ∧
     (s.CmdAt q.val 0x11 x → exec (.jobEnd q) s = .next { s with dev := (s.dev.issuedCmd x).cmdWork x.id }) ∧
     (s.CmdAt q.val 0x0A x → ∀ g, (s.dev.issuedCmd x).group (fld (envPayload x.env) 5 0) = some g → g.ctx = x.ctx → g.state ≠ .pendingCreate →
       exec (.groupDestroy q) s = .next { s with
         dev := ((s.dev.issuedCmd x).setGroup (fld (envPayload x.env) 5 0) (some { g with state := .pendingDestroy })).cmdWork x.id }) ∧
     (envWaitMode x.env = 0 → s.dev.issuedCmd x = s.dev.cmdIssue x.id)) ∧
  (∀ (s : State) (q : QueueId) (index : BitVec 16) (x : QCmd), s.Working → s.dev.cmd (q.val * 65536 + index.toNat) = some x →
     x.work = true → x.completed = false → (envOp x.env = 0x11 → s.dev.jobEndOk x = true) →
     ((x.status.isSome = true ∨ envSigEn x.env = false) →
       exec (.commandComplete q index) s = .next { s with dev := s.dev.cmdDone (q.val * 65536 + index.toNat) }) ∧
     (x.status = none → envSigEn x.env = true → envSigRemote x.env = false → s.dev.valveUsable x.ctx (envSigValve x.env) = true →
       s.dev.clusterFaulted (envSigValve x.env / 512) = false →
       exec (.commandComplete q index) s = .next { s with
         dev := ((s.dev.valveTouch x.ctx (envSigValve x.env) false).addSignal (some x.ctx) (envSigValve x.env) (envSigCount x.env)).cmdDone
           (q.val * 65536 + index.toNat) }) ∧
     (x.status = none → envSigEn x.env = true → envSigRemote x.env = false → s.dev.valveUsable x.ctx (envSigValve x.env) = false →
       exec (.commandComplete q index) s = .next { s with
         dev := s.dev.cmdFault (q.val * 65536 + index.toNat) x.ctx .valveAccessFault 0 }))

/-- O25, tier 1, derived. Each of the seven local atomics replaces its target by the value of its operation, drops a CLUSTER
page's line from the caches, and returns the old value. From spec/11_memory_fabric.md (R241, R262, R263, R264). Model's
choices in it: log 14, 17, 106. -/
def Obligations.AtomicsReplaceTheirTarget : Prop :=
  ∀ (s : State) (q : CmdRead) (x : QCmd) (m : Mapping) (f : Nat) (d2 : Dev), s.CmdAt q.q.val 8 x → ∀ row ∈ atomicRows,
    (let a := AtomicDesc.ofWord (envPayload x.env)
     let d := s.dev.readCmd s.clk x q
     let bad := d.spoiled x.id
     let addr := m.addr a.target
     let n := atomicBytes a.size64
     let old := d.mem.le addr n
     let new := atomicNew a.aop (8 * n) old a.a a.b
     let written := d.mem.write addr (natLe n new) false
     let mem := if bad then written.setPoison (addr / 64) true else written
     let poisoned := d.mem.anyPoison addr n
     let d0 := (({ d with mem := mem } : Dev).countPartial addr n).atomicDrop x.ctx m addr
     let d1 := (d0.updCtx x.ctx fun k => { k with
        wrote := k.wrote ++ [(addr, n)], poisonWritten := k.poisonWritten || (poisoned && a.aop != 2) || bad }).lsStore s.clk
          (whoCmd x) a.target (natLe n (mem.le addr n)) (poisoned || bad)
     a.aop = row.2 → atomicDescOk (envPayload x.env) = true → d.fetched.find? (fun y => y.cmd = x.id) = none →
      (d.reqs.any fun r => decide (r.owner = .atomic x.id)) = false → d.locate x.ctx a.target true = .ok m → m.frame = .here f →
      d.cisternBar addr n = none → d1.atomicResult s.clk x a (natLe n old) poisoned = .ok d2 →
      exec (row.1 q) s = .next { s with dev := d2.unitDone s.clk (whoCmd x) })

/-- O26, tier 1, derived. SELECT reads its descriptor and takes its tokens in order; ROUND opens a round and goes on; RETURN
claims its expert and queues its rows at a packer. From spec/07_tridal_scoring.md (R141, R144, R145, R146, R149, R158);
spec/08_tridal_dispatch.md (R166, R167, R170, R179, R180). Model's choices in it: log 14, 18, 104, 105. -/
def Obligations.SelectsRoundsAndReturnsRun : Prop :=
  (∀ (s : State) (q : CmdRead) (x : QCmd) (disagree : List Nat) (seen : List StepSeen) (word : Nat) (e : Nat → Dev), s.CmdAt q.q.val 2 x →
     s.dev.cmd x.id = some x → x.ran = false → x.completed = false → s.dev.selects = [] →
     (let x1 := { x with issued := true, spoiled := x.spoiled || q.controlParity, found := disagree, steps := seen }
      let y := SelectDesc.ofWord word
      let r : SelectRun := { cmd := x.id, ctx := x.ctx, desc := some y }
      let d := ({ s.dev.readCmd s.clk x q with selects := [{ cmd := x.id, ctx := x.ctx }] } : Dev).updCmd x.id fun z =>
        { z with found := disagree, steps := seen }
      d.loadWord (whoCmd x) (envPayload x.env) 64 = .ok (some word) → selectOk (d.layer y.layer) y = true →
       d.clusterOwner y.sorter = some (d.ctx x.ctx).partition → d.clusterFaulted y.sorter = false →
       e 0 = { d with selects := [r], fetched := d.fetched.filter fun z => z.cmd != x.id } →
       (∀ t, t < y.t → ∃ d1, (e t).selectOne s.clk x1 { r with next := t } y = .ok d1 ∧
         e (t + 1) = { d1 with selects := [{ r with next := t + 1 }], fetched := d1.fetched.filter fun z => z.cmd != x.id }) →
       exec (.select q ⟨disagree, seen⟩) s = .next { s with dev := (e y.t).unitDone s.clk (whoSorter r y) })) ∧
  (∀ (s : State) (q : CmdRead) (x : QCmd) (seen : List StepSeen), s.CmdAt q.q.val 3 x → (∀ r ∈ s.dev.rounds, r.cmd ≠ x.id) →
     (let d := (s.dev.readCmd s.clk x q).updCmd x.id fun y => { y with steps := seen }
      (∀ d1, d.openRound x = .ok d1 → exec (.round ⟨q, seen⟩) s = .next { s with dev := (d1.roundGo s.clk x.id).ingressDrain s.clk }) ∧
      (∀ r, d.formRound (whoCmd x) x = .ok (some r) → s.dev.tridalHeld = [] → exec (.round ⟨q, seen⟩) s = .next { s with
        dev := (({ d with
          rounds := d.rounds ++ [r], roundsOpened := d.roundsOpened ++ [(r.desc.groupId, r.desc.roundId)]
          fetched := d.fetched.filter fun y => y.cmd != x.id } : Dev).roundGo s.clk x.id).ingressDrain s.clk }))) ∧
  (∀ (s : State) (q : CmdRead) (x : QCmd) (r : RoundRun) (e : Expert), s.CmdAt q.q.val 4 x →
     (let d := s.dev.readCmd s.clk x q
      let p := envPayload x.env
      let w : Who := ⟨x.ctx, x.id, .packer 0, 32⟩
      d.roundOf (fld p 177 162) (fld p 185 178) = some r → r.ctx = x.ctx → (r.experts.find? fun e => e.e = fld p 201 186) = some e →
       fld p 255 202 = 0 → fld p 137 48 = 0 → passCount r.layer ≤ r.lpass → fld p 161 138 % 64 = 0 →
       (let r1 := { r with experts := r.experts.map fun z => if z.e = e.e then { z with returned := some x.id } else z }
        let d1 := d.setRound r1
        (∀ id, e.returned = some id → id ≠ x.id → exec (.return_ q) s = .next { s with
          dev := d.cmdFault x.id x.ctx .returnInvalid 0 }) ∧
        (∀ rs, e.returned = none → d1.returnRecords w r1 e (fld p 47 0) (fld p 161 138) = .ok rs →
          (let jobs := packJobs r1 x.id 0 6 ((sortBy (fun a b => decide (a.1 < b.1)) rs).map (·.2))
           exec (.return_ q) s = .next { s with
             dev := (({ d1 with packQueue := d1.packQueue ++ jobs } : Dev).packersRun s.clk).unitDone s.clk w })))))

/-- O27, tier 1, derived. COMBINE queues at its unit, which takes the records in order; an UPDATE's units take their slices,
each by itself, and factored phases follow one another. From spec/08_tridal_dispatch.md (R182, R183, R186);
spec/12_update_unit.md (R272, R278, R279, R281, R285). Model's choices in it: log 14, 64, 69. -/
def Obligations.CombinesAndUpdatesRun : Prop :=
  (∀ (s : State) (q : CmdRead) (x : QCmd), s.CmdAt q.q.val 5 x →
     (let d := s.dev.readCmd s.clk x q
      let y := CombineDesc.ofWord (envPayload x.env)
      (d.combines.any fun k => k.cmd = x.id) = false → d.combineOk x y = true → d.clusterFaulted y.unit = false →
       exec (.combine q) s = .next { s with
         dev := ({ d with combines := d.combines ++ [{ cmd := x.id, ctx := x.ctx, desc := y }] } : Dev).updCluster y.unit fun k =>
           { k with combines := k.combines ++ [x.id] } })) ∧
  (∀ (s : State) (cl : ClusterId) (seen : Option ArithStep) (k : CombineRun) (r : RoundRun) (d : Dev), s.Working →
     (s.dev.cluster cl.val).combines = [k.cmd] → (s.dev.combines.find? fun y => y.cmd = k.cmd) = some k → k.begun = false →
     k.desc.unit = cl.val → (∀ x, s.dev.cmd k.cmd = some x → x.status = none) →
     s.dev.roundOf k.desc.groupId k.desc.roundId = some r → r.ctx = k.ctx →
     combineReady r (r.record (k.desc.first + k.next)) (k.desc.first + k.next) = true →
     (let k1 := { k with begun := true, seen := seen }
      (s.dev.setCombine k1).combineOne s.clk (whoCombine k1) r k1 = .ok d →
      (let d1 : Dev := { d.setCombine { k with next := k.next + 1, begun := false, seen := none } with
         fetched := d.fetched.filter fun y => y.cmd != k.cmd }
       (k.next + 1 < k.desc.count → exec (.combineRecordStart cl seen) s = .next { s with dev := d1 }) ∧
       (k.desc.count ≤ k.next + 1 → exec (.combineRecordStart cl seen) s = .next { s with
         dev := (d1.dropCombine k).unitDone s.clk (whoCombine k) })))) ∧
  (∀ (s : State) (q : CmdRead) (x : QCmd) (seen : List StepSeen) (word : Nat) (e : Dev), s.CmdAt q.q.val 6 x → s.dev.cmd x.id = some x →
     x.completed = false → s.dev.updates = [] →
     (let y := UpdDesc.ofWord word
      let d := ({ s.dev.readCmd s.clk x q with updates := [{ cmd := x.id, ctx := x.ctx }] } : Dev).updCmd x.id fun z => { z with steps := seen }
      d.loadWord (whoCmd x) (envPayload x.env) 128 = .ok (some word) → updOk y = true → envPayload x.env % 64 = 0 →
      d.schedBad.contains y.group = false →
      UnitsRun s.clk { d with
        updates := [{ cmd := x.id, ctx := x.ctx, desc := some y }], fetched := d.fetched.filter fun z => z.cmd != x.id
        advances := if y.advance then d.advances ++ [(x.id, y.group)] else d.advances } e →
      exec (.update q seen) s = .next { s with dev := e })) ∧
  (∀ (s : State) (q : CmdRead) (seen : List StepSeen) (r : UpdateRun) (y : UpdDesc) (x : QCmd) (e : Dev), s.Working → s.dev.updates = [r] →
     s.dev.cmd r.cmd = some x → r.cmd / 65536 = q.q.val → s.dev.updLive r = true → r.phaseDone = true → r.desc = some y → r.phase < y.phases →
     s.dev.storesOut r.cmd = false →
     UnitsRun s.clk ((({ s.dev with updates := [{ r with phase := r.phase + 1, units := List.replicate 32 {} }] } : Dev).updCmd r.cmd
       fun z => { z with steps := seen }).seenBy s.clk { x with steps := seen } q) e →
     exec (.factoredPhaseStart q seen) s = .next { s with dev := e }) ∧
  (∀ (c : Clock) (d : Dev) (u : Nat) (r : UpdateRun) (y : UpdDesc) (x : QCmd), d.updates = [r] → d.cmd r.cmd = some x →
     x.completed = false → x.ran = false → r.desc = some y → (r.unit u).done < y.share r.phase u →
     (∀ z, d.updItem c u y (d.updEnv r.ctx y x.steps) r = .ok z → d.updStep c u = some (whoUnit r u, .ok (z.1.updItemDone c u y z.2))) ∧
     (d.updItem c u y (d.updEnv r.ctx y x.steps) r = .error .denied →
       d.updStep c u = some (whoUnit r u, .ok (d.cmdFault r.cmd r.ctx .memoryAccessFault 0))))

/-- O28, tier 1, derived. ALLSUM takes its place among its group's sums, is checked by its descriptor and uses its sequence
number, and GROUP_CREATE puts its group into the slot. From spec/14_collectives.md (R316, R318, R320, R321, R322). Model's
choices in it: log 14, 17. -/
def Obligations.CollectivesIssue : Prop :=
  (∀ (s : State) (q : CmdRead) (x : QCmd) (bs : List Byte), s.CmdAt q.q.val 7 x →
    (let d : Dev := { s.dev.readCmd s.clk x q with allsums := s.dev.allsums ++ [Allsum.unread x] }
     let va := fld (envPayload x.env) 47 0
     let a := Allsum.ofWord x.id x.ctx (leNat bs)
     s.dev.allsum x.id = none → va % 64 = 0 → d.load (whoCmd x) va 64 = .ok (bs, false) →
     (d.allsumOk (leNat bs) a = true → ∀ g, d.group a.slot = some g → exec (.allsum q) s = .next { s with
       dev := Dev.startAllsums ((({ d with fetched := d.fetched.filter fun y => y.cmd != x.id } : Dev).setAllsum a).setGroup a.slot
         (some { g with used := g.used ++ [a.seq] })) s.clk }) ∧
     (d.allsumOk (leNat bs) a = false → exec (.allsum q) s = .next { s with
       dev := (d.cmdFault x.id x.ctx .collInvalid 0).startAllsums s.clk }))) ∧
  (∀ (s : State) (q : CmdRead) (x : QCmd) (head list : List Byte) (slot : Nat) (g : CollGroup), s.CmdAt q.q.val 9 x →
    (let d := s.dev.readCmd s.clk x q
     let va := fld (envPayload x.env) 47 0
     let m := leNat (head.take 4)
     let f := (head.getD 6 0#8).toNat
     va % 64 = 0 → d.load (whoCmd x) va 64 = .ok (head, false) → 1 ≤ m → m ≤ 16384 → 2 ≤ f → f ≤ 8 →
     d.load (whoCmd x) (va + 64) (4 * m) = .ok (list, false) → d.formGroup x.ctx head (memberList list) = some (slot, g) →
     exec (.groupCreate q) s = .next { s with dev := (d.setGroup slot (some g)).unitDone s.clk (whoCmd x) }))

/-- O29, tier 2, stated. The tree of a group: member 0 is the root, and parents and children follow member order and
FANIN. From R317. -/
def Obligations.GroupTreesFollowMemberOrder : Prop :=
  (∀ f m i j, 0 < f → (j ∈ treeChildren f m i ↔ 0 < j ∧ j < m ∧ (j - 1) / f = i)) ∧
  (∀ f m i, (treeChildren f m i).Pairwise (· < ·)) ∧
  ∀ (d : Dev) (k : Nat) (head : List Byte) (l : List Nat) (slot : Nat) (g : CollGroup), d.formGroup k head l = some (slot, g) →
    g.m = leNat (head.take 4) ∧ g.f = (head.getD 6 0#8).toNat ∧ g.self.geid = d.geid ∧
    (∃ i, i < l.length ∧ g.self = memberAt l i ∧ l.getD i 0 % 2 ^ 20 = d.geid ∧
      g.parent = (if i = 0 then none else some (memberAt l ((i - 1) / g.f))) ∧ g.children = (treeChildren g.f g.m i).map (memberAt l))

/-- O30, tier 1, derived. Every dictionary row is performed and answered on its path; a repeated request is answered from
what was kept; a request beyond 64 that wait is discarded. From spec/16_control.md (R355, R358, R361, R366, R367). Model's
choices in it: log 34, 48. -/
def Obligations.RequestsArePerformedAndAnswered : Prop :=
  (∀ (s : State) (i : Instr) (p : Path) (h : Nat) (data : List Byte) (ecc : List EccFinding), requestOf i = some (p, h, data, ecc) →
     s.Req p h data → (let r := performHere s.clk (s.dev.received p h data) p h (s.dev.heard p h data) ecc
       exec i s = .next { s with clk := r.clk, dev := r.answered p h })) ∧
  (∀ (s : State) (i : Instr) (p : Path) (h : Nat) (data : List Byte) (ecc : List EccFinding) (k : Kept),
     requestOf i = some (p, h, data, ecc) → s.On → s.dev.primeOf 0 = 1 → pathFn p = none →
     s.dev.takesFrame p = true → s.dev.reqQueue = [] → (s.dev.slotOn = false ∨ (rqOp h ≠ 4 ∧ rqOp h ≠ 5)) →
     (s.dev.kept.find? fun k => k.src = pathSource p && k.request = h) = some k →
     exec i s = .next { s with
       dev := ((s.dev.bump 0x80E0 1 (pathCount p) 1).bump 0x80E0 4 0 1).deliver s.clk p k.header k.data }) ∧
  (∀ (s : State) (i : Instr) (p : Path) (h : Nat) (data : List Byte) (ecc : List EccFinding), requestOf i = some (p, h, data, ecc) →
     s.On → s.dev.primeOf 0 = 1 → pathFn p = none →
     (s.dev.takesFrame p = false → exec i s = .next s) ∧
     (s.dev.takesFrame p = true → 64 ≤ (s.dev.reqQueue.filter fun x => keeps x.src).length →
       exec i s = .next { s with dev := s.dev.bump 0x80E0 3 0 1 }))

/-- O31, tier 1, derived. READ and DESCRIBE answer the entry's value and descriptor; refused requests have no effect
but their answer. From spec/16_control.md (R355, R358, R359, R360). Model's choices in it: log 32, 34. -/
def Obligations.ReadsAnswerAndRefusalsChangeNothing : Prop :=
  (∀ (s : State) (i : Instr) (p : Path) (h : Nat) (data : List Byte) (ecc : List EccFinding) (e : Entry),
     requestOf i = some (p, h, data, ecc) → s.Req p h data → findEntry (rqIndex h) (rqSub h) = some e →
     (let d := s.dev.received p h data
      let d1 := (e.elemsAt (rqOffset h) (rqLength h)).foldl (fun d el => d.stirElem s.clk (rqIndex h) (rqSub h) el) d
      (rqOp h = 1 → e.acc ≠ 3 → e.rangeOk false (rqOffset h) (rqLength h) = true → exec i s = .next { s with
         dev := (⟨s.clk, d1, none, d1.readBytes s.clk e (rqIndex h) (rqSub h) (rqOffset h) (rqLength h)⟩ : Reply).answered p h }) ∧
      ((∀ el ∈ e.elemsAt (rqOffset h) (rqLength h), timingCounter (rqIndex h) (rqSub h) el = false) → d1 = d) ∧
      (rqOp h = 3 → rqOffset h = 0 → rqLength h = 8 → exec i s = .next { s with
         dev := (⟨s.clk, d, none, e.descriptor⟩ : Reply).answered p h }))) ∧
  (∀ (s : State) (i : Instr) (p : Path) (h : Nat) (data : List Byte) (ecc : List EccFinding),
     requestOf i = some (p, h, data, ecc) → s.Req p h data → rqOp h ≤ 3 →
     (let d := s.dev.received p h data
      let no := fun st : Status => exec i s = .next { s with dev := (⟨s.clk, d, some st, []⟩ : Reply).answered p h }
      (findEntry (rqIndex h) (rqSub h) = none → indexDefined (rqIndex h) = false → no .noEntry) ∧
      (findEntry (rqIndex h) (rqSub h) = none → indexDefined (rqIndex h) = true → no .noSubindex) ∧
      (∀ e, findEntry (rqIndex h) (rqSub h) = some e →
        (rqOp h = 1 → e.acc = 3 → no .notReadable) ∧
        (rqOp h = 2 → e.acc = 0 → no .notWritable) ∧
        (rqOp h = 1 → e.acc ≠ 3 → e.rangeOk false (rqOffset h) (rqLength h) = false → no .rangeInvalid) ∧
        (rqOp h = 2 → e.acc ≠ 0 → e.rangeOk true (rqOffset h) (rqLength h) = false → no .rangeInvalid))))

/-- O32, tier 1, derived. A WRITE takes effect at once, at the next turnover or as an action, as its entry's access
code says. From spec/16_control.md (R355, R356, R361). Model's choices in it: log 34, 65, 84. -/
def Obligations.WritesTakeEffectAsTheirAccessSays : Prop :=
  ∀ (s : State) (i : Instr) (p : Path) (h : Nat) (data : List Byte) (ecc : List EccFinding) (e : Entry),
    requestOf i = some (p, h, data, ecc) → s.Req p h data → rqOp h = 2 → findEntry (rqIndex h) (rqSub h) = some e →
    (let d := s.dev.received p h data
     let bs := (s.dev.heard p h data).take (rqLength h)
     let els := e.elements (rqOffset h) bs
     e.rangeOk true (rqOffset h) (rqLength h) = true → bs.length = rqLength h → d.unprimedEntry (rqIndex h) (rqSub h) els = false →
     d.faultedEntry (rqIndex h) (rqSub h) els = false → elementBar e (rqIndex h) (rqSub h) els = none →
     (e.acc = 1 → exec i s = .next { s with
        dev := (⟨s.clk, d.writeNow (rqIndex h) (rqSub h) els, none, []⟩ : Reply).answered p h }) ∧
     (e.acc = 2 → exec i s = .next { s with
        dev := (⟨s.clk, d.writePending s.clk (rqIndex h) (rqSub h) els, none, []⟩ : Reply).answered p h }) ∧
     (e.acc = 3 → actionBar s.clk d (rqIndex h) (rqSub h) bs = none → exec i s = .next { s with
        clk := (act s.clk d p (rqIndex h) (rqSub h) bs).1
        dev := (⟨(act s.clk d p (rqIndex h) (rqSub h) bs).1, (act s.clk d p (rqIndex h) (rqSub h) bs).2, none, []⟩ : Reply).answered p h }))

/-- O33, tier 1, derived. MEM_READ answers memory's bytes, with VALUE_POISONED where a line is poisoned; MEM_WRITE
writes them, queued while the turnover's burst runs. From spec/02_stroke.md (R35); spec/16_control.md (R359, R360,
R361); spec/18_faults.md (R406); spec/11_memory_fabric.md (R241). Model's choices in it: log 34. -/
def Obligations.MemoryRequestsReachMemory : Prop :=
  ∀ (s : State) (i : Instr) (p : Path) (h : Nat) (data : List Byte) (ecc : List EccFinding),
    requestOf i = some (p, h, data, ecc) → s.Req p h data →
    (let d := s.dev.received p h data
     let a := rqOffset h
     let n := rqLength h
     d.memBar a n = none →
     (rqOp h = 4 → (let e := d.eccAll s.clk none ecc
       exec i s = .next { s with
        dev := (⟨s.clk, e, if e.memNow.anyPoison a n then some .valuePoisoned else none, e.memNow.read a n⟩ : Reply).answered p h })) ∧
     (let bs := (s.dev.heard p h data).take n
      (rqOp h = 5 → bs.length = n → exec i s = .next { s with
        dev := (⟨s.clk, d.memStore a bs false, none, []⟩ : Reply).answered p h }) ∧
      (d.burstOn = false → d.memStore a bs false = ({ d with mem := d.mem.write a bs false } : Dev).countPartial a bs.length) ∧
      (d.burstOn = true → d.memStore a bs false = { d with storeQueue := d.storeQueue ++ [(a, bs, false)] })))

/-- O34, tier 1, derived. The actions of the write-only entries and of CTX_COMMAND. From spec/02_stroke.md (R29);
spec/08_tridal_dispatch.md (R169); spec/13_rolkan.md (R305, R306, R311); spec/15_contexts.md (R340, R349, R350);
spec/16_control.md (R355); spec/17_priming_security.md (R393, R394, R395, R398); spec/18_faults.md (R417, R421).
Model's choices in it: log 34, 67, 76, 82. -/
def Obligations.DictionaryActionsDoTheirWork : Prop :=
  (∀ (c : Clock) (d : Dev) (p : Path) (bs : List Byte),
     act c d p 0x2000 2 bs = ({ c with pendingPeriod := some (leNat (bs.take 4), leNat (bs.drop 4)) }, d) ∧
     (leNat bs = 1 → act c d p 0x2040 1 bs = (c, { d with resetAsked := true })) ∧
     act c d p 0x4000 5 bs = (c, d.beginDrain (leNat bs % 4096)) ∧
     (leNat bs = 1 → d.routeBusy = false → act c d p 0x4010 2 bs = (c, ({ d with routeLoad := some (d.v 0x4010 1 0, d.mem) } : Dev).setV 0x4010 3 0 1)) ∧
     act c d p 0x4010 4 bs = (c, { d with epochDue := some (leNat (bs.take 1), leNat (bs.drop 1)) }) ∧
     act c d p 0x4030 2 bs = settleUpstream c ((bitsOf 32 (leNat bs)).foldl (fun d q => d.retrain q) d) ∧
     (∀ dom : Fin 11, leNat bs = 1 → act c d p (0x7010 + dom.val) 4 bs = (c, d.clearLog dom.val)) ∧
     (leNat bs = 1 → act c d p 0x7100 0xB bs = (c, { d with ls := { d.ls with firstStroke := 0, firstClusters := 0, diverged := false } })) ∧
     (leNat bs = 1 → act c d p 0x8060 0xC bs = (c, d.clearSeqDrops)) ∧
     act c d p 0x9000 3 bs = (c, { d with fusedSvn := leNat bs }) ∧
     act c d p 0x9000 5 bs = (c, { d with keyRevoked := setBit d.keyRevoked (leNat bs) }) ∧
     act c d p 0x9010 3 bs = (c, d.flashAsk (leNat bs)) ∧
     act c d p 0x9030 1 bs = (c, { d with attest := { d.attest with asked := some (bs, nextTurnover c) } })) ∧
  (∀ (c : Clock) (d : Dev) (p : Path) (ctx : BitVec 16),
     (let k := ctx.toNat
      let x := d.ctx k
      act c d p 0x3000 2 (ctxBytes ctx 1) = (c, d.askDefine c p k) ∧
      (x.gone = false → x.state ≠ .aborting → x.state ≠ .aborted → act c d p 0x3000 2 (ctxBytes ctx 2) =
         (c, (d.setCtx k { x with removeAt := some (min (x.removeAt.getD (nextTurnover c)) (nextTurnover c)) }).setV 0x3000 3 0 0)) ∧
      (x.gone = false → x.state ≠ .aborting → x.state ≠ .aborted → x.state ≠ .defined → x.state ≠ .suspended →
         act c d p 0x3000 2 (ctxBytes ctx 3) = (c, (((if x.job.isSome then d.bump 0x80D0 9 x.client 1 else d).stopCtx c k).updCtx k
           fun y => { y with state := .aborting }).setV 0x3000 3 0 0)) ∧
      (x.state = .suspended → act c d p 0x3000 2 (ctxBytes ctx 4) =
         (c, (d.setCtx k { x with resumeAt := some (nextTurnover c) }).setV 0x3000 3 0 0)) ∧
      (x.state ≠ .suspended → act c d p 0x3000 2 (ctxBytes ctx 4) = (c, d.setV 0x3000 3 0 1))))

/-- O35, tier 1, derived. Mailbox doorbells submit, remote requests are sent, repeated and completed, queue doorbells
move tail and head. From spec/16_control.md (R363, R367, R372, R374, R375, R381). Model's choices in it: log 48. -/
def Obligations.MailboxesAndDoorbellsWork : Prop :=
  (∀ (s : State) (f : FunctionId), s.dev.life = .on → s.dev.hostUp = true →
     ((s.dev.reg f.val).state = 1 → exec (.mbxDoorbell f 1#32) s = .next { s with dev := s.dev.bump 0x80E0 5 0 1 }) ∧
     ((s.dev.reg f.val).state ≠ 1 → s.dev.primeOf 0 ≠ 1 → ∃ bs, exec (.mbxDoorbell f 1#32) s = .next
       { s with dev := s.dev.setReg f.val { s.dev.reg f.val with state := 1, waiting := some ((s.dev.reg f.val).reqHdr, bs) } } ∧
       bs.length = rqLength (s.dev.reg f.val).reqHdr) ∧
     (∀ h, h = (s.dev.reg f.val).reqHdr → s.Req (fnPath f.val) h [] →
       let r := performHere s.clk (s.dev.received (fnPath f.val) h []) (fnPath f.val) h (s.dev.heard (fnPath f.val) h []) []
       exec (.mbxDoorbell f 1#32) s = .next { s with clk := r.clk, dev := r.answered (fnPath f.val) h }) ∧
     (∀ v, v ≠ 1#32 → exec (.mbxDoorbell f v) s = .next s)) ∧
  (∀ (s : State), s.dev.life = .on →
     (∀ (h : BitVec 128) (data : List Byte), s.dev.boot.recovery = false → s.dev.primeOf 0 = 1 → s.dev.hostUp = true →
       (s.dev.reg 0).state ≠ 1 → headerBar .pf h.toNat = none → rqRemote h.toNat = true →
       s.dev.reqQueue = [] →
       exec (.write .pf h data) s = .next { s with
         dev := (s.dev.received .pf h.toNat data).forwardRequest s.clk h.toNat (s.dev.heard .pf h.toNat data) }) ∧
     (∀ (f : FunctionId) (r : RemoteReq), (s.dev.reg f.val).remote = some r →
       (r.sendings < 40 → exec (.mbxRemoteResend f) s = .next { s with
         dev := (s.dev.setReg f.val { s.dev.reg f.val with remote := some { r with sendings := r.sendings + 1 } }).sendRemote s.clk r }) ∧
       (40 ≤ r.sendings → (s.dev.reg f.val).irq % 2 = 0 → exec (.mbxRemoteResend f) s = .next { s with
         dev := s.dev.setReg f.val { s.dev.reg f.val with
           state := 2, rspHdr := rspHeader r.header s.dev.geid (statusCode (some .timeout)) 0, waiting := none, remote := none } })) ∧
     (∀ (r : RemoteReq) (src : Geid) (h : BitVec 128) (data : List Byte), (s.dev.reg 0).remote = some r → r.target = src.toNat →
       h.toNat / 2 ^ 80 = r.header / 2 ^ 80 → (s.dev.reg 0).irq % 2 = 0 →
       exec (.mgmtResponse src h data) s = .next { s with
         dev := s.dev.setReg 0 { s.dev.reg 0 with
           state := 2, rspHdr := h.toNat, rspData := hostPut (s.dev.reg 0).rspData 0 (data.take (rqLength h.toNat))
           waiting := none, remote := none } })) ∧
  (∀ (s : State) (f : FunctionId) (q : QueueId) (v : BitVec 32), s.dev.life = .on → s.dev.hostUp = true →
     (v.toNat < s.dev.sqSize q.val → s.dev.sqFunction q.val = f.val →
       exec (.sqTail f q v) s = .next { s with dev := s.dev.setSq q.val { s.dev.sq q.val with tail := v.toNat } }) ∧
     (s.dev.sqSize q.val ≤ v.toNat ∨ s.dev.sqFunction q.val ≠ f.val →
       exec (.sqTail f q v) s = .next { s with dev := s.dev.bump 0x80E0 5 0 1 }) ∧
     (v.toNat < s.dev.cqSize q.val → s.dev.cqFunction q.val = f.val →
       let d1 := s.dev.setCq q.val { s.dev.cq q.val with head := v.toNat }
       exec (.cqHead f q v) s = .next { s with dev := d1.flushHeldCq.cqVectors d1 } ∧
         (s.dev.heldCq = [] → ∃ t, exec (.cqHead f q v) s = .next t ∧ t.dev.cqs = d1.cqs ∧ t.dev.heldCq = [] ∧ t.dev.mem = s.dev.mem ∧
           t.dev.hostMem = s.dev.hostMem)) ∧
     (s.dev.cqSize q.val ≤ v.toNat ∨ s.dev.cqFunction q.val ≠ f.val →
       exec (.cqHead f q v) s = .next { s with dev := s.dev.bump 0x80E0 5 0 1 }))

/-- O36, tier 1, derived. The host accesses cistern memory through BAR 2 where it may, and is refused with all ones where
not; an access waits while a refresh slot runs. From spec/02_stroke.md (R30); spec/16_control.md (R371, R381);
spec/17_priming_security.md (R388); spec/11_memory_fabric.md (R243). Model's choices in it: log 36. -/
def Obligations.HostAccessesThroughBar2 : Prop :=
  ∀ (s : State) (f : FunctionId) (off : BitVec 41), s.dev.life = .on → s.dev.hostUp = true →
    let a := s.dev.bar2Addr f.val off.toNat
    (∀ (n : Fin 4097) (ecc : List EccFinding),
      (s.dev.slotOn = true → a < cisternEnd → exec (.hostBar2Read f off n ecc) s = .next { s with
        dev := { s.dev with slotHeld := s.dev.slotHeld ++ [.hostBar2Read f off n ecc] } }) ∧
      (s.dev.slotOn = false → s.dev.hostRefused f.val a n.val = true → exec (.hostBar2Read f off n ecc) s = .next { s with
        dev := (s.dev.bump 0x80E0 6 0 1).emit (.hostRead f.val (List.replicate n.val 0xFF#8) false) }) ∧
      (s.dev.slotOn = false → s.dev.hostRefused f.val a n.val = false → a + n.val ≤ cisternEnd → a < cisternEnd → (∀ i, i < n.val → s.dev.primeOf (64 + s.dev.cisternOf (a + i)) = 1) →
        exec (.hostBar2Read f off n []) s = .next { s with
          dev := (s.dev.tickFree).emit (.hostRead f.val ((List.range n.val).map fun i => s.dev.memNow.byte (a + i)) (s.dev.memNow.anyPoison a n.val)) })) ∧
    (∀ bs : List Byte,
      (s.dev.slotOn = true → a < cisternEnd → exec (.hostBar2Write f off bs) s = .next { s with
        dev := { s.dev with slotHeld := s.dev.slotHeld ++ [.hostBar2Write f off bs] } }) ∧
      (s.dev.slotOn = false → s.dev.hostRefused f.val a bs.length = true → exec (.hostBar2Write f off bs) s = .next { s with dev := s.dev.bump 0x80E0 6 0 1 }) ∧
      (s.dev.slotOn = false → s.dev.hostRefused f.val a bs.length = false → bs ≠ [] → a + bs.length ≤ cisternEnd →
        (s.dev.cisternsOf a bs.length).all (fun ci => s.dev.primeOf (64 + ci) == 1) = true →
        exec (.hostBar2Write f off bs) s = .next { s with dev := (s.dev.memStore a bs false).tickFree }))

/-- O37, tier 2, derived. Function resets, hot reset, link loss and PERST# reset what the functions own and nothing
else. From spec/16_control.md (R373); spec/17_priming_security.md (R382). Model's choices in it: log 81. -/
def Obligations.FunctionResetsReachWhatTheFunctionsOwn : Prop :=
  ∀ s : State, s.dev.life = .on → s.dev.hostUp = true →
    (∀ f : FunctionId, f.val ≠ 0 → ∃ t, exec (.functionLevelReset f) s = .next t ∧ t.clk = s.clk ∧ FunctionsReset s.clk [f.val] s.dev t.dev) ∧
    (∀ i ∈ [Instr.functionLevelReset 0, .hotReset, .pcieLinkLoss, .perstN false], ∃ t, exec i s = .next t ∧ t.clk = s.clk ∧
      FunctionsReset s.clk (List.range 9) s.dev t.dev) ∧
    exec (.perstN true) s = .next { s with dev := { s.dev with perstHigh := true } }

/-- O38, tier 1, derived. A full reset loses everything but flash, fuses, lands and its cause; lockouts remove power;
release starts the module. From spec/17_priming_security.md (R382); spec/18_faults.md (R415); spec/19_power_cooling.md
(R425, R426, R427). Model's choices in it: log 8, 49, 50. -/
def Obligations.FullResetsLoseAllButWhatSurvives : Prop :=
  ∀ (s : State),
    (∀ cause, s.dev.flashOp = none → s.resetBy cause = { State.reset with
        pending := s.pending
        dev := { State.reset.dev with
          life := .held cause, resetCause := s.dev.resetCause, flash := s.dev.flash, fusedSvn := s.dev.fusedSvn, keyRevoked := s.dev.keyRevoked
          hostMem := s.dev.hostMem, resetPinHigh := s.dev.resetPinHigh, perstHigh := s.dev.perstHigh, tap := s.dev.tap
          freeCtr := s.dev.freeCtr + 1, out := s.dev.out ++ [.flashReset true] } }) ∧
    (s.dev.life ≠ .off → exec (.moduleResetN false) s = .next
      { s.resetBy .resetPin with dev := { (s.resetBy .resetPin).dev with resetPinHigh := false } }) ∧
    (s.dev.life = .on ∨ s.dev.life = .fatal → s.dev.resetAsked = true → exec .fullReset s = .next (s.resetBy .command)) ∧
    (s.dev.life = .fatal → s.dev.resetAsked = false → s.dev.v 0x7200 4 0 = 1 → exec .fullReset s = .next (s.resetBy .fatal)) ∧
    (s.dev.life = .on → s.dev.resetAsked = false → exec .fullReset s = .next s) ∧
    (∀ cause straps, s.dev.life = .held cause → s.dev.resetPinHigh = true → exec (.resetRelease straps) s = .next
      { s with clk := {}, dev := s.dev.released cause straps.val }) ∧
    (∀ straps, s.dev.resetPinHigh = false → exec (.resetRelease straps) s = .next s) ∧
    (∀ i ∈ [Instr.undervoltageLockout, .overvoltageLockout], s.dev.life ≠ .off → exec i s = .next { s with clk := {}, dev := s.dev.unpowered }) ∧
    (∀ volts, s.dev.life = .off → 40 ≤ f32Rat volts.toNat → exec (.powerOn volts) s = .next { s with dev := { s.dev with life := .held .powerOn } }) ∧
    (∀ volts, s.dev.life ≠ .off ∨ f32Rat volts.toNat < 40 → exec (.powerOn volts) s = .next s)

/-- O39, tier 1, derived. Boot tries the preferred slot first, priming ends once, flash operations end, reports replace
the old one. From spec/17_priming_security.md (R383, R386, R388, R389, R391, R393, R394, R398, R399). Model's choices
in it: log 30, 38, 50. -/
def Obligations.BootPrimingFlashAndReports : Prop :=
  (∀ (s : State) (ea eb : Bool), s.dev.life = .on →
     let res := fun slot => s.dev.slotResult slot (if slot = 0 then ea else eb)
     (s.dev.boot.done = true → exec (.bootRom ea eb) s = .next s) ∧
     (s.dev.boot.done = false → ∃ t, exec (.bootRom ea eb) s = .next t ∧ t.clk = s.clk ∧ t.dev.boot.done = true ∧
       (res s.dev.preferred = 0 → t.dev.boot.slot = some s.dev.preferred ∧ t.dev.boot.recovery = false ∧ t.dev.prime = s.dev.prime) ∧
       (res s.dev.preferred ≠ 0 → res (1 - s.dev.preferred) = 0 → t.dev.boot.slot = some (1 - s.dev.preferred) ∧
         t.dev.boot.recovery = false ∧ t.dev.prime = s.dev.prime) ∧
       (res 0 ≠ 0 → res 1 ≠ 0 → t.dev.boot.recovery = true ∧ t.dev.boot.slot = none ∧ t.dev.boot.resultA = res 0 ∧ t.dev.boot.resultB = res 1 ∧
         ∀ k, t.dev.primeOf k = if k ∈ recoveryFaults then 2 else s.dev.primeOf k))) ∧
  (∀ (s : State) (fn : PrimeFn), s.dev.life = .on →
     (s.dev.mayPrime fn = false → ∀ ok, exec (.primingComplete fn ok) s = .next s) ∧
     (s.dev.mayPrime fn = true →
       let d1 := fun code : Nat => ({ s.dev with prime := SMap.put (fun _ => 0) s.dev.prime (primeKey fn) code } : Dev)
       (∀ code k, (d1 code).primeOf k = if k = primeKey fn then code else s.dev.primeOf k) ∧
       (fn = .security → exec (.primingComplete fn false) s = .next { s with dev := { d1 2 with identity := 3 } }) ∧
       (∀ h, fn = .hdie h → ∃ t, exec (.primingComplete fn false) s = .next t ∧ t.dev.servesOnly = true ∧ t.dev.prime = (d1 2).prime ∧
         t.dev.mem = s.dev.mem ∧ (∀ p, p < 32 → (t.dev.port p).state = .down ∨ (t.dev.port p).state = .disabled) ∧
         (∀ p, p < 32 → t.dev.portUsable p = false) ∧
         (s.clk.upstream = none → t.clk = s.clk)) ∧
       (fn ≠ .security → (∀ h, fn ≠ .hdie h) → exec (.primingComplete fn false) s = .next { s with dev := d1 2 }) ∧
       (fn = .stroke → exec (.primingComplete fn true) s = .next { s with clk := { s.clk with sync := .locked }, dev := d1 1 }) ∧
       (fn = .security → exec (.primingComplete fn true) s = .next { s with dev := { d1 1 with identity := (d1 1).identityMatch } }) ∧
       (∀ p, fn = .port p → exec (.primingComplete fn true) s = .next { s with dev := (d1 1).trainIf p.val }) ∧
       (∀ ci, fn = .cistern ci → exec (.primingComplete fn true) s = .next { s with dev := (d1 1).resume s.clk }) ∧
       (fn = .mgmt → (∀ f, (s.dev.reg f).waiting = none) → exec (.primingComplete fn true) s = .next { s with dev := d1 1 }) ∧
       (fn = .pcie ∨ (∃ h, fn = .hdie h) ∨ (∃ cl, fn = .cluster cl) → exec (.primingComplete fn true) s = .next { s with dev := d1 1 }))) ∧
  (∀ (s : State) (o : FlashOp), s.dev.life = .on ∨ s.dev.life = .fatal → s.dev.flashOp = some o →
     (∀ ok, ∃ t, exec (.flashOpDone ok) s = .next t ∧ t.dev.flashOp = none ∧ t.dev.v 0x9010 4 0 = (if ok then 2 else 4) ∧ t.clk = s.clk) ∧
     (o.op = 1 → ∃ t, exec (.flashOpDone true) s = .next t ∧ t.dev.flash = s.dev.flash ∧
       ∀ i, i < 4096 → t.dev.v 0x9010 2 i = (s.dev.flashByte (o.offset + i)).toNat) ∧
     (o.op = 2 → ∃ t, exec (.flashOpDone true) s = .next t ∧
       ∀ a, t.dev.flashByte a = if o.offset ≤ a ∧ a < o.offset + 4096 then o.data.getD (a - o.offset) 0#8 else s.dev.flashByte a) ∧
     (o.op = 3 → ∃ t, exec (.flashOpDone true) s = .next t ∧
       ∀ a, t.dev.flashByte a = if o.offset ≤ a ∧ a < o.offset + 65536 then 0xFF#8 else s.dev.flashByte a)) ∧
  (∀ s : State, s.dev.life = .on →
     (s.dev.attest.forming = [] → exec .attestReportReady s = .next s) ∧
     (∀ body rest, s.dev.attest.forming = body :: rest → ∃ t, exec .attestReportReady s = .next t ∧
       t.dev.attest.forming = rest ∧ t.dev.attest.report.take body.length = body ∧ t.dev.attest.report.length = body.length + 64 ∧
       t.clk = s.clk ∧ t.dev.attest.asked = s.dev.attest.asked))

/-- O40, tier 2, derived. The power controller's current slews within its bound, its duty stays between 1 and 64, and a
low supply warns. From spec/19_power_cooling.md (R430, R432, R433, R434). Model's choices in it: log 31, 45. -/
def Obligations.PowerTargetsStayWithinTheirBounds : Prop :=
  ∀ (s : State) (m : PowerIn), s.dev.life = .on →
    let v := f32Rat m.volts.toNat
    let p := s.dev.power
    let slewed := s.dev.slewPerUs
    ∃ t, exec (.powerControlTick m) s = .next t ∧ t.clk = s.clk ∧
      t.dev.power.current ≤ p.current + slewed ∧
      (p.current * v ≤ p.thermal → p.current * v ≤ (if p.warning = true ∨ v < 40 then min s.dev.warnCap (115 * v) else 4600) →
        p.current - slewed ≤ t.dev.power.current) ∧
      1 ≤ t.dev.power.duty ∧ t.dev.power.duty ≤ 64 ∧ 0 ≤ t.dev.power.ballast ∧
      t.dev.power.warning = (p.warning || decide (v < 40)) ∧ t.dev.power.thermal = p.thermal ∧
      t.dev.mem = s.dev.mem ∧ t.dev.cores = s.dev.cores ∧ t.dev.ctxs = s.dev.ctxs

/-- O41, tier 1, derived. Supply warnings end above 41 V, temperatures throttle or shut down, the coolant is watched.
From spec/19_power_cooling.md (R426, R437, R438). Model's choices in it: log 45, 87. -/
def Obligations.PowerAndCoolantAreWatched : Prop :=
  (∀ s : State, s.dev.life = .on →
     (41 < f32Rat (s.dev.v 0x8100 1 0) → exec .supplyWarningExit s = .next { s with dev := { s.dev with power := { s.dev.power with warning := false } } }) ∧
     (f32Rat (s.dev.v 0x8100 1 0) ≤ 41 → exec .supplyWarningExit s = .next s)) ∧
  (∀ s : State,
     (∀ t, thermalShutdown t = true → s.dev.life ≠ .off → exec (.thermalSample t) s = .next { s with clk := {}, dev := s.dev.unpowered }) ∧
     (s.dev.life = .on →
       (∀ t, thermalShutdown t = false → ∃ u, exec (.thermalSample t) s = .next u ∧ u.clk = s.clk ∧ u.dev.mem = s.dev.mem ∧
         u.dev.power.throttling = (anyAtLeast t.die 100 || anyAtLeast t.logic 100 || anyAtLeast t.dram 95) ∧
         u.dev.power.thermal = s.dev.power.thermal ∧
         (s.clk.extended = false → s.dev.power.hot = none → u.dev.power.hot = (thermalOver85 t).map fun ci => (ci, nextTurnover s.clk))) ∧
       (s.dev.power.throttling = true → exec .thermalLimitStep s = .next { s with
         dev := { s.dev with power := { s.dev.power with thermal := max 0 (s.dev.power.thermal - s.dev.powerCap / 50) } } }) ∧
       (s.dev.power.throttling = false → s.dev.power.released = true → exec .thermalLimitStep s = .next { s with
         dev := { s.dev with power := { s.dev.power with thermal := min 4600 (s.dev.power.thermal + s.dev.powerCap / 100) } } }) ∧
       (s.dev.power.throttling = false → s.dev.power.released = false → exec .thermalLimitStep s = .next s))) ∧
  (∀ (s : State) (i o f : F32), s.dev.life = .on → ∃ t, exec (.coolantSample i o f) s = .next t ∧ t.clk = s.clk ∧
     t.dev.v 0x8100 0xD 0 = i.toNat ∧ t.dev.v 0x8100 0xE 0 = o.toNat ∧ t.dev.v 0x8100 0xF 0 = f.toNat ∧
     (17 ≤ f32Rat i.toNat → f32Rat i.toNat ≤ 45 → 6 ≤ f32Rat f.toNat → f32Rat f.toNat ≤ 10 →
       t.dev.power = { s.dev.power with
         coolantGood := min (s.dev.power.coolantGood + 1) 1000
         coolantOk := s.dev.power.coolantOk || decide (1000 ≤ s.dev.power.coolantGood + 1) }) ∧
     (f32Rat i.toNat < 17 ∨ 45 < f32Rat i.toNat ∨ f32Rat f.toNat < 6 ∨ 10 < f32Rat f.toNat →
       t.dev.power = { s.dev.power with coolantGood := 0, coolantOk := false }))

/-- O42, tier 1, derived. The test port's intrusive instructions need MODULE_RESET_N low, act as BYPASS otherwise, and
reach no state of the dies. From spec/20_module.md (R450, R451). Model's choices in it: log 83. -/
def Obligations.TestPortInstructionsNeedTheReset : Prop :=
  ∀ s : State, s.dev.life ≠ .off → s.dev.tap.trst = true →
    let went := fun (i : TapInstr) (out : List Output) => ({ s with dev := { s.dev with tap := { s.dev.tap with instr := i }, out := s.dev.out ++ out } } : State)
    (∀ x ∈ tapRows, (s.dev.resetPinHigh = false → exec x.1 s = .next (went x.2.1 (x.2.2 s.dev.tap))) ∧
      (s.dev.resetPinHigh = true → exec x.1 s = .next (went .bypass [.tdo [false]]))) ∧
    exec .bypass s = .next (went .bypass [.tdo [false]]) ∧
    exec .idcode s = .next (went .idcode [.tdo ((List.range 32).map fun i => Nat.testBit 0x104805AB i)]) ∧
    (∀ pins preload, exec (.samplePreload pins preload) s = .next { s with
      dev := { s.dev with
        tap := { s.dev.tap with instr := .samplePreload, captured := pins, preload := preload }, out := s.dev.out ++ [.tdo pins] } }) ∧
    (∀ level, exec (.trstN level) s = .next { s with dev := { s.dev with tap := { s.dev.tap with trst := level, instr := .idcode } } }) ∧
    (s.dev.resetPinHigh = false → s.dev.tap.instr ∈ tapRows.map (·.2.1) → exec (.moduleResetN true) s = .next { s with
      dev := { s.dev with resetPinHigh := true, tap := { s.dev.tap with instr := .idcode } } })

/-- O43, tier 1, derived. A dead control processor or bridge stops the module; a hung unit's reset clears it or
disables its cluster. From spec/18_faults.md (R413, R414, R415). Model's choices in it: log 91, 92. -/
def Obligations.FailuresStopOrDisable : Prop :=
  ((∀ (s : State) (kind : UnitKind) (unit : Nat), let e := s.dev.fatal s.clk kind unit
     e.life = .fatal ∧ e.moduleOk = false ∧ (∀ k, (e.ctx k).resident = false) ∧ (∀ p, p < 32 → (s.dev.port p).state ≠ .disabled → (e.port p).state = .down)) ∧
   (∀ s : State, s.dev.life = .on →
     (∀ cp, exec (.heartbeatTimeout cp) s = .next { s with dev := s.dev.fatal s.clk .controlProcessor cp.val }) ∧
     (∀ b n, n < 16 → exec (.bridgeFlitReplay b n) s = .next { s with dev := s.dev.bump 0x80F0 7 0 1 }) ∧
     (∀ b n, 16 ≤ n → exec (.bridgeFlitReplay b n) s = .next { s with dev := (s.dev.bump 0x80F0 7 0 1).fatal s.clk .bridge b.val }))) ∧
  (∀ (s : State) (u : UnitName), s.dev.life = .on →
     (u ∉ s.dev.unitResets → ∀ cleared, exec (.unitResetDone u cleared) s = .next s) ∧
     (u ∈ s.dev.unitResets →
       let d1 : Dev := { s.dev with unitResets := s.dev.unitResets.filter (· != u) }
       exec (.unitResetDone u true) s = .next { s with dev := d1 } ∧
       (∀ cl, unitCluster u = some cl → exec (.unitResetDone u false) s = .next { s with dev := d1.updCluster cl fun x => { x with disabled := true } }) ∧
       (∀ h, u = .hdie h → exec (.unitResetDone u false) s = .next { s with dev := d1.fatal s.clk .hdie h.val })))

/-- O44, tier 1, derived. The partner's signatures are kept for the verdict where lock-step is on and they come on its
port. From spec/18_faults.md (R420, R421). Model's choices in it: log 62. -/
def Obligations.SignaturesAreKeptForTheVerdict : Prop :=
  ∀ (s : State) (p : PortId) (bs : List Byte), s.dev.life = .on →
    (∀ x, signaturesOf bs = some x → s.dev.lsOn = true → p.val = s.dev.lsPort →
      exec (.lockstepSignatures p bs) s = .next { s with dev := { s.dev with ls := { s.dev.ls with theirs := some x } } }) ∧
    (signaturesOf bs = none ∨ s.dev.lsOn = false ∨ p.val ≠ s.dev.lsPort → exec (.lockstepSignatures p bs) s = .next s) ∧
    (bs.length ≠ 544 → signaturesOf bs = none)

/-- O45, tier 1, derived. A switch-over moves the wells out and in, and an abort ends with its context ABORTED. From
spec/15_contexts.md (R341, R343, R344, R350). Model's choices in it: log 26, 74, 76. -/
def Obligations.WellsSwitchAndAbortsEnd : Prop :=
  (∀ (s : State) (cl : ClusterId) (w : SwitchOver), s.dev.life = .on → (s.dev.cluster cl.val).switch = some w → s.clk.held = false →
     w.began ≤ s.clk.stroke → ¬(s.clk.stroke = w.began ∧ s.clk.stage ≠ .work ∧ s.clk.phase = 0) →
     let d1 := ((s.dev.spillOut cl.val w).spillIn cl.val w).updCluster cl.val fun y => { y with switch := none }
     (w.into = none → exec (.switchOverComplete cl) s = .next { s with dev := d1 }) ∧
     (∀ k, w.into = some k → s.clk.stage ≠ .work ∨ w.began < s.clk.stroke → ∃ t, exec (.switchOverComplete cl) s = .next t ∧
       t.clk = s.clk ∧ t.dev.mem = d1.mem ∧ (t.dev.cluster cl.val).switch = none ∧
       t.dev.ctx k = { d1.ctx k with switchLate := if s.clk.stage = .work then none else some s.clk.stroke }) ∧
     (∀ k, w.into = some k → s.clk.stage = .work → s.clk.stroke = w.began →
       exec (.switchOverComplete cl) s = .next { s with dev := (d1.startAllArmed k [cl.val]).goOn s.clk }) ∧
     (d1.cluster cl.val).switch = none ∧
     (∀ k, w.into = some k → bit ((s.dev.spillOut cl.val w).ctx k).spilled cl.val = false →
       ∀ i a, i < 8 → a < wellBytes → d1.mem.byte (wellBase (8 * cl.val + i) + a) = 0#8) ∧
     (∀ k, w.out = some k → w.into = none → bit (d1.ctx k).spilled cl.val = true ∧ (d1.ctx k).keptArmed = (s.dev.ctx k).keptArmed ++ w.armed)) ∧
  (∀ (s : State) (k : Fin 4096), s.dev.life = .on →
     ((s.dev.ctx k.val).state = .aborting → ∃ t, exec (.abortComplete k) s = .next t ∧
       t.dev.ctx k.val = { s.dev.ctx k.val with state := .aborted, removeAt := some (nextTurnover s.clk) } ∧ t.dev.v 0x3000 3 0 = 3 ∧
       (∀ j, j ≠ k.val → t.dev.ctx j = s.dev.ctx j) ∧ t.dev.mem = s.dev.mem ∧ t.clk = s.clk) ∧
     ((s.dev.ctx k.val).state ≠ .aborting → exec (.abortComplete k) s = .next s))

/-- O46, tier 1, derived. JOB_START is examined at the turnover: invalid ones fault, others start the job or note why
not. From spec/16_control.md (R378). Model's choices in it: log 75. -/
def Obligations.JobStartsAreExamined : Prop :=
  ∀ (s : State) (q : QueueId) (x : QCmd), s.JobAt q x →
    let p := envPayload x.env
    let at_ := ((s.dev.sq q.val).arrived.headD (s.clk.stroke, 0)).1
    (jobStartBad x.env = true → ∃ t, exec (.jobStart q) s = .next t ∧ { x with status := some .commandInvalid } ∈ t.dev.jobPosts ∧
      ⟨.commandInvalid, 0, .none, 0⟩ ∈ (t.dev.ctx x.ctx).statuses) ∧
    (jobStartBad x.env = false → ∀ st, s.dev.jobNote s.clk x.ctx at_ (fld p 255 192) (fld p 191 172) = some st →
      ∃ t, exec (.jobStart q) s = .next t ∧ { x with note := some st } ∈ t.dev.jobPosts ∧ t.dev.ctxs = s.dev.ctxs) ∧
    (jobStartBad x.env = false → s.dev.jobNote s.clk x.ctx at_ (fld p 255 192) (fld p 191 172) = none →
      ∃ t, exec (.jobStart q) s = .next t ∧ x ∈ t.dev.jobPosts ∧ (t.dev.ctx x.ctx).job = some ⟨fld p 255 192, bit p 171⟩ ∧
        ∀ j, j ≠ x.ctx → t.dev.ctx j = s.dev.ctx j)

/-- O47, tier 1, derived. Tagged packets wait for their stroke; Tridal messages reach their round, class 2 behind what a
full ingress keeps waiting; collective packets reach their node. From spec/02_stroke.md (R34); spec/08_tridal_dispatch.md
(R168, R170, R171, R172, R173, R181); spec/14_collectives.md (R323, R324, R326, R329). Model's choices in it: log 18, 19,
23. -/
def Obligations.TridalAndCollectivePacketsReachTheirUnit : Prop :=
  (∀ (s : State) (i : Instr), s.dev.life = .on → taggedRow i = true → s.clk.open = false →
     exec i s = .next { s with dev := { s.dev with heldIn := s.dev.heldIn ++ [i] } }) ∧
  (∀ (s : State) (m : TridalIn) (x : List Nat), s.dev.life = .on → s.clk.open = true →
     let h := m.header.toNat
     let r := s.dev.roundOf (thGroup h) (thRound h)
     let took := fun (d : Dev) => ({ s with dev := d.flowControl } : State)
     let free := s.dev.tridalWait = [] ∧ s.dev.ingressFull m = false
     let rows : List (Instr × Nat) := [(.demand m x, 1), (.demandEnd m x, 2), (.grant m, 3), (.grantEnd m, 4), (.rows m, 5), (.returnRows m, 6)]
     (∀ i ∈ rows, thType h ≠ i.2 → 1 ≤ thType h → thType h ≤ 6 → exec i.1 s = .next (took s.dev)) ∧
     (∀ i ∈ rows, thType h = 0 ∨ 7 ≤ thType h → exec i.1 s = .next (took (s.dev.bump 0x8060 7 0 1))) ∧
     (free → r = none → ∀ i ∈ rows, i.2 ≤ 2 → thType h = i.2 →
       exec i.1 s = .next (took { s.dev with tridalHeld := s.dev.tridalHeld ++ [(m, x)] })) ∧
     (r = none → ∀ i ∈ rows, i.2 = 3 ∨ i.2 = 4 → thType h = i.2 → exec i.1 s = .next (took s.dev)) ∧
     (∀ k, r = some k →
       (free → thType h = 1 → exec (.demand m x) s = .next (took ((s.dev.takeDemand k m x).roundGo s.clk k.cmd))) ∧
       (free → thType h = 2 → exec (.demandEnd m x) s = .next (took ((s.dev.takeDemand k m x).roundGo s.clk k.cmd))) ∧
       (thType h = 3 → let k1 := { k with grants := k.grants ++ (bodyEntries m 8).map fun e => (thPass h, thSender h, e) }
         exec (.grant m) s = .next (took ((s.dev.setRound k1).roundGo s.clk k1.cmd))) ∧
       (thType h = 4 → let k1 := { k with grantEnds := k.grantEnds ++ [(thPass h, thSender h, leNat (m.body.take 4))] }
         exec (.grantEnd m) s = .next (took ((s.dev.setRound k1).roundGo s.clk k1.cmd)))) ∧
     (free → thType h = 5 → exec (.rows m) s = .next (took ((s.dev.rowsIn s.clk m).goOn s.clk))) ∧
     (free → thType h = 6 → exec (.returnRows m) s = .next (took ((s.dev.rowsIn s.clk m).goOn s.clk))) ∧
     (¬free → ∀ i ∈ rows, i.2 ≤ 2 → thType h = i.2 →
       exec i.1 s = .next (took { s.dev with tridalWait := s.dev.tridalWait ++ [(m, x)] })) ∧
     (¬free → ∀ i ∈ rows, 5 ≤ i.2 → thType h = i.2 →
       exec i.1 s = .next (took (({ s.dev with tridalWait := s.dev.tridalWait ++ [(m, [])] } : Dev).goOn s.clk))) ∧
     (r = none → s.dev.rowsIn s.clk m = s.dev.bump 0x8060 7 0 1)) ∧
  (∀ (s : State) (m : CollIn) (seen : Option ArithStep) (lost : Bool), s.dev.life = .on → s.clk.open = true →
     let op := chOp m.header.toNat
     let took := fun (d : Dev) => ({ s with dev := d.flowControl } : State)
     let rows : List (Instr × Nat × CollSeen) := [(.up m ⟨seen, lost⟩, 1, ⟨m, seen, lost⟩), (.down ⟨m, lost⟩, 2, ⟨m, none, lost⟩),
       (.poisonNotice m, 3, ⟨m, none, false⟩), (.confirm m, 4, ⟨m, none, false⟩), (.verdict m, 5, ⟨m, none, false⟩)]
     ∀ i ∈ rows,
       (op ≠ i.2.1 → 1 ≤ op → op ≤ 5 → exec i.1 s = .next (took s.dev)) ∧
       (op = i.2.1 ∨ op = 0 ∨ 5 < op → s.dev.collSlot m = none → exec i.1 s = .next (took (s.dev.bump 0x80C0 6 0 1))) ∧
       (op = i.2.1 → ∀ slot, s.dev.collSlot m = some slot →
         let d := if op ≤ 2 then s.dev.bump 0x80C0 3 (((s.dev.group slot).map fun g => g.self.hdie).getD 0) (collPayload m.body.length) else s.dev
         (s.clk.stage = .work → exec i.1 s = .next (took ((d.collDeliver s.clk slot i.2.2).startAllsums s.clk))) ∧
         (s.clk.stage = .deadline → exec i.1 s = .next (took { d with collHeld := d.collHeld ++ [i.2.2] }))))

/-- O48, tier 1, derived. Remote loads, stores, atomics and signals are served where they may, wait for a cistern that
primes or refreshes, and are else refused without effect. From spec/11_memory_fabric.md (R257, R258, R259, R263, R264);
spec/10_buckets_valves.md (R232). Model's choices in it: log 13, 20, 107. -/
def Obligations.RemoteRequestsAreServedOrRefused : Prop :=
  ∀ (s : State) (m : MemReq) (ecc : List EccFinding), s.dev.life = .on → s.clk.open = true →
    let bar := fun (a n : Nat) (r : RemoteRight) => s.dev.remoteBar m.src.toNat m.partition.val a n r
    let does := fun (d : Dev) => exec (.memReq ⟨m, ecc⟩) s = .next { s with dev := d.flowControl }
    let waits := does { s.dev with heldIn := s.dev.heldIn ++ [.memReq ⟨m, ecc⟩] }
    (∀ a n, m.kind = .load a n →
      (bar a.toNat n.val .load = none → ∀ e, e = s.dev.eccAll s.clk none ecc →
        does (e.answer s.clk m (.data (e.memNow.read a.toNat n.val) (e.memNow.anyPoison a.toNat n.val)))) ∧
      (bar a.toNat n.val .load = some .waits → waits) ∧
      (bar a.toNat n.val .load = some .denied → does ((s.dev.bump 0x8090 3 0 1).answer s.clk m .denied))) ∧
    (∀ a data p, m.kind = .store a data p →
      (bar a.toNat data.length .store = none → does ((s.dev.memStore a.toNat data p).answer s.clk m .ack)) ∧
      (bar a.toNat data.length .store = some .waits → waits) ∧
      (bar a.toNat data.length .store = some .denied → does ((s.dev.bump 0x8090 3 0 1).answer s.clk m .denied))) ∧
    (∀ aop size64 a x y seq, m.kind = .atomic aop size64 a x y seq →
      let d := (s.dev.atomicNumber m.src.toNat seq.toNat).1
      let n := (s.dev.atomicNumber m.src.toNat seq.toNat).2
      let e := d.eccAll s.clk none ecc
      (bar a.toNat (atomicBytes size64) .atomic = none →
        does (e.atomicIn s.clk m aop.val size64 a.toNat x.toNat y.toNat seq.toNat n) ∧
        (∀ c w, s.dev.respCache m.src.toNat = some c → SMap.get (fun _ => none) c.entries (seq.toNat % 64) = some (seq.toNat, w) →
          does ((e.bump 0x8090 5 0 1).answer s.clk m (.old (BitVec.ofNat 64 w) (bit w 64)))) ∧
        (s.dev.respCache m.src.toNat = none → 4096 ≤ s.dev.respCaches.length ∨ 65536 ≤ n → does (e.answer s.clk m .atomicRefused))) ∧
      (bar a.toNat (atomicBytes size64) .atomic = some .waits → waits) ∧
      (bar a.toNat (atomicBytes size64) .atomic = some .denied → does ((d.bump 0x8090 3 0 1).answer s.clk m .denied))) ∧
    (∀ v k, m.kind = .signal v k →
      let holder := (s.dev.cluster (v.val / 512)).holder
      (∀ p, s.dev.clusterOwner (v.val / 512) = some p → remoteSignalOk s.dev.remoteEntries m.src.toNat m.partition.val p = true →
        s.dev.clusterFaulted (v.val / 512) = false →
        (∀ j, holder = some j → does (((s.dev.valveTouch j v.val false).addSignal holder v.val k.toNat).answer s.clk m .ack)) ∧
        (holder = none → does ((s.dev.addSignal none v.val k.toNat).answer s.clk m .ack))) ∧
      (s.dev.clusterOwner (v.val / 512) = none ∨ s.dev.clusterFaulted (v.val / 512) = true ∨
        (∃ p, s.dev.clusterOwner (v.val / 512) = some p ∧ remoteSignalOk s.dev.remoteEntries m.src.toNat m.partition.val p = false) →
        does ((s.dev.bump 0x8080 9 0 1).answer s.clk m .valveDenied)))

/-- O49, tier 1, derived. A response ends its request with its result, and timeouts repeat or fail it. From
spec/11_memory_fabric.md (R259, R264, R265, R267); spec/13_rolkan.md (R307). Model's choices in it: log 11. -/
def Obligations.RequestsEndByAnswerOrTimeout : Prop :=
  (∀ (s : State) (m : MemResp) (r : Req), s.dev.life = .on → s.clk.open = true → m.ecnEcho = false →
     s.dev.reqOf m.src.toNat m.e2e.toNat = some r →
     let does := fun (d : Dev) => exec (.memResp m) s = .next { s with dev := d.flowControl }
     (∀ bs p x, m.kind = .data bs p → r.load = some x → does ((s.dev.bytesArrive r x.1 bs p).goOn s.clk)) ∧
     (m.kind = .ack → r.load = none → does ((s.dev.storeDone r).goOn s.clk)) ∧
     (∀ w p h1 h2 h3 q sz ad u v n, m.kind = .old w p → r.content = .memReq ⟨h1, h2, h3, .atomic q sz ad u v n⟩ →
       does ((s.dev.bytesArrive r ad.toNat (natLe (atomicBytes sz) w.toNat) p).goOn s.clk)) ∧
     (m.kind = .denied → does ((s.dev.reqFail r .remoteAccessDenied).goOn s.clk)) ∧
     (m.kind = .valveDenied → does ((s.dev.reqFail r .valveAccessFault).goOn s.clk)) ∧
     (m.kind = .atomicRefused → does ((s.dev.reqFail r .atomicRefused).goOn s.clk)) ∧
     (m.kind = .noRoute → does (((s.dev.bump 0x80B0 7 0 1).reqFail r r.noRouteStatus).goOn s.clk))) ∧
  (∀ (s : State) (g : Geid) (e : BitVec 16), s.dev.life = .on →
     (∀ r, s.dev.reqOf g.toNat e.toNat = some r →
       (∀ id, r.owner = .atomic id → exec (.atomicReplyTimeout g e) s = .next { s with dev := (s.dev.reqFail r .indeterminate).goOn s.clk } ∧
         exec (.requestReplyTimeout g e) s = .next s) ∧
       ((∀ id, r.owner ≠ .atomic id) → exec (.requestReplyTimeout g e) s = .next { s with dev := (s.dev.reqFail r .targetUnreachable).goOn s.clk } ∧
         exec (.atomicReplyTimeout g e) s = .next s) ∧
       (s.clk.stage = .work → r.load.isNone = true → r.owner.loadKey.isSome = true → (s.dev.resend s.clk r).2 = true →
         exec (.atomicRetransmit g e) s = .next { s with
           dev := ({ (s.dev.resend s.clk r).1 with
             reqs := (s.dev.resend s.clk r).1.reqs.map fun x => if x.id = r.id then { x with retransmitted := true } else x } : Dev).bump 0x8090 6 0 1 }) ∧
       (s.clk.stage = .work → r.load.isSome = true → (s.dev.resend s.clk r).2 = true →
         exec (.loadRetransmit g e) s = .next { s with
           dev := { (s.dev.resend s.clk r).1 with
             reqs := (s.dev.resend s.clk r).1.reqs.map fun x => if x.id = r.id then { x with retransmitted := true } else x } }) ∧
       (s.clk.stage ≠ .work → exec (.atomicRetransmit g e) s = .next s ∧ exec (.loadRetransmit g e) s = .next s)) ∧
     (s.dev.reqOf g.toNat e.toNat = none →
       (∀ i ∈ [Instr.atomicReplyTimeout g e, .atomicRetransmit g e, .loadRetransmit g e], exec i s = .next s) ∧
       (∀ b, s.dev.sentBulks.find? (fun b => b.dest = g.toNat && b.e2e = e.toNat) = some b →
         exec (.requestReplyTimeout g e) s = .next { s with dev := s.dev.bulkEnds s.clk b (some .targetUnreachable) })))

/-- O50, tier 2, derived. Bulk transfers are applied in order without refused ranges and counted at the gateway that
received them; acknowledgements end them at the source. From spec/11_memory_fabric.md (R268, R269, R271). Model's choices in
it: log 61. -/
def Obligations.BulkTransfersApplyInOrder : Prop :=
  (∀ (s : State) (b : BulkIn) (g : HdieId), s.dev.life = .on → s.clk.open = true → s.dev.bulkHeld = [] →
     let n := SMap.get (fun _ => 0) s.dev.bulkSeen b.src.toNat
     let d : Dev := { s.dev with bulkHeld := [(b, g)] }
     let bar := fun (r : BulkRange) => s.dev.remoteBar b.src.toNat b.partition.val r.addr.toNat r.data.length .store
     (b.seq.toNat ≠ n → exec (.bulk ⟨b, g⟩) s = .next { s with dev := d.flowControl }) ∧
     (b.seq.toNat = n → (∃ r ∈ b.ranges, bar r = some .waits) → exec (.bulk ⟨b, g⟩) s = .next { s with dev := d.flowControl }) ∧
     (b.seq.toNat = n → (∀ r ∈ b.ranges, bar r ≠ some .waits) →
       ∃ d1, d.bulkApply s.clk b g.val = some d1 ∧ exec (.bulk ⟨b, g⟩) s = .next { s with dev := ({ d1 with
         bulkHeld := [], bulkSeen := SMap.put (fun _ => 0) d1.bulkSeen b.src.toNat ((n + 1) % 65536) } : Dev).flowControl }) ∧
     (∀ r, b.ranges = [r] → bar r ≠ some .waits →
       let d1 := if (bar r).isSome then d.bump 0x8090 3 0 1 else d.memStore r.addr.toNat r.data r.poison
       d.bulkApply s.clk b g.val = some ((d1.bump 0x8090 8 g.val (bulkBytes b.ranges)).respond s.clk
         b.src.toNat b.seq.toNat (.bulkAck b.seq.toNat (bar r).isSome)))) ∧
  (∀ (s : State) (g : Geid) (seq : BitVec 16), s.dev.life = .on →
     (s.clk.open = true → ∀ b, s.dev.sentBulks.find? (fun b => b.dest = g.toNat && b.seq = seq.toNat) = some b → ∀ denied,
       exec (.bulkAck g seq denied false) s = .next { s with
         dev := (s.dev.bulkEnds s.clk b (if denied then some .remoteAccessDenied else none)).flowControl }) ∧
     (s.clk.open = true → s.dev.sentBulks.find? (fun b => b.dest = g.toNat && b.seq = seq.toNat) = none → ∀ denied,
       exec (.bulkAck g seq denied false) s = .next { s with dev := s.dev.flowControl }) ∧
     (∀ h : HdieId, exec (.bulkTransferClose h g) s = .next { s with
       dev := (s.dev.closeBulks s.clk fun b => b.hdie = h.val && b.dest = g.toNat).goOn s.clk }))

/-- O51, tier 1, derived. A router judges each packet in the manual's order, delivers or forwards it, and answers requests
without a route, also under a table's parity error. From spec/13_rolkan.md (R303, R306, R307, R308, R310, R311);
spec/02_stroke.md (R34); spec/18_faults.md (R412). Model's choices in it: log 11, 41, 42, 89. -/
def Obligations.RoutersJudgePacketsInOrder : Prop :=
  (∀ (s : State) (i : PortId) (pk : PacketSeen), s.dev.life = .on →
     let h := pk.packet.header.toNat
     let d0 := s.dev.tableSeen s.clk pk.tableParity
     let d := d0.setPort i.val ((d0.port i.val).carry (phDomain h))
     let sent := fun h' : Nat => (⟨h', .raw pk.packet.payload, none⟩ : Sent)
     let does := fun (d : Dev) => exec (.packetForward (some i) pk) s = .next { s with dev := d.flowControl }
     let drained := (d.port i.val).link.isSome && (d.link ((d.port i.val).link.getD 0)).discards (phDomain h)
     let kept := drained = false ∧ (phEpoch h = d.v 0x4010 5 0 ∨ phType h = 6)
     let taken := kept ∧ (phHops h ≠ 0 ∨ d.route h = .here)
     (drained = true → does (d.bump 0x80B0 0x0A 0 1)) ∧
     (drained = false → phEpoch h ≠ d.v 0x4010 5 0 → phType h ≠ 6 →
       does (d.bump 0x80B0 4 0 1)) ∧
     (kept → phHops h = 0 → d.route h ≠ .here → does (d.bump 0x80B0 5 0 1)) ∧
     (taken → tagCheck s.clk h = .discard → does (d.bump 0x8000 2 0 1)) ∧
     (taken → tagCheck s.clk h = .hold →
       does ({ d with heldIn := d.heldIn ++ [.packetForward (some i) ⟨pk.packet, none⟩] })) ∧
     (taken → tagCheck s.clk h = .pass → 8 ≤ phType h → does (d.bump 0x80B0 6 0 1)) ∧
     (taken → tagCheck s.clk h = .pass → phType h < 8 →
       (d.route h = .here → does (((d.owesEcho h).takeEcho s.clk h).emit (.loop (sent h)))) ∧
       (∀ l h', d.route h = .link l h' → ((d.link l).long = false ∨ longOk (phType h) = true) →
         does (d.sendOn l (sent h'))) ∧
       (∀ l h', d.route h = .link l h' → (d.link l).long = true → longOk (phType h) = false →
         does (d.noRoute s.clk h)) ∧
       (d.route h = .none → does (d.noRoute s.clk h)))) ∧
  (∀ (s : State) (pk : PacketSeen), s.dev.life = .on →
     let h := pk.packet.header.toNat
     let d := s.dev.tableSeen s.clk pk.tableParity
     let does := fun (d : Dev) => exec (.packetForward none pk) s = .next { s with dev := d.flowControl }
     (phGeidRoute h = true → phDest h = d.geid → does (d.emit (.loop ⟨h, .raw pk.packet.payload, none⟩))) ∧
     (∀ l h', d.route h = .link l h' → (phGeidRoute h = false ∨ phDest h ≠ d.geid) →
       ((d.link l).long = false ∨ longOk (phType h) = true) → does (d.sendOn l ⟨h', .raw pk.packet.payload, none⟩)) ∧
     (d.route h = .none → (phGeidRoute h = false ∨ phDest h ≠ d.geid) →
       ((phVc h / 2 ≠ 0 → phVc h / 2 ≠ 2 → does d) ∧
        (phVc h / 2 = 0 ∨ phVc h / 2 = 2 →
          (phSrc h = d.geid → does (d.bump 0x80B0 7 0 1)) ∧
          (phSrc h ≠ d.geid → does (d.respond s.clk (phSrc h) (phE2e h) (.memResp
            ⟨BitVec.ofNat 20 (if phGeidRoute h then phDest h else d.geid), BitVec.ofNat 16 (phE2e h), .noRoute, false⟩)))))))

/-- O52, tier 1, derived. Frames are taken in sequence, duplicates dropped, gaps and bad CRCs answered negatively, and
replays counted; a packet may span frames. From spec/13_rolkan.md (R291, R296, R308). Model's choices in it: log 12. -/
def Obligations.FramesAreTakenInSequence : Prop :=
  ∀ (s : State) (i : PortId) (f : FrameIn), s.dev.life = .on → s.clk.upstream = none →
    ((s.dev.port i.val).link = none → exec (.frame i f) s = .next { s with dev := s.dev.flowControl }) ∧
    (∀ l, (s.dev.port i.val).link = some l →
      let k := s.dev.link l
      (f.crcOk = false → exec (.frame i f) s = .next { s with dev := (s.dev.emit (.linkAck l k.rxSeq true)).flowControl }) ∧
      (f.crcOk = true →
        let rest := k.unacked.filter fun x => !ackedBy x.seq f.ack.toNat
        let d1 := s.dev.setLink l { k with unacked := rest, xoff := f.xoff.toNat }
        (f.nack = false ∨ rest = [] →
          let d2 := (d1.setPort i.val { d1.port i.val with
            replays := if rest.length < k.unacked.length then 0 else (s.dev.port i.val).replays }).flushLink l
          let k2 := d2.link l
          (f.seq.toNat = k2.rxSeq → exec (.frame i f) s = .next { s with
            dev := ((cutPackets 16 (k2.rx ++ f.data)).1.foldl (fun d pk => d.forward s.clk (some i) pk)
              ((d2.setLink l { k2 with rxSeq := (k2.rxSeq + 1) % 65536, rx := (cutPackets 16 (k2.rx ++ f.data)).2 }).emit
                (.linkAck l ((k2.rxSeq + 1) % 65536) false))).flowControl }) ∧
          (f.seq.toNat ≠ k2.rxSeq → ackedBy f.seq.toNat k2.rxSeq = true → exec (.frame i f) s = .next { s with dev := d2.flowControl }) ∧
          (f.seq.toNat ≠ k2.rxSeq → ackedBy f.seq.toNat k2.rxSeq = false →
            exec (.frame i f) s = .next { s with dev := (d2.emit (.linkAck l k2.rxSeq true)).flowControl })) ∧
        (f.nack = true → rest ≠ [] → rest.length = k.unacked.length → (s.dev.port i.val).replays < 7 →
          let d2 := ((((d1.setPort i.val { d1.port i.val with replays := (s.dev.port i.val).replays + 1 }).emit
            (.replay l (rest.map (·.seq)))).bump 0x80B0 1 i.val rest.length).flushLink l)
          f.seq.toNat ≠ (d2.link l).rxSeq → ackedBy f.seq.toNat (d2.link l).rxSeq = true → exec (.frame i f) s = .next { s with dev := d2.flowControl }) ∧
        (f.nack = true → rest ≠ [] → rest.length = k.unacked.length → 7 ≤ (s.dev.port i.val).replays →
          let d2 := ((((d1.setPort i.val { d1.port i.val with replays := (s.dev.port i.val).replays + 1 }).emit
            (.replay l (rest.map (·.seq)))).bump 0x80B0 1 i.val rest.length).flushLink l)
          f.seq.toNat ≠ (d2.link l).rxSeq → ackedBy f.seq.toNat (d2.link l).rxSeq = true →
            exec (.frame i f) s = .next { s with dev := ((d2.portOut i.val).trainIf i.val).flowControl })))

/-- O53, tier 1, derived. Offers join or refuse a training port by R293, R294 and R308; a lost port leaves, and its
return trains it again. From spec/13_rolkan.md (R292, R293, R294, R295, R296, R308); spec/02_stroke.md (R26). Model's
choices in it: log 39, 43, 63. -/
def Obligations.PortsTrainAndLeave : Prop :=
  (∀ (s : State) (i : PortId) (bits : BitVec 128) (rtt : BitVec 32), s.dev.life = .on → s.clk.upstream = none →
     (s.dev.port i.val).state = .training →
     let d := s.dev.setPort i.val { s.dev.port i.val with signal := true }
     let d' := d.setPort i.val { d.port i.val with rtt := rtt.toNat }
     let b := bits.toNat
     let v := min (d.v 0x4000 3 0) (fld b 111 96)
     ((v < 1 ∨ v < fld b 127 112) → exec (.linkOffer i bits rtt) s = .next { s with dev := d'.refusePort i.val 1 }) ∧
     (1 ≤ v → fld b 127 112 ≤ v →
       (fld b 95 76 = d.geid → exec (.linkOffer i bits rtt) s = .next { s with
         dev := d'.refusePort i.val (if fld b 75 70 = d.v 0x4000 2 0 ∧ fld b 69 67 = d.straps then 3 else 2) }) ∧
       (fld b 95 76 ≠ d.geid →
         let d1 := d.setPort i.val { d.port i.val with
           state := .joining, partner := some (offerOf b), refusal := 0, version := v, rtt := rtt.toNat }
         (900 < rtt.toNat → 33554432 < d1.storeUsed (portHdie i.val) →
           exec (.linkOffer i bits rtt) s = .next { s with dev := d'.refusePort i.val 4 }) ∧
         (rtt.toNat ≤ 900 ∨ d1.storeUsed (portHdie i.val) ≤ 33554432 →
           exec (.linkOffer i bits rtt) s = .next { s with dev := d1 })))) ∧
  (∀ (s : State) (i : PortId), s.dev.life = .on →
     let d := (s.dev.setPort i.val { s.dev.port i.val with signal := false }).portOut i.val
     let e := s.dev.setPort i.val { s.dev.port i.val with signal := true }
     (s.clk.upstream = none → exec (.portDown i) s = .next { s with dev := d }) ∧
     (∀ u, s.clk.upstream = some u → (d.port u.val).link.isSome = true → exec (.portDown i) s = .next { s with dev := d }) ∧
     (∀ u, s.clk.upstream = some u → (d.port u.val).link = none →
       (∀ p : Fin 32, (d.port p.val).link = none) →
       exec (.portDown i) s = .next (if s.clk.sync = .locked then
           { s with clk := { s.clk with upstream := none, stepDue := none, sync := .holdover }, dev := d.bump 0x8000 3 0 1 }
         else { s with clk := { s.clk with upstream := none, stepDue := none }, dev := d })) ∧
     ((s.dev.port i.val).state ≠ .down → exec (.portSignalReturn i) s = .next { s with dev := e }) ∧
     ((s.dev.port i.val).state = .down → e.portUsable i.val = true → exec (.portSignalReturn i) s = .next { s with
       dev := (({ e with trained := true } : Dev).setPort i.val
         { e.port i.val with state := .training, partner := none, refusal := 0, replays := 0 }).emit
         (.offer i.val (e.offerBits i.val)) }) ∧
     ((s.dev.port i.val).state = .down → e.portUsable i.val = false → exec (.portSignalReturn i) s = .next { s with dev := e }))

/-- O54, tier 1, derived. A route load ends loaded or invalid in the shadow copy, with the image at the address it began
with; a drain ends on the partner's signal or on its time. From spec/13_rolkan.md (R305, R311). Model's choices in it:
log 32. -/
def Obligations.RouteLoadsAndDrainsEnd : Prop :=
  (∀ (s : State), s.dev.life = .on →
     (s.dev.routeLoad = none → exec .routeLoadDone s = .next s) ∧
     (∀ x, s.dev.routeLoad = some x →
       let d : Dev := { s.dev.tickFree with routeLoad := none }
       let m := imageSeen x.2 s.dev.mem x.1 s.dev.freeCtr
       (∀ t, readImage m x.1 = some t → exec .routeLoadDone s = .next { s with
         dev := ({ d with shadow := some t } : Dev).setV 0x4010 3 0 2 }) ∧
       (readImage m x.1 = none → exec .routeLoadDone s = .next { s with dev := ({ d with shadow := none } : Dev).setV 0x4010 3 0 3 })) ∧
     (∀ m base, base % 64 ≠ 0 → readImage m base = none)) ∧
  (∀ (s : State) (l : PortId) (dom : BitVec 12), s.dev.life = .on →
     let k := s.dev.link l.val
     let ended := fun (dr : Nat) (keep : List Nat) =>
       (k.ports.foldl (fun d p => d.setPort p { d.port p with domains := [] })
         (s.dev.setLink l.val { k with drains := k.drains.filter fun x => x.domain != dr
                                       partnerDrained := k.partnerDrained.filter (· != dr), keepDiscarding := keep })).flushLink l.val
     ((∃ dr ∈ k.drains, dr.domain = dom.toNat) → exec (.drainComplete l dom) s = .next { s with dev := ended dom.toNat k.keepDiscarding }) ∧
     ((∀ dr ∈ k.drains, dr.domain ≠ dom.toNat) →
       (k.ports ≠ [] → exec (.drainComplete l dom) s = .next { s with
         dev := s.dev.setLink l.val { k with partnerDrained := dedupe (k.partnerDrained ++ [dom.toNat]) } }) ∧
       (k.ports = [] → exec (.drainComplete l dom) s = .next s)) ∧
     (∀ dr rest, k.drains = dr :: rest → exec (.drainTimeout l) s = .next { s with
       dev := ended dr.domain (if k.keepDiscarding.contains dr.domain then k.keepDiscarding else k.keepDiscarding ++ [dr.domain]) }) ∧
     (k.drains = [] → exec (.drainTimeout l) s = .next s))

/-- O55, tier 1, derived. Walks fill the translation cache, absent pages are brought in from the reserve, scrubbers
read line after line. From spec/11_memory_fabric.md (R253, R254); spec/18_faults.md (R406, R407). Model's choices in
it: log 7, 22, 68. -/
def Obligations.TranslationsPagesAndScrubs : Prop :=
  (∀ (s : State) (cl : ClusterId) (k : Fin 4096) (va : BitVec 48) (store : Bool), s.dev.life = .on →
     let d := s.dev.bump 0x8090 1 cl.val 1
     let tlb := (s.dev.cluster cl.val).tlb
     (∀ b, d.locate k.val va.toNat store = .error b → exec (.translationWalkDone cl k va store) s = .next { s with dev := d }) ∧
     (∀ m, d.locate k.val va.toNat store = .ok m →
       let e := (k.val, va.toNat / 2 ^ m.bits)
       (tlb.contains e = true → exec (.translationWalkDone cl k va store) s = .next { s with dev := d }) ∧
       (tlb.contains e = false → tlb.length < 4096 → exec (.translationWalkDone cl k va store) s = .next { s with
         dev := d.updCluster cl.val fun x => { x with tlb := tlb ++ [e] } }) ∧
       (tlb.contains e = false → 4096 ≤ tlb.length → ∃ j < 4096, exec (.translationWalkDone cl k va store) s = .next { s with
         dev := d.tickFree.updCluster cl.val fun x => { x with tlb := tlb.set j e } }))) ∧
  (∀ (s : State) (k : Fin 4096) (va : BitVec 48) (ok : Bool), s.dev.life = .on →
     let p := (s.dev.ctx k.val).partition
     let walked := walk s.dev.mem (s.dev.share p) s.dev.straps (s.dev.ctx k.val).tableRoot va.toNat
     let left := s.dev.v (0x5300 + p) 3 0
     let brought := fun (a e f : Nat) =>
       (s.dev.memStore f (if fld e 61 60 = 2 then s.dev.hostBytes (fld e 47 0 * 65536) 65536 else List.replicate 65536 0#8) false).memStore a
         (natLe 8 (broughtEntry s.dev.straps e f)) false
     (∀ a e f, walked = .absent a e → s.dev.reserveNext p = some f → s.dev.badPages.contains (k.val, va.toNat / 65536) = false →
       (fld e 61 60 ≠ 2 ∨ ok = true → exec (.pageBroughtIn k va ok) s = .next { s with
         dev := ((((brought a e f).setV (0x5300 + p) 3 0 (left - 1)).bump 0x8090 2 p 1)).goOn s.clk }) ∧
       (fld e 61 60 = 2 → ok = false → exec (.pageBroughtIn k va ok) s = .next { s with
         dev := ({ s.dev with badPages := s.dev.badPages ++ [(k.val, va.toNat / 65536)] } : Dev).goOn s.clk })) ∧
     (s.dev.reserveNext p = none → exec (.pageBroughtIn k va ok) s = .next { s with dev := s.dev.goOn s.clk }) ∧
     (left = 0 → s.dev.reserveNext p = none)) ∧
  (∀ (s : State) (ci : CisternId), s.dev.life = .on →
     let n := SMap.get (fun _ => 0) s.dev.scrubAt ci.val
     let a := scrubLine s.dev.splits ci.val (n % cisternLines)
     let least := fun (m : SMap Nat) => (List.range 32).foldl (fun x i => min x (SMap.get (fun _ => 0) m i / cisternLines)) n.succ
     let at1 := SMap.put (fun _ => 0) s.dev.scrubAt ci.val (n + 1)
     let next := fun (d : Dev) => ({ d with scrubAt := at1 } : Dev).bump 0x80F0 6 0 (least at1 - least s.dev.scrubAt)
     let found := fun (d : Dev) => (d.tickFree).logStatus s.clk 9 (freeStatus d.freeCtr) (Config.freeChoice d.freeCtr % 4) a .cistern ci.val
     let struck := ({ s.dev with mem := s.dev.mem.setPoison (a / 64) true } : Dev).bump 0x80F0 2 ci.val 1
     ((s.dev.slotOn = true ∨ s.dev.v 0x7200 1 0 = 0 ∨ s.dev.primeOf (64 + ci.val) ≠ 1 ∨
       (s.clk.stage ≠ .work ∧ s.clk.stage ≠ .burstEnded ∧ s.clk.stage ≠ .valvesReset)) → ∀ x, exec (.scrub ci x) s = .next s) ∧
     (s.dev.v 0x7200 1 0 ≠ 0 → s.dev.primeOf (64 + ci.val) = 1 → s.dev.slotOn = false →
       (s.clk.stage = .work ∨ s.clk.stage = .burstEnded ∨ s.clk.stage = .valvesReset) →
       (s.dev.mem.poisoned a = false → exec (.scrub ci none) s = .next { s with dev := next s.dev } ∧
         exec (.scrub ci (some false)) s = .next { s with dev := next (s.dev.bump 0x80F0 1 ci.val 1) }) ∧
       (s.dev.mem.poisoned a = true → exec (.scrub ci none) s = .next { s with dev := next (found s.dev) }) ∧
       exec (.scrub ci (some true)) s = .next { s with dev := next (found struck) }))

/-- O56, tier 1, derived. A regulator window counts anew and lets held packets go while they have room; congestion echoes
cut a rate that steps recover. From spec/15_contexts.md (R336); spec/13_rolkan.md (R310). Model's choices in it: log 21,
44, 108. -/
def Obligations.WindowsAndRatesAreKept : Prop :=
  (∀ (s : State), s.dev.life = .on →
     let waited := dedupe (s.dev.regHeld.map fun x => phSrcPartition x.2.header)
     (s.dev.regHeld = [] → exec .regulatorWindow s = .next { s with dev := { s.dev with regSent := [] } }) ∧
     (∀ x, s.dev.regHeld = [x] →
       let d : Dev := { s.dev.bump 0x80D0 5 (2 * phSrcPartition x.2.header + 1) 1 with regSent := [] }
       (0 < s.dev.fabricAllowance (phSrcPartition x.2.header) → exec .regulatorWindow s = .next { s with
         dev := ({ d with regHeld := [] } : Dev).regPass x.1 x.2 }) ∧
       (s.dev.fabricAllowance (phSrcPartition x.2.header) = 0 → exec .regulatorWindow s = .next { s with dev := d })) ∧
     exec .regulatorWindow s = .next { s with
       dev := Dev.regServe s.dev.regHeld.length { waited.foldl (fun d p => d.bump 0x80D0 5 (2 * p + 1) 1) s.dev with regSent := [] } }) ∧
  (∀ (s : State) (g : Geid), s.dev.life = .on →
     (∀ i, rateIndex s.dev.rates (s.dev.sendHdie g.toNat) g.toNat = some i → ∀ e, s.dev.rates[i]? = some e →
       ((∀ t, e.lastCut = some t → s.dev.v 0x4020 4 0 ≤ nsSince s.clk t) → exec (.congestion g) s = .next { s with
         dev := ({ s.dev with rates := s.dev.rates.set i { e with
           rate := max (e.rate - e.rate / 2 ^ s.dev.v 0x4020 2 0) 1000, lastCut := some (s.clk.stroke, s.clk.phase) } } : Dev).bump 0x80B0 9 0 1 }) ∧
       (∀ t, e.lastCut = some t → nsSince s.clk t < s.dev.v 0x4020 4 0 → exec (.congestion g) s = .next s)) ∧
     (s.dev.rates = [] → ∃ t, exec (.congestion g) s = .next t ∧ t.dev.rates = [⟨s.dev.sendHdie g.toNat, some g.toNat,
         max (s.dev.v 0x4020 5 0 - s.dev.v 0x4020 5 0 / 2 ^ s.dev.v 0x4020 2 0) 1000, some (s.clk.stroke, s.clk.phase), 0⟩]) ∧
     (let d : Dev := { s.dev with
        rates := (s.dev.rates.map fun r => { r with rate := r.rate + s.dev.v 0x4020 3 0, sent := r.sent - r.rate }).filter
          fun r => decide (r.rate < s.dev.v 0x4020 5 0), shapeHeld := [] }
      (s.dev.shapeHeld = [] → exec .ecnRateStep s = .next { s with dev := d }) ∧
      (∀ x, s.dev.shapeHeld = [x] → exec .ecnRateStep s = .next { s with dev := d.shape x })) ∧
     (g.toNat ∈ s.dev.echoes → exec (.ecnEchoTimeout g) s = .next { s with dev := s.dev.respond s.clk g.toNat 0 .congestion }) ∧
     (g.toNat ∉ s.dev.echoes → exec (.ecnEchoTimeout g) s = .next s))

/-- O57, tier 2, stated. A token's selection list holds the first n experts of its row in the manual's rank order. From
R146. -/
def Obligations.SelectionListsAreRanked : Prop :=
  (∀ a b : Nat × Nat, aheadOf a b = true ↔
    ((f32 a.2).isNan = false ∧ (f32 b.2).isNan = true) ∨
    ((f32 a.2).isNan = false ∧ (f32 b.2).isNan = false ∧ Fp.lt (f32 b.2) (f32 a.2) = true) ∨
    ((Fp.eq (f32 a.2) (f32 b.2) = true ∨ ((f32 a.2).isNan = true ∧ (f32 b.2).isNan = true)) ∧ a.1 < b.1)) ∧
  ∀ (n : Nat) (scores : List Nat),
    let experts := List.zip (List.range scores.length) scores
    let r := rankRow n scores
    r.length = min n scores.length ∧ (∀ x ∈ r, x ∈ experts) ∧ r.Pairwise (fun x y => aheadOf x y = true) ∧
    (∀ x ∈ experts, x ∉ r → ∀ y ∈ r, aheadOf y x = true)

/-- O58, tier 2, derived. A write changes exactly its bytes and the poison of the lines it touches, and keeps memory
canonical. From spec/11_memory_fabric.md (R240, R241); spec/05_core.md (R104). -/
def Obligations.MemoryKeepsWhatIsWritten : Prop :=
  ∀ (m : Memory) (a : Nat) (bs : List Byte) (p : Bool),
    (∀ i, (h : i < bs.length) → (m.write a bs p).byte (a + i) = bs[i]) ∧
    (∀ j, j < a ∨ a + bs.length ≤ j → (m.write a bs p).byte j = m.byte j) ∧
    (∀ l, (m.write a bs p).poisoned (64 * l) =
      if a < 64 * l + 64 ∧ 64 * l < a + bs.length ∧ bs ≠ [] then
        (if p then true else if a ≤ 64 * l ∧ 64 * l + 64 ≤ a + bs.length then false else m.poisoned (64 * l))
      else m.poisoned (64 * l)) ∧
    (m.wf = true → (m.write a bs p).wf = true)

/-- O59, tier 2, derived. Every field of a packet header and of a link offer that the device composes reads back. From
spec/13_rolkan.md (R292, R300, R301). Model's choices in it: log 13. -/
def Obligations.HeadersAndOffersReadBack : Prop :=
  (∀ (d : Dev) (c : Clock) (a : HdrArgs), d.geid < 2 ^ 20 → d.v 0x4010 5 0 < 256 → a.cls < 4 →
    let h := d.header c a
    phType h = a.ptype.code ∧ phGeidRoute h = a.geidRoute ∧ phVc h = 2 * a.cls ∧ phEpoch h = d.v 0x4010 5 0 ∧
    phTagged h = a.ptype.tagged ∧ phTag h = (if a.ptype.tagged then c.stroke % 16 else 0) ∧ phEcn h = b2n a.capable ∧
    phEcho h = a.echo ∧ phDomain h = a.domain % 4096 ∧ phSrcPartition h = a.partition % 8 ∧ phSrc h = d.geid ∧
    phDest h = a.dest % 2 ^ 20 ∧ phHops h = 63 ∧ phE2e h = a.e2e % 65536) ∧
  (∀ (d : Dev) (p : PortId), d.geid < 2 ^ 20 → d.v 0x4000 3 0 < 2 ^ 16 → d.straps < 8 →
    let b := d.offerBits p.val
    b < 2 ^ 128 ∧ fld b 127 112 = 1 ∧ fld b 111 96 = d.v 0x4000 3 0 ∧ fld b 60 0 = 0 ∧
    offerOf b = ⟨d.geid, d.v 0x4000 2 0 % 64, d.straps, p.val, portHdie p.val⟩)

/-- O60, tier 2, stated. Elements narrower than a byte are packed densely, and a packed run reads back element by
element. From R47. -/
def Obligations.NarrowElementsArePackedDensely : Prop :=
  (∀ (m : Memory) (a i : Nat), ∀ fmt ∈ [7, 9],
    elemAt m a fmt (2 * i) = (m.byte (a + i)).toNat % 16 ∧ elemAt m a fmt (2 * i + 1) = (m.byte (a + i)).toNat / 16) ∧
  (∀ (m : Memory) (a g j : Nat), j < 4 → ∀ fmt ∈ [5, 6], elemAt m a fmt (4 * g + j) =
    ((m.byte (a + 3 * g)).toNat + (m.byte (a + 3 * g + 1)).toNat * 2 ^ 8 + (m.byte (a + 3 * g + 2)).toNat * 2 ^ 16) / 2 ^ (6 * j) % 64) ∧
  ∀ (m : Memory) (a : Nat) (old : Byte) (codes : List Nat) (p : Bool), ∀ fmt ∈ [5, 6, 7, 9], (∀ c ∈ codes, c < 2 ^ fmtBits fmt) →
    (packElems fmt old codes).length = packedBytes fmt codes.length ∧
    ∀ i, (h : i < codes.length) → elemAt (m.write a (packElems fmt old codes) p) a fmt i = codes[i]
end

