-- ==== Sys2Proof/Laws/SMap.lean ====
section
/-! SUPPORT. The laws of sparse maps: a read after a write, and the canonical form kept by every operation. -/

namespace Sys2Proof.Machine

variable {α : Type} (d : Nat → α)

@[simp] theorem SMap.get_nil (k : Nat) : SMap.get d ([] : SMap α) k = d k := rfl

theorem SMap.get_cons (k' : Nat) (v : α) (m : SMap α) (k : Nat) :
    SMap.get d ((k', v) :: m) k = if k = k' then v else SMap.get d m k := rfl

/-- A lower bound of a map's keys may be lowered. -/
theorem SMap.wfFrom_weaken [DecidableEq α] (m : SMap α) {a b : Option Nat} (h : SMap.wfFrom d b m = true)
    (hab : ∀ x, a = some x → ∃ y, b = some y ∧ x ≤ y) : SMap.wfFrom d a m = true := by
  cases m with
  | nil => rfl
  | cons x m =>
    obtain ⟨k, v⟩ := x
    simp only [SMap.wfFrom, Bool.and_eq_true] at h ⊢
    refine ⟨⟨?_, h.1.2⟩, h.2⟩
    cases a with
    | none => rfl
    | some x =>
      obtain ⟨y, rfl, hy⟩ := hab x rfl
      have := h.1.1
      simp only [decide_eq_true_eq] at this ⊢
      omega

theorem SMap.get_insert_self (m : SMap α) (k : Nat) (v : α) : SMap.get d (SMap.insert m k v) k = v := by
  induction m with
  | nil => simp [SMap.insert, SMap.get]
  | cons x m ih =>
    unfold SMap.insert
    split
    · simp [SMap.get]
    · split
      · simp [SMap.get]
      · rename_i hne
        rw [SMap.get_cons, if_neg hne, ih]

theorem SMap.get_insert_other (m : SMap α) (k j : Nat) (v : α) (hj : j ≠ k) :
    SMap.get d (SMap.insert m k v) j = SMap.get d m j := by
  induction m with
  | nil => simp [SMap.insert, SMap.get, hj]
  | cons x m ih =>
    unfold SMap.insert
    split
    · rw [SMap.get_cons, if_neg hj]
    · split
      · rename_i heq
        rw [SMap.get_cons, if_neg hj, SMap.get_cons, if_neg (by omega)]
      · rw [SMap.get_cons, SMap.get_cons, ih]

theorem SMap.get_remove (m : SMap α) (k j : Nat) :
    SMap.get d (m.filter fun kv => decide (kv.1 ≠ k)) j = if j = k then d j else SMap.get d m j := by
  induction m with
  | nil => simp [SMap.get]
  | cons x m ih =>
    rw [List.filter_cons]
    by_cases hx : x.1 = k
    · rw [if_neg (by simp [hx]), ih]
      obtain ⟨k', v⟩ := x
      by_cases hj : j = k
      · simp [hj]
      · rw [if_neg hj, if_neg hj, SMap.get_cons, if_neg (by simp_all)]
    · rw [if_pos (by simp [hx])]
      obtain ⟨k', v⟩ := x
      rw [SMap.get_cons, SMap.get_cons, ih]
      by_cases hj : j = k
      · subst hj
        have : j ≠ k' := fun h => hx h.symm
        simp [this]
      · simp [hj]

/-- A read of the key just written gives the value written. -/
@[simp] theorem SMap.get_put_self [DecidableEq α] (m : SMap α) (k : Nat) (v : α) : SMap.get d (SMap.put d m k v) k = v := by
  unfold SMap.put
  split
  · rename_i hv
    rw [SMap.get_remove, if_pos rfl, hv]
  · exact SMap.get_insert_self d m k v

/-- A write leaves every other key alone. -/
theorem SMap.get_put_other [DecidableEq α] (m : SMap α) (k j : Nat) (v : α) (hj : j ≠ k) :
    SMap.get d (SMap.put d m k v) j = SMap.get d m j := by
  unfold SMap.put
  split
  · rw [SMap.get_remove, if_neg hj]
  · exact SMap.get_insert_other d m k j v hj

theorem SMap.get_put [DecidableEq α] (m : SMap α) (k j : Nat) (v : α) :
    SMap.get d (SMap.put d m k v) j = if j = k then v else SMap.get d m j := by
  by_cases hj : j = k
  · subst hj
    simp
  · rw [if_neg hj, SMap.get_put_other d m k j v hj]

theorem SMap.insert_insert (m : SMap α) (k : Nat) (v w : α) : SMap.insert (SMap.insert m k v) k w = SMap.insert m k w := by
  induction m with
  | nil => simp [SMap.insert]
  | cons x m ih =>
    obtain ⟨k', v'⟩ := x
    by_cases h1 : k < k'
    · simp [SMap.insert, h1]
    · by_cases h2 : k = k'
      · simp [SMap.insert, h2]
      · simp [SMap.insert, h1, h2, ih]

theorem SMap.remove_insert (m : SMap α) (k : Nat) (v : α) :
    ((SMap.insert m k v).filter fun kv => decide (kv.1 ≠ k)) = m.filter fun kv => decide (kv.1 ≠ k) := by
  induction m with
  | nil => simp [SMap.insert]
  | cons x m ih =>
    obtain ⟨k', v'⟩ := x
    by_cases h1 : k < k'
    · simp [SMap.insert, h1]
    · by_cases h2 : k = k'
      · simp [SMap.insert, h2]
      · have h3 : k' ≠ k := fun h => h2 h.symm
        simp only [SMap.insert, h1, h2, if_false, List.filter_cons, h3, ne_eq, not_false_eq_true, decide_true, if_true]
        rw [← ih]

/-- Of two writes of one key the later one stands, the earlier having listed a value. -/
theorem SMap.put_put [DecidableEq α] (m : SMap α) (k : Nat) (v w : α) (hv : v ≠ d k) :
    SMap.put d (SMap.put d m k v) k w = SMap.put d m k w := by
  simp only [SMap.put, if_neg hv, SMap.insert_insert, SMap.remove_insert]

/-- Leaving entries out keeps the canonical form. -/
theorem SMap.wfFrom_filter [DecidableEq α] (p : Nat × α → Bool) (b : Option Nat) (m : SMap α) (h : SMap.wfFrom d b m = true) :
    SMap.wfFrom d b (m.filter p) = true := by
  induction m generalizing b with
  | nil => rfl
  | cons x m ih =>
    obtain ⟨k, v⟩ := x
    simp only [SMap.wfFrom, Bool.and_eq_true] at h
    rw [List.filter_cons]
    split
    · simp only [SMap.wfFrom, Bool.and_eq_true]
      exact ⟨h.1, ih (some k) h.2⟩
    · refine ih b (SMap.wfFrom_weaken d m h.2 fun x hx => ?_)
      subst hx
      have := h.1.1
      simp only [decide_eq_true_eq] at this
      exact ⟨k, rfl, Nat.le_of_lt this⟩

/-- Listing a value other than the default keeps the canonical form, above any bound below the key. -/
theorem SMap.wfFrom_insert [DecidableEq α] (b : Option Nat) (m : SMap α) (k : Nat) (v : α) (h : SMap.wfFrom d b m = true)
    (hv : v ≠ d k) (hb : ∀ x, b = some x → x < k) : SMap.wfFrom d b (SMap.insert m k v) = true := by
  have hk : (match (generalizing := false) b with | none => true | some j => decide (j < k)) = true := by
    cases b with
    | none => rfl
    | some j => exact decide_eq_true (hb j rfl)
  induction m generalizing b with
  | nil =>
    cases b with
    | none => simp [SMap.insert, hv, SMap.wfFrom]
    | some j => simpa [SMap.insert, hv, SMap.wfFrom] using hb j rfl
  | cons x m ih =>
    obtain ⟨k', v'⟩ := x
    simp only [SMap.wfFrom, Bool.and_eq_true] at h
    unfold SMap.insert
    split
    · rename_i hlt
      simp only [SMap.wfFrom, Bool.and_eq_true]
      exact ⟨⟨hk, decide_eq_true hv⟩, ⟨decide_eq_true hlt, h.1.2⟩, h.2⟩
    · split
      · rename_i heq
        subst heq
        simp only [SMap.wfFrom, Bool.and_eq_true]
        exact ⟨⟨hk, decide_eq_true hv⟩, h.2⟩
      · have hlt : k' < k := by omega
        simp only [SMap.wfFrom, Bool.and_eq_true]
        exact ⟨h.1, ih (some k') h.2 (fun x hx => by cases hx; exact hlt) (decide_eq_true hlt)⟩

/-- A write keeps the canonical form. -/
theorem SMap.wf_put [DecidableEq α] (m : SMap α) (k : Nat) (v : α) (h : SMap.wf d m = true) :
    SMap.wf d (SMap.put d m k v) = true := by
  unfold SMap.put
  split
  · exact SMap.wfFrom_filter d _ none m h
  · rename_i hv
    exact SMap.wfFrom_insert d none m k v h hv fun _ hx => by cases hx

theorem SMap.wf_clear [DecidableEq α] (p : Nat → Bool) (m : SMap α) (h : SMap.wf d m = true) : SMap.wf d (SMap.clear p m) = true :=
  SMap.wfFrom_filter d _ none m h

/-- A read after entries are dropped: the default at a key that was selected, the value before elsewhere. -/
theorem SMap.get_clear (p : Nat → Bool) (m : SMap α) (k : Nat) :
    SMap.get d (SMap.clear p m) k = if p k then d k else SMap.get d m k := by
  induction m with
  | nil => simp [SMap.clear, SMap.get]
  | cons x m ih =>
    obtain ⟨k', v⟩ := x
    have ih' : SMap.get d (List.filter (fun kv => !p kv.1) m) k = if p k then d k else SMap.get d m k := ih
    show SMap.get d (List.filter _ ((k', v) :: m)) k = _
    rw [List.filter_cons]
    by_cases hk : k = k'
    · subst hk
      cases hp : p k <;> simp_all [SMap.get]
    · cases hp' : p k' <;> simp [SMap.get, hk, ih']

/-- The canonical form does not depend on the values' meaning beyond their default: two defaults that agree on the keys
listed accept the same maps. -/
theorem SMap.wfFrom_congr [DecidableEq α] (e : Nat → α) (b : Option Nat) (m : SMap α) (hde : ∀ kv ∈ m, d kv.1 = e kv.1) :
    SMap.wfFrom d b m = SMap.wfFrom e b m := by
  induction m generalizing b with
  | nil => rfl
  | cons x m ih =>
    obtain ⟨k, v⟩ := x
    simp only [SMap.wfFrom]
    rw [ih (some k) fun kv hkv => hde kv (List.mem_cons_of_mem _ hkv), hde (k, v) (by simp)]

end Sys2Proof.Machine
end

