-- ==== Sys2Proof/Laws/Memory.lean ====
section
/-! SUPPORT. The laws of memory: every operation keeps its canonical form, a read gives what was written last, and a write
leaves every other byte alone. -/

namespace Sys2Proof.Machine

theorem Memory.reset_wf : Memory.reset.wf = true := rfl

theorem Memory.wf_iff (m : Memory) : m.wf = true ↔ SMap.wf (memDflt m.gen) m.cells = true ∧ SMap.wf poisonDflt m.poison = true := by
  simp [Memory.wf]

@[simp] theorem Memory.setByte_gen (m : Memory) (a : Nat) (b : Byte) : (m.setByte a b).gen = m.gen := rfl
@[simp] theorem Memory.setByte_poison (m : Memory) (a : Nat) (b : Byte) : (m.setByte a b).poison = m.poison := rfl
@[simp] theorem Memory.setPoison_gen (m : Memory) (l : Nat) (p : Bool) : (m.setPoison l p).gen = m.gen := rfl
@[simp] theorem Memory.setPoison_cells (m : Memory) (l : Nat) (p : Bool) : (m.setPoison l p).cells = m.cells := rfl
@[simp] theorem Memory.setPoison_byte (m : Memory) (l a : Nat) (p : Bool) : (m.setPoison l p).byte a = m.byte a := rfl

theorem Memory.setByte_wf (m : Memory) (a : Nat) (b : Byte) (h : m.wf = true) : (m.setByte a b).wf = true := by
  rw [Memory.wf_iff] at h ⊢
  exact ⟨SMap.wf_put _ m.cells a b h.1, h.2⟩

theorem Memory.setPoison_wf (m : Memory) (l : Nat) (p : Bool) (h : m.wf = true) : (m.setPoison l p).wf = true := by
  rw [Memory.wf_iff] at h ⊢
  exact ⟨h.1, SMap.wf_put _ m.poison l p h.2⟩

theorem Memory.writeBytes_wf (m : Memory) (a : Nat) (bs : List Byte) (h : m.wf = true) : (m.writeBytes a bs).wf = true := by
  induction bs generalizing m a with
  | nil => exact h
  | cons b bs ih => exact ih _ _ (m.setByte_wf a b h)

theorem linePoison_wf (m : Memory) (a n : Nat) (p : Bool) (l : Nat) (h : m.wf = true) : (linePoison m a n p l).wf = true := by
  unfold linePoison
  split
  · exact m.setPoison_wf _ _ h
  · split
    · exact m.setPoison_wf _ _ h
    · exact h

/-- A fold whose steps keep the canonical form keeps it. -/
theorem foldl_wf {β : Type} (f : Memory → β → Memory) (hf : ∀ m x, m.wf = true → (f m x).wf = true) (l : List β) (m : Memory)
    (h : m.wf = true) : (l.foldl f m).wf = true := by
  induction l generalizing m with
  | nil => exact h
  | cons x l ih => exact ih _ (hf m x h)

theorem Memory.write_wf (m : Memory) (a : Nat) (bs : List Byte) (p : Bool) (h : m.wf = true) : (m.write a bs p).wf = true :=
  foldl_wf _ (fun m l hm => linePoison_wf m a bs.length p l hm) _ _ (m.writeBytes_wf a bs h)

theorem Memory.scramble_wf (m : Memory) (k a n : Nat) (h : m.wf = true) : (m.scramble k a n).wf = true := m.writeBytes_wf _ _ h

theorem Memory.zero_wf (m : Memory) (a n : Nat) (h : m.wf = true) : (m.zero a n).wf = true := by
  have h1 : (if m.plain a n then { m with cells := SMap.clear (inSpan a n) m.cells } else m.writeBytes a (List.replicate n 0)).wf
      = true := by
    split
    · rw [Memory.wf_iff] at h ⊢
      exact ⟨SMap.wf_clear _ _ _ h.1, h.2⟩
    · exact m.writeBytes_wf _ _ h
  rw [Memory.wf_iff] at h1
  rw [Memory.wf_iff]
  exact ⟨h1.1, SMap.wf_clear _ _ _ h1.2⟩

theorem Memory.copy_wf (m : Memory) (src dst n : Nat) (h : m.wf = true) : (m.copy src dst n).wf = true := by
  refine foldl_wf _ (fun m x hm => m.setPoison_wf _ _ hm) _ _ ?_
  split
  · exact foldl_wf _ (fun m x hm => m.setByte_wf _ _ hm) _ _ (m.zero_wf dst n h)
  · exact Memory.writeBytes_wf _ _ _ (m.zero_wf dst n h)

/-- After its contents are forgotten no byte of the region is listed, so the form holds under the region's new default. -/
theorem Memory.forget_wf (m : Memory) (r k : Nat) (h : m.wf = true) : (m.forget r k).wf = true := by
  rw [Memory.wf_iff] at h ⊢
  refine ⟨?_, h.2⟩
  show SMap.wfFrom (memDflt (m.gen.set r (k + 1))) none (SMap.clear (fun a => decide (memRegion a = r)) m.cells) = true
  rw [← SMap.wfFrom_congr (memDflt m.gen)]
  · exact SMap.wf_clear _ _ _ h.1
  · intro kv hkv
    have hr : memRegion kv.1 ≠ r := by
      have := (List.mem_filter.1 hkv).2
      simpa using this
    simp [memDflt, List.getD_eq_getElem?_getD, Ne.symm hr]

/-! ### Reads after writes -/

@[simp] theorem Memory.byte_setByte_self (m : Memory) (a : Nat) (b : Byte) : (m.setByte a b).byte a = b :=
  SMap.get_put_self _ m.cells a b

theorem Memory.byte_setByte_other (m : Memory) (a j : Nat) (b : Byte) (hj : j ≠ a) : (m.setByte a b).byte j = m.byte j :=
  SMap.get_put_other _ m.cells a j b hj

/-- A write of bytes leaves every byte outside them alone. -/
theorem Memory.byte_writeBytes_other (m : Memory) (a : Nat) (bs : List Byte) (j : Nat) (hj : j < a ∨ a + bs.length ≤ j) :
    (m.writeBytes a bs).byte j = m.byte j := by
  induction bs generalizing m a with
  | nil => rfl
  | cons b bs ih =>
    simp only [List.length_cons] at hj
    show ((m.setByte a b).writeBytes (a + 1) bs).byte j = _
    rw [ih _ _ (by omega), m.byte_setByte_other a j b (by omega)]

/-- Each byte written reads back. -/
theorem Memory.byte_writeBytes (m : Memory) (a : Nat) (bs : List Byte) (i : Nat) (hi : i < bs.length) :
    (m.writeBytes a bs).byte (a + i) = bs[i] := by
  induction bs generalizing m a i with
  | nil => simp at hi
  | cons b bs ih =>
    show ((m.setByte a b).writeBytes (a + 1) bs).byte (a + i) = _
    cases i with
    | zero =>
      rw [Memory.byte_writeBytes_other _ _ _ _ (by omega)]
      simp
    | succ i =>
      have := ih (m.setByte a b) (a + 1) i (by simpa using hi)
      simpa [Nat.add_assoc, Nat.add_comm 1 i] using this

@[simp] theorem linePoison_byte (m : Memory) (a n : Nat) (p : Bool) (l j : Nat) : (linePoison m a n p l).byte j = m.byte j := by
  unfold linePoison
  split
  · rfl
  · split <;> rfl

theorem foldl_linePoison_byte (l : List Nat) (m : Memory) (a n : Nat) (p : Bool) (j : Nat) :
    (l.foldl (fun m x => linePoison m a n p x) m).byte j = m.byte j := by
  induction l generalizing m with
  | nil => rfl
  | cons x l ih => rw [List.foldl_cons, ih, linePoison_byte]

/-- The bytes of a write are those of `writeBytes`, whatever its poison. -/
@[simp] theorem Memory.byte_write (m : Memory) (a : Nat) (bs : List Byte) (p : Bool) (j : Nat) :
    (m.write a bs p).byte j = (m.writeBytes a bs).byte j := foldl_linePoison_byte _ _ _ _ _ _

end Sys2Proof.Machine
end

