-- ==== Sys2Proof/Laws/State.lean ====
section
/-! SUPPORT. The fields of the state after each of the shared updates: one lemma per field that an update leaves alone, and
what the update's own accessor reads. -/

namespace Sys2Proof.Machine

/-! ### setV -/

@[simp] theorem Dev.setV_life (d : Dev) (i s e x : Nat) : (d.setV i s e x).life = d.life := rfl
@[simp] theorem Dev.setV_mem (d : Dev) (i s e x : Nat) : (d.setV i s e x).mem = d.mem := rfl
@[simp] theorem Dev.setV_out (d : Dev) (i s e x : Nat) : (d.setV i s e x).out = d.out := rfl
@[simp] theorem Dev.setV_freeCtr (d : Dev) (i s e x : Nat) : (d.setV i s e x).freeCtr = d.freeCtr := rfl
@[simp] theorem Dev.setV_cores (d : Dev) (i s e x : Nat) : (d.setV i s e x).cores = d.cores := rfl
@[simp] theorem Dev.setV_clusters (d : Dev) (i s e x : Nat) : (d.setV i s e x).clusters = d.clusters := rfl
@[simp] theorem Dev.setV_ctxs (d : Dev) (i s e x : Nat) : (d.setV i s e x).ctxs = d.ctxs := rfl
@[simp] theorem Dev.setV_valves (d : Dev) (i s e x : Nat) : (d.setV i s e x).valves = d.valves := rfl
@[simp] theorem Dev.setV_ports (d : Dev) (i s e x : Nat) : (d.setV i s e x).ports = d.ports := rfl
@[simp] theorem Dev.setV_links (d : Dev) (i s e x : Nat) : (d.setV i s e x).links = d.links := rfl
@[simp] theorem Dev.setV_regs (d : Dev) (i s e x : Nat) : (d.setV i s e x).regs = d.regs := rfl
@[simp] theorem Dev.setV_inForce (d : Dev) (i s e x : Nat) : (d.setV i s e x).inForce = d.inForce := rfl
@[simp] theorem Dev.setV_reqs (d : Dev) (i s e x : Nat) : (d.setV i s e x).reqs = d.reqs := rfl
@[simp] theorem Dev.setV_prime (d : Dev) (i s e x : Nat) : (d.setV i s e x).prime = d.prime := rfl
@[simp] theorem Dev.setV_boot (d : Dev) (i s e x : Nat) : (d.setV i s e x).boot = d.boot := rfl
@[simp] theorem Dev.setV_flash (d : Dev) (i s e x : Nat) : (d.setV i s e x).flash = d.flash := rfl
@[simp] theorem Dev.setV_routes (d : Dev) (i s e x : Nat) : (d.setV i s e x).routes = d.routes := rfl
@[simp] theorem Dev.setV_sqs (d : Dev) (i s e x : Nat) : (d.setV i s e x).sqs = d.sqs := rfl
@[simp] theorem Dev.setV_cqs (d : Dev) (i s e x : Nat) : (d.setV i s e x).cqs = d.cqs := rfl
@[simp] theorem Dev.setV_groups (d : Dev) (i s e x : Nat) : (d.setV i s e x).groups = d.groups := rfl
@[simp] theorem Dev.setV_hqueues (d : Dev) (i s e x : Nat) : (d.setV i s e x).hqueues = d.hqueues := rfl
@[simp] theorem Dev.setV_pools (d : Dev) (i s e x : Nat) : (d.setV i s e x).pools = d.pools := rfl
@[simp] theorem Dev.setV_buckets (d : Dev) (i s e x : Nat) : (d.setV i s e x).buckets = d.buckets := rfl
@[simp] theorem Dev.setV_fetched (d : Dev) (i s e x : Nat) : (d.setV i s e x).fetched = d.fetched := rfl
@[simp] theorem Dev.setV_selects (d : Dev) (i s e x : Nat) : (d.setV i s e x).selects = d.selects := rfl
@[simp] theorem Dev.setV_rounds (d : Dev) (i s e x : Nat) : (d.setV i s e x).rounds = d.rounds := rfl
@[simp] theorem Dev.setV_updates (d : Dev) (i s e x : Nat) : (d.setV i s e x).updates = d.updates := rfl
@[simp] theorem Dev.setV_allsums (d : Dev) (i s e x : Nat) : (d.setV i s e x).allsums = d.allsums := rfl
@[simp] theorem Dev.setV_tridalHeld (d : Dev) (i s e x : Nat) : (d.setV i s e x).tridalHeld = d.tridalHeld := rfl
@[simp] theorem Dev.setV_tridalWait (d : Dev) (i s e x : Nat) : (d.setV i s e x).tridalWait = d.tridalWait := rfl
@[simp] theorem Dev.setV_collHeld (d : Dev) (i s e x : Nat) : (d.setV i s e x).collHeld = d.collHeld := rfl
@[simp] theorem Dev.setV_valvePend (d : Dev) (i s e x : Nat) : (d.setV i s e x).valvePend = d.valvePend := rfl
@[simp] theorem Dev.setV_reqQueue (d : Dev) (i s e x : Nat) : (d.setV i s e x).reqQueue = d.reqQueue := rfl
@[simp] theorem Dev.setV_slotHeld (d : Dev) (i s e x : Nat) : (d.setV i s e x).slotHeld = d.slotHeld := rfl
@[simp] theorem Dev.setV_slotOn (d : Dev) (i s e x : Nat) : (d.setV i s e x).slotOn = d.slotOn := rfl
@[simp] theorem Dev.setV_burstOn (d : Dev) (i s e x : Nat) : (d.setV i s e x).burstOn = d.burstOn := rfl
@[simp] theorem Dev.setV_storeQueue (d : Dev) (i s e x : Nat) : (d.setV i s e x).storeQueue = d.storeQueue := rfl
@[simp] theorem Dev.setV_heldIn (d : Dev) (i s e x : Nat) : (d.setV i s e x).heldIn = d.heldIn := rfl
@[simp] theorem Dev.setV_regHeld (d : Dev) (i s e x : Nat) : (d.setV i s e x).regHeld = d.regHeld := rfl
@[simp] theorem Dev.setV_shapeHeld (d : Dev) (i s e x : Nat) : (d.setV i s e x).shapeHeld = d.shapeHeld := rfl
@[simp] theorem Dev.setV_openBulks (d : Dev) (i s e x : Nat) : (d.setV i s e x).openBulks = d.openBulks := rfl
@[simp] theorem Dev.setV_bulkHeld (d : Dev) (i s e x : Nat) : (d.setV i s e x).bulkHeld = d.bulkHeld := rfl
@[simp] theorem Dev.setV_routeLoad (d : Dev) (i s e x : Nat) : (d.setV i s e x).routeLoad = d.routeLoad := rfl
@[simp] theorem Dev.setV_rates (d : Dev) (i s e x : Nat) : (d.setV i s e x).rates = d.rates := rfl
@[simp] theorem Dev.setV_power (d : Dev) (i s e x : Nat) : (d.setV i s e x).power = d.power := rfl
@[simp] theorem Dev.setV_logs (d : Dev) (i s e x : Nat) : (d.setV i s e x).logs = d.logs := rfl
@[simp] theorem Dev.setV_pend (d : Dev) (i s e x : Nat) : (d.setV i s e x).pend = d.pend := rfl

/-! ### bump -/

@[simp] theorem Dev.bump_life (d : Dev) (i s e n : Nat) : (d.bump i s e n).life = d.life := rfl
@[simp] theorem Dev.bump_mem (d : Dev) (i s e n : Nat) : (d.bump i s e n).mem = d.mem := rfl
@[simp] theorem Dev.bump_out (d : Dev) (i s e n : Nat) : (d.bump i s e n).out = d.out := rfl
@[simp] theorem Dev.bump_freeCtr (d : Dev) (i s e n : Nat) : (d.bump i s e n).freeCtr = d.freeCtr := rfl
@[simp] theorem Dev.bump_cores (d : Dev) (i s e n : Nat) : (d.bump i s e n).cores = d.cores := rfl
@[simp] theorem Dev.bump_clusters (d : Dev) (i s e n : Nat) : (d.bump i s e n).clusters = d.clusters := rfl
@[simp] theorem Dev.bump_ctxs (d : Dev) (i s e n : Nat) : (d.bump i s e n).ctxs = d.ctxs := rfl
@[simp] theorem Dev.bump_valves (d : Dev) (i s e n : Nat) : (d.bump i s e n).valves = d.valves := rfl
@[simp] theorem Dev.bump_ports (d : Dev) (i s e n : Nat) : (d.bump i s e n).ports = d.ports := rfl
@[simp] theorem Dev.bump_links (d : Dev) (i s e n : Nat) : (d.bump i s e n).links = d.links := rfl
@[simp] theorem Dev.bump_regs (d : Dev) (i s e n : Nat) : (d.bump i s e n).regs = d.regs := rfl
@[simp] theorem Dev.bump_inForce (d : Dev) (i s e n : Nat) : (d.bump i s e n).inForce = d.inForce := rfl
@[simp] theorem Dev.bump_reqs (d : Dev) (i s e n : Nat) : (d.bump i s e n).reqs = d.reqs := rfl
@[simp] theorem Dev.bump_prime (d : Dev) (i s e n : Nat) : (d.bump i s e n).prime = d.prime := rfl
@[simp] theorem Dev.bump_boot (d : Dev) (i s e n : Nat) : (d.bump i s e n).boot = d.boot := rfl
@[simp] theorem Dev.bump_flash (d : Dev) (i s e n : Nat) : (d.bump i s e n).flash = d.flash := rfl
@[simp] theorem Dev.bump_routes (d : Dev) (i s e n : Nat) : (d.bump i s e n).routes = d.routes := rfl
@[simp] theorem Dev.bump_sqs (d : Dev) (i s e n : Nat) : (d.bump i s e n).sqs = d.sqs := rfl
@[simp] theorem Dev.bump_cqs (d : Dev) (i s e n : Nat) : (d.bump i s e n).cqs = d.cqs := rfl
@[simp] theorem Dev.bump_groups (d : Dev) (i s e n : Nat) : (d.bump i s e n).groups = d.groups := rfl
@[simp] theorem Dev.bump_hqueues (d : Dev) (i s e n : Nat) : (d.bump i s e n).hqueues = d.hqueues := rfl
@[simp] theorem Dev.bump_pools (d : Dev) (i s e n : Nat) : (d.bump i s e n).pools = d.pools := rfl
@[simp] theorem Dev.bump_buckets (d : Dev) (i s e n : Nat) : (d.bump i s e n).buckets = d.buckets := rfl
@[simp] theorem Dev.bump_fetched (d : Dev) (i s e n : Nat) : (d.bump i s e n).fetched = d.fetched := rfl
@[simp] theorem Dev.bump_selects (d : Dev) (i s e n : Nat) : (d.bump i s e n).selects = d.selects := rfl
@[simp] theorem Dev.bump_rounds (d : Dev) (i s e n : Nat) : (d.bump i s e n).rounds = d.rounds := rfl
@[simp] theorem Dev.bump_updates (d : Dev) (i s e n : Nat) : (d.bump i s e n).updates = d.updates := rfl
@[simp] theorem Dev.bump_allsums (d : Dev) (i s e n : Nat) : (d.bump i s e n).allsums = d.allsums := rfl
@[simp] theorem Dev.bump_tridalHeld (d : Dev) (i s e n : Nat) : (d.bump i s e n).tridalHeld = d.tridalHeld := rfl
@[simp] theorem Dev.bump_tridalWait (d : Dev) (i s e n : Nat) : (d.bump i s e n).tridalWait = d.tridalWait := rfl
@[simp] theorem Dev.bump_collHeld (d : Dev) (i s e n : Nat) : (d.bump i s e n).collHeld = d.collHeld := rfl
@[simp] theorem Dev.bump_valvePend (d : Dev) (i s e n : Nat) : (d.bump i s e n).valvePend = d.valvePend := rfl
@[simp] theorem Dev.bump_reqQueue (d : Dev) (i s e n : Nat) : (d.bump i s e n).reqQueue = d.reqQueue := rfl
@[simp] theorem Dev.bump_slotHeld (d : Dev) (i s e n : Nat) : (d.bump i s e n).slotHeld = d.slotHeld := rfl
@[simp] theorem Dev.bump_slotOn (d : Dev) (i s e n : Nat) : (d.bump i s e n).slotOn = d.slotOn := rfl
@[simp] theorem Dev.bump_burstOn (d : Dev) (i s e n : Nat) : (d.bump i s e n).burstOn = d.burstOn := rfl
@[simp] theorem Dev.bump_storeQueue (d : Dev) (i s e n : Nat) : (d.bump i s e n).storeQueue = d.storeQueue := rfl
@[simp] theorem Dev.bump_heldIn (d : Dev) (i s e n : Nat) : (d.bump i s e n).heldIn = d.heldIn := rfl
@[simp] theorem Dev.bump_regHeld (d : Dev) (i s e n : Nat) : (d.bump i s e n).regHeld = d.regHeld := rfl
@[simp] theorem Dev.bump_shapeHeld (d : Dev) (i s e n : Nat) : (d.bump i s e n).shapeHeld = d.shapeHeld := rfl
@[simp] theorem Dev.bump_openBulks (d : Dev) (i s e n : Nat) : (d.bump i s e n).openBulks = d.openBulks := rfl
@[simp] theorem Dev.bump_bulkHeld (d : Dev) (i s e n : Nat) : (d.bump i s e n).bulkHeld = d.bulkHeld := rfl
@[simp] theorem Dev.bump_routeLoad (d : Dev) (i s e n : Nat) : (d.bump i s e n).routeLoad = d.routeLoad := rfl
@[simp] theorem Dev.bump_rates (d : Dev) (i s e n : Nat) : (d.bump i s e n).rates = d.rates := rfl
@[simp] theorem Dev.bump_power (d : Dev) (i s e n : Nat) : (d.bump i s e n).power = d.power := rfl
@[simp] theorem Dev.bump_logs (d : Dev) (i s e n : Nat) : (d.bump i s e n).logs = d.logs := rfl
@[simp] theorem Dev.bump_pend (d : Dev) (i s e n : Nat) : (d.bump i s e n).pend = d.pend := rfl

/-! ### emit -/

@[simp] theorem Dev.emit_life (d : Dev) (o : Output) : (d.emit o).life = d.life := rfl
@[simp] theorem Dev.emit_mem (d : Dev) (o : Output) : (d.emit o).mem = d.mem := rfl
@[simp] theorem Dev.emit_val (d : Dev) (o : Output) : (d.emit o).val = d.val := rfl
@[simp] theorem Dev.emit_freeCtr (d : Dev) (o : Output) : (d.emit o).freeCtr = d.freeCtr := rfl
@[simp] theorem Dev.emit_cores (d : Dev) (o : Output) : (d.emit o).cores = d.cores := rfl
@[simp] theorem Dev.emit_clusters (d : Dev) (o : Output) : (d.emit o).clusters = d.clusters := rfl
@[simp] theorem Dev.emit_ctxs (d : Dev) (o : Output) : (d.emit o).ctxs = d.ctxs := rfl
@[simp] theorem Dev.emit_valves (d : Dev) (o : Output) : (d.emit o).valves = d.valves := rfl
@[simp] theorem Dev.emit_ports (d : Dev) (o : Output) : (d.emit o).ports = d.ports := rfl
@[simp] theorem Dev.emit_links (d : Dev) (o : Output) : (d.emit o).links = d.links := rfl
@[simp] theorem Dev.emit_regs (d : Dev) (o : Output) : (d.emit o).regs = d.regs := rfl
@[simp] theorem Dev.emit_inForce (d : Dev) (o : Output) : (d.emit o).inForce = d.inForce := rfl
@[simp] theorem Dev.emit_reqs (d : Dev) (o : Output) : (d.emit o).reqs = d.reqs := rfl
@[simp] theorem Dev.emit_prime (d : Dev) (o : Output) : (d.emit o).prime = d.prime := rfl
@[simp] theorem Dev.emit_boot (d : Dev) (o : Output) : (d.emit o).boot = d.boot := rfl
@[simp] theorem Dev.emit_flash (d : Dev) (o : Output) : (d.emit o).flash = d.flash := rfl
@[simp] theorem Dev.emit_routes (d : Dev) (o : Output) : (d.emit o).routes = d.routes := rfl
@[simp] theorem Dev.emit_sqs (d : Dev) (o : Output) : (d.emit o).sqs = d.sqs := rfl
@[simp] theorem Dev.emit_cqs (d : Dev) (o : Output) : (d.emit o).cqs = d.cqs := rfl
@[simp] theorem Dev.emit_groups (d : Dev) (o : Output) : (d.emit o).groups = d.groups := rfl
@[simp] theorem Dev.emit_hqueues (d : Dev) (o : Output) : (d.emit o).hqueues = d.hqueues := rfl
@[simp] theorem Dev.emit_pools (d : Dev) (o : Output) : (d.emit o).pools = d.pools := rfl
@[simp] theorem Dev.emit_buckets (d : Dev) (o : Output) : (d.emit o).buckets = d.buckets := rfl
@[simp] theorem Dev.emit_fetched (d : Dev) (o : Output) : (d.emit o).fetched = d.fetched := rfl
@[simp] theorem Dev.emit_selects (d : Dev) (o : Output) : (d.emit o).selects = d.selects := rfl
@[simp] theorem Dev.emit_rounds (d : Dev) (o : Output) : (d.emit o).rounds = d.rounds := rfl
@[simp] theorem Dev.emit_updates (d : Dev) (o : Output) : (d.emit o).updates = d.updates := rfl
@[simp] theorem Dev.emit_allsums (d : Dev) (o : Output) : (d.emit o).allsums = d.allsums := rfl
@[simp] theorem Dev.emit_tridalHeld (d : Dev) (o : Output) : (d.emit o).tridalHeld = d.tridalHeld := rfl
@[simp] theorem Dev.emit_tridalWait (d : Dev) (o : Output) : (d.emit o).tridalWait = d.tridalWait := rfl
@[simp] theorem Dev.emit_collHeld (d : Dev) (o : Output) : (d.emit o).collHeld = d.collHeld := rfl
@[simp] theorem Dev.emit_valvePend (d : Dev) (o : Output) : (d.emit o).valvePend = d.valvePend := rfl
@[simp] theorem Dev.emit_reqQueue (d : Dev) (o : Output) : (d.emit o).reqQueue = d.reqQueue := rfl
@[simp] theorem Dev.emit_slotHeld (d : Dev) (o : Output) : (d.emit o).slotHeld = d.slotHeld := rfl
@[simp] theorem Dev.emit_slotOn (d : Dev) (o : Output) : (d.emit o).slotOn = d.slotOn := rfl
@[simp] theorem Dev.emit_burstOn (d : Dev) (o : Output) : (d.emit o).burstOn = d.burstOn := rfl
@[simp] theorem Dev.emit_storeQueue (d : Dev) (o : Output) : (d.emit o).storeQueue = d.storeQueue := rfl
@[simp] theorem Dev.emit_heldIn (d : Dev) (o : Output) : (d.emit o).heldIn = d.heldIn := rfl
@[simp] theorem Dev.emit_regHeld (d : Dev) (o : Output) : (d.emit o).regHeld = d.regHeld := rfl
@[simp] theorem Dev.emit_shapeHeld (d : Dev) (o : Output) : (d.emit o).shapeHeld = d.shapeHeld := rfl
@[simp] theorem Dev.emit_openBulks (d : Dev) (o : Output) : (d.emit o).openBulks = d.openBulks := rfl
@[simp] theorem Dev.emit_bulkHeld (d : Dev) (o : Output) : (d.emit o).bulkHeld = d.bulkHeld := rfl
@[simp] theorem Dev.emit_routeLoad (d : Dev) (o : Output) : (d.emit o).routeLoad = d.routeLoad := rfl
@[simp] theorem Dev.emit_rates (d : Dev) (o : Output) : (d.emit o).rates = d.rates := rfl
@[simp] theorem Dev.emit_power (d : Dev) (o : Output) : (d.emit o).power = d.power := rfl
@[simp] theorem Dev.emit_logs (d : Dev) (o : Output) : (d.emit o).logs = d.logs := rfl
@[simp] theorem Dev.emit_pend (d : Dev) (o : Output) : (d.emit o).pend = d.pend := rfl

/-! ### tickFree -/

@[simp] theorem Dev.tickFree_life (d : Dev) : d.tickFree.life = d.life := rfl
@[simp] theorem Dev.tickFree_mem (d : Dev) : d.tickFree.mem = d.mem := rfl
@[simp] theorem Dev.tickFree_val (d : Dev) : d.tickFree.val = d.val := rfl
@[simp] theorem Dev.tickFree_out (d : Dev) : d.tickFree.out = d.out := rfl
@[simp] theorem Dev.tickFree_cores (d : Dev) : d.tickFree.cores = d.cores := rfl
@[simp] theorem Dev.tickFree_clusters (d : Dev) : d.tickFree.clusters = d.clusters := rfl
@[simp] theorem Dev.tickFree_ctxs (d : Dev) : d.tickFree.ctxs = d.ctxs := rfl
@[simp] theorem Dev.tickFree_valves (d : Dev) : d.tickFree.valves = d.valves := rfl
@[simp] theorem Dev.tickFree_ports (d : Dev) : d.tickFree.ports = d.ports := rfl
@[simp] theorem Dev.tickFree_links (d : Dev) : d.tickFree.links = d.links := rfl
@[simp] theorem Dev.tickFree_regs (d : Dev) : d.tickFree.regs = d.regs := rfl
@[simp] theorem Dev.tickFree_inForce (d : Dev) : d.tickFree.inForce = d.inForce := rfl
@[simp] theorem Dev.tickFree_reqs (d : Dev) : d.tickFree.reqs = d.reqs := rfl
@[simp] theorem Dev.tickFree_prime (d : Dev) : d.tickFree.prime = d.prime := rfl
@[simp] theorem Dev.tickFree_boot (d : Dev) : d.tickFree.boot = d.boot := rfl
@[simp] theorem Dev.tickFree_flash (d : Dev) : d.tickFree.flash = d.flash := rfl
@[simp] theorem Dev.tickFree_routes (d : Dev) : d.tickFree.routes = d.routes := rfl
@[simp] theorem Dev.tickFree_sqs (d : Dev) : d.tickFree.sqs = d.sqs := rfl
@[simp] theorem Dev.tickFree_cqs (d : Dev) : d.tickFree.cqs = d.cqs := rfl
@[simp] theorem Dev.tickFree_groups (d : Dev) : d.tickFree.groups = d.groups := rfl
@[simp] theorem Dev.tickFree_hqueues (d : Dev) : d.tickFree.hqueues = d.hqueues := rfl
@[simp] theorem Dev.tickFree_pools (d : Dev) : d.tickFree.pools = d.pools := rfl
@[simp] theorem Dev.tickFree_buckets (d : Dev) : d.tickFree.buckets = d.buckets := rfl
@[simp] theorem Dev.tickFree_fetched (d : Dev) : d.tickFree.fetched = d.fetched := rfl
@[simp] theorem Dev.tickFree_selects (d : Dev) : d.tickFree.selects = d.selects := rfl
@[simp] theorem Dev.tickFree_rounds (d : Dev) : d.tickFree.rounds = d.rounds := rfl
@[simp] theorem Dev.tickFree_updates (d : Dev) : d.tickFree.updates = d.updates := rfl
@[simp] theorem Dev.tickFree_allsums (d : Dev) : d.tickFree.allsums = d.allsums := rfl
@[simp] theorem Dev.tickFree_tridalHeld (d : Dev) : d.tickFree.tridalHeld = d.tridalHeld := rfl
@[simp] theorem Dev.tickFree_tridalWait (d : Dev) : d.tickFree.tridalWait = d.tridalWait := rfl
@[simp] theorem Dev.tickFree_collHeld (d : Dev) : d.tickFree.collHeld = d.collHeld := rfl
@[simp] theorem Dev.tickFree_valvePend (d : Dev) : d.tickFree.valvePend = d.valvePend := rfl
@[simp] theorem Dev.tickFree_reqQueue (d : Dev) : d.tickFree.reqQueue = d.reqQueue := rfl
@[simp] theorem Dev.tickFree_slotHeld (d : Dev) : d.tickFree.slotHeld = d.slotHeld := rfl
@[simp] theorem Dev.tickFree_slotOn (d : Dev) : d.tickFree.slotOn = d.slotOn := rfl
@[simp] theorem Dev.tickFree_burstOn (d : Dev) : d.tickFree.burstOn = d.burstOn := rfl
@[simp] theorem Dev.tickFree_storeQueue (d : Dev) : d.tickFree.storeQueue = d.storeQueue := rfl
@[simp] theorem Dev.tickFree_heldIn (d : Dev) : d.tickFree.heldIn = d.heldIn := rfl
@[simp] theorem Dev.tickFree_regHeld (d : Dev) : d.tickFree.regHeld = d.regHeld := rfl
@[simp] theorem Dev.tickFree_shapeHeld (d : Dev) : d.tickFree.shapeHeld = d.shapeHeld := rfl
@[simp] theorem Dev.tickFree_openBulks (d : Dev) : d.tickFree.openBulks = d.openBulks := rfl
@[simp] theorem Dev.tickFree_bulkHeld (d : Dev) : d.tickFree.bulkHeld = d.bulkHeld := rfl
@[simp] theorem Dev.tickFree_routeLoad (d : Dev) : d.tickFree.routeLoad = d.routeLoad := rfl
@[simp] theorem Dev.tickFree_rates (d : Dev) : d.tickFree.rates = d.rates := rfl
@[simp] theorem Dev.tickFree_power (d : Dev) : d.tickFree.power = d.power := rfl
@[simp] theorem Dev.tickFree_logs (d : Dev) : d.tickFree.logs = d.logs := rfl
@[simp] theorem Dev.tickFree_pend (d : Dev) : d.tickFree.pend = d.pend := rfl

/-! ### setCore -/

@[simp] theorem Dev.setCore_life (d : Dev) (k : Nat) (c : Core) : (d.setCore k c).life = d.life := rfl
@[simp] theorem Dev.setCore_mem (d : Dev) (k : Nat) (c : Core) : (d.setCore k c).mem = d.mem := rfl
@[simp] theorem Dev.setCore_val (d : Dev) (k : Nat) (c : Core) : (d.setCore k c).val = d.val := rfl
@[simp] theorem Dev.setCore_out (d : Dev) (k : Nat) (c : Core) : (d.setCore k c).out = d.out := rfl
@[simp] theorem Dev.setCore_freeCtr (d : Dev) (k : Nat) (c : Core) : (d.setCore k c).freeCtr = d.freeCtr := rfl
@[simp] theorem Dev.setCore_clusters (d : Dev) (k : Nat) (c : Core) : (d.setCore k c).clusters = d.clusters := rfl
@[simp] theorem Dev.setCore_ctxs (d : Dev) (k : Nat) (c : Core) : (d.setCore k c).ctxs = d.ctxs := rfl
@[simp] theorem Dev.setCore_valves (d : Dev) (k : Nat) (c : Core) : (d.setCore k c).valves = d.valves := rfl
@[simp] theorem Dev.setCore_ports (d : Dev) (k : Nat) (c : Core) : (d.setCore k c).ports = d.ports := rfl
@[simp] theorem Dev.setCore_links (d : Dev) (k : Nat) (c : Core) : (d.setCore k c).links = d.links := rfl
@[simp] theorem Dev.setCore_regs (d : Dev) (k : Nat) (c : Core) : (d.setCore k c).regs = d.regs := rfl
@[simp] theorem Dev.setCore_inForce (d : Dev) (k : Nat) (c : Core) : (d.setCore k c).inForce = d.inForce := rfl
@[simp] theorem Dev.setCore_reqs (d : Dev) (k : Nat) (c : Core) : (d.setCore k c).reqs = d.reqs := rfl
@[simp] theorem Dev.setCore_prime (d : Dev) (k : Nat) (c : Core) : (d.setCore k c).prime = d.prime := rfl
@[simp] theorem Dev.setCore_boot (d : Dev) (k : Nat) (c : Core) : (d.setCore k c).boot = d.boot := rfl
@[simp] theorem Dev.setCore_flash (d : Dev) (k : Nat) (c : Core) : (d.setCore k c).flash = d.flash := rfl
@[simp] theorem Dev.setCore_routes (d : Dev) (k : Nat) (c : Core) : (d.setCore k c).routes = d.routes := rfl
@[simp] theorem Dev.setCore_sqs (d : Dev) (k : Nat) (c : Core) : (d.setCore k c).sqs = d.sqs := rfl
@[simp] theorem Dev.setCore_cqs (d : Dev) (k : Nat) (c : Core) : (d.setCore k c).cqs = d.cqs := rfl
@[simp] theorem Dev.setCore_groups (d : Dev) (k : Nat) (c : Core) : (d.setCore k c).groups = d.groups := rfl
@[simp] theorem Dev.setCore_hqueues (d : Dev) (k : Nat) (c : Core) : (d.setCore k c).hqueues = d.hqueues := rfl
@[simp] theorem Dev.setCore_pools (d : Dev) (k : Nat) (c : Core) : (d.setCore k c).pools = d.pools := rfl
@[simp] theorem Dev.setCore_buckets (d : Dev) (k : Nat) (c : Core) : (d.setCore k c).buckets = d.buckets := rfl
@[simp] theorem Dev.setCore_fetched (d : Dev) (k : Nat) (c : Core) : (d.setCore k c).fetched = d.fetched := rfl
@[simp] theorem Dev.setCore_selects (d : Dev) (k : Nat) (c : Core) : (d.setCore k c).selects = d.selects := rfl
@[simp] theorem Dev.setCore_rounds (d : Dev) (k : Nat) (c : Core) : (d.setCore k c).rounds = d.rounds := rfl
@[simp] theorem Dev.setCore_updates (d : Dev) (k : Nat) (c : Core) : (d.setCore k c).updates = d.updates := rfl
@[simp] theorem Dev.setCore_allsums (d : Dev) (k : Nat) (c : Core) : (d.setCore k c).allsums = d.allsums := rfl
@[simp] theorem Dev.setCore_tridalHeld (d : Dev) (k : Nat) (c : Core) : (d.setCore k c).tridalHeld = d.tridalHeld := rfl
@[simp] theorem Dev.setCore_tridalWait (d : Dev) (k : Nat) (c : Core) : (d.setCore k c).tridalWait = d.tridalWait := rfl
@[simp] theorem Dev.setCore_collHeld (d : Dev) (k : Nat) (c : Core) : (d.setCore k c).collHeld = d.collHeld := rfl
@[simp] theorem Dev.setCore_valvePend (d : Dev) (k : Nat) (c : Core) : (d.setCore k c).valvePend = d.valvePend := rfl
@[simp] theorem Dev.setCore_reqQueue (d : Dev) (k : Nat) (c : Core) : (d.setCore k c).reqQueue = d.reqQueue := rfl
@[simp] theorem Dev.setCore_slotHeld (d : Dev) (k : Nat) (c : Core) : (d.setCore k c).slotHeld = d.slotHeld := rfl
@[simp] theorem Dev.setCore_slotOn (d : Dev) (k : Nat) (c : Core) : (d.setCore k c).slotOn = d.slotOn := rfl
@[simp] theorem Dev.setCore_burstOn (d : Dev) (k : Nat) (c : Core) : (d.setCore k c).burstOn = d.burstOn := rfl
@[simp] theorem Dev.setCore_storeQueue (d : Dev) (k : Nat) (c : Core) : (d.setCore k c).storeQueue = d.storeQueue := rfl
@[simp] theorem Dev.setCore_heldIn (d : Dev) (k : Nat) (c : Core) : (d.setCore k c).heldIn = d.heldIn := rfl
@[simp] theorem Dev.setCore_regHeld (d : Dev) (k : Nat) (c : Core) : (d.setCore k c).regHeld = d.regHeld := rfl
@[simp] theorem Dev.setCore_shapeHeld (d : Dev) (k : Nat) (c : Core) : (d.setCore k c).shapeHeld = d.shapeHeld := rfl
@[simp] theorem Dev.setCore_openBulks (d : Dev) (k : Nat) (c : Core) : (d.setCore k c).openBulks = d.openBulks := rfl
@[simp] theorem Dev.setCore_bulkHeld (d : Dev) (k : Nat) (c : Core) : (d.setCore k c).bulkHeld = d.bulkHeld := rfl
@[simp] theorem Dev.setCore_routeLoad (d : Dev) (k : Nat) (c : Core) : (d.setCore k c).routeLoad = d.routeLoad := rfl
@[simp] theorem Dev.setCore_rates (d : Dev) (k : Nat) (c : Core) : (d.setCore k c).rates = d.rates := rfl
@[simp] theorem Dev.setCore_power (d : Dev) (k : Nat) (c : Core) : (d.setCore k c).power = d.power := rfl
@[simp] theorem Dev.setCore_logs (d : Dev) (k : Nat) (c : Core) : (d.setCore k c).logs = d.logs := rfl
@[simp] theorem Dev.setCore_pend (d : Dev) (k : Nat) (c : Core) : (d.setCore k c).pend = d.pend := rfl

/-! ### updCore -/

@[simp] theorem Dev.updCore_life (d : Dev) (k : Nat) (f : Core → Core) : (d.updCore k f).life = d.life := rfl
@[simp] theorem Dev.updCore_mem (d : Dev) (k : Nat) (f : Core → Core) : (d.updCore k f).mem = d.mem := rfl
@[simp] theorem Dev.updCore_val (d : Dev) (k : Nat) (f : Core → Core) : (d.updCore k f).val = d.val := rfl
@[simp] theorem Dev.updCore_out (d : Dev) (k : Nat) (f : Core → Core) : (d.updCore k f).out = d.out := rfl
@[simp] theorem Dev.updCore_freeCtr (d : Dev) (k : Nat) (f : Core → Core) : (d.updCore k f).freeCtr = d.freeCtr := rfl
@[simp] theorem Dev.updCore_clusters (d : Dev) (k : Nat) (f : Core → Core) : (d.updCore k f).clusters = d.clusters := rfl
@[simp] theorem Dev.updCore_ctxs (d : Dev) (k : Nat) (f : Core → Core) : (d.updCore k f).ctxs = d.ctxs := rfl
@[simp] theorem Dev.updCore_valves (d : Dev) (k : Nat) (f : Core → Core) : (d.updCore k f).valves = d.valves := rfl
@[simp] theorem Dev.updCore_ports (d : Dev) (k : Nat) (f : Core → Core) : (d.updCore k f).ports = d.ports := rfl
@[simp] theorem Dev.updCore_links (d : Dev) (k : Nat) (f : Core → Core) : (d.updCore k f).links = d.links := rfl
@[simp] theorem Dev.updCore_regs (d : Dev) (k : Nat) (f : Core → Core) : (d.updCore k f).regs = d.regs := rfl
@[simp] theorem Dev.updCore_inForce (d : Dev) (k : Nat) (f : Core → Core) : (d.updCore k f).inForce = d.inForce := rfl
@[simp] theorem Dev.updCore_reqs (d : Dev) (k : Nat) (f : Core → Core) : (d.updCore k f).reqs = d.reqs := rfl
@[simp] theorem Dev.updCore_prime (d : Dev) (k : Nat) (f : Core → Core) : (d.updCore k f).prime = d.prime := rfl
@[simp] theorem Dev.updCore_boot (d : Dev) (k : Nat) (f : Core → Core) : (d.updCore k f).boot = d.boot := rfl
@[simp] theorem Dev.updCore_flash (d : Dev) (k : Nat) (f : Core → Core) : (d.updCore k f).flash = d.flash := rfl
@[simp] theorem Dev.updCore_routes (d : Dev) (k : Nat) (f : Core → Core) : (d.updCore k f).routes = d.routes := rfl
@[simp] theorem Dev.updCore_sqs (d : Dev) (k : Nat) (f : Core → Core) : (d.updCore k f).sqs = d.sqs := rfl
@[simp] theorem Dev.updCore_cqs (d : Dev) (k : Nat) (f : Core → Core) : (d.updCore k f).cqs = d.cqs := rfl
@[simp] theorem Dev.updCore_groups (d : Dev) (k : Nat) (f : Core → Core) : (d.updCore k f).groups = d.groups := rfl
@[simp] theorem Dev.updCore_hqueues (d : Dev) (k : Nat) (f : Core → Core) : (d.updCore k f).hqueues = d.hqueues := rfl
@[simp] theorem Dev.updCore_pools (d : Dev) (k : Nat) (f : Core → Core) : (d.updCore k f).pools = d.pools := rfl
@[simp] theorem Dev.updCore_buckets (d : Dev) (k : Nat) (f : Core → Core) : (d.updCore k f).buckets = d.buckets := rfl
@[simp] theorem Dev.updCore_fetched (d : Dev) (k : Nat) (f : Core → Core) : (d.updCore k f).fetched = d.fetched := rfl
@[simp] theorem Dev.updCore_selects (d : Dev) (k : Nat) (f : Core → Core) : (d.updCore k f).selects = d.selects := rfl
@[simp] theorem Dev.updCore_rounds (d : Dev) (k : Nat) (f : Core → Core) : (d.updCore k f).rounds = d.rounds := rfl
@[simp] theorem Dev.updCore_updates (d : Dev) (k : Nat) (f : Core → Core) : (d.updCore k f).updates = d.updates := rfl
@[simp] theorem Dev.updCore_allsums (d : Dev) (k : Nat) (f : Core → Core) : (d.updCore k f).allsums = d.allsums := rfl
@[simp] theorem Dev.updCore_tridalHeld (d : Dev) (k : Nat) (f : Core → Core) : (d.updCore k f).tridalHeld = d.tridalHeld := rfl
@[simp] theorem Dev.updCore_tridalWait (d : Dev) (k : Nat) (f : Core → Core) : (d.updCore k f).tridalWait = d.tridalWait := rfl
@[simp] theorem Dev.updCore_collHeld (d : Dev) (k : Nat) (f : Core → Core) : (d.updCore k f).collHeld = d.collHeld := rfl
@[simp] theorem Dev.updCore_valvePend (d : Dev) (k : Nat) (f : Core → Core) : (d.updCore k f).valvePend = d.valvePend := rfl
@[simp] theorem Dev.updCore_reqQueue (d : Dev) (k : Nat) (f : Core → Core) : (d.updCore k f).reqQueue = d.reqQueue := rfl
@[simp] theorem Dev.updCore_slotHeld (d : Dev) (k : Nat) (f : Core → Core) : (d.updCore k f).slotHeld = d.slotHeld := rfl
@[simp] theorem Dev.updCore_slotOn (d : Dev) (k : Nat) (f : Core → Core) : (d.updCore k f).slotOn = d.slotOn := rfl
@[simp] theorem Dev.updCore_burstOn (d : Dev) (k : Nat) (f : Core → Core) : (d.updCore k f).burstOn = d.burstOn := rfl
@[simp] theorem Dev.updCore_storeQueue (d : Dev) (k : Nat) (f : Core → Core) : (d.updCore k f).storeQueue = d.storeQueue := rfl
@[simp] theorem Dev.updCore_heldIn (d : Dev) (k : Nat) (f : Core → Core) : (d.updCore k f).heldIn = d.heldIn := rfl
@[simp] theorem Dev.updCore_regHeld (d : Dev) (k : Nat) (f : Core → Core) : (d.updCore k f).regHeld = d.regHeld := rfl
@[simp] theorem Dev.updCore_shapeHeld (d : Dev) (k : Nat) (f : Core → Core) : (d.updCore k f).shapeHeld = d.shapeHeld := rfl
@[simp] theorem Dev.updCore_openBulks (d : Dev) (k : Nat) (f : Core → Core) : (d.updCore k f).openBulks = d.openBulks := rfl
@[simp] theorem Dev.updCore_bulkHeld (d : Dev) (k : Nat) (f : Core → Core) : (d.updCore k f).bulkHeld = d.bulkHeld := rfl
@[simp] theorem Dev.updCore_routeLoad (d : Dev) (k : Nat) (f : Core → Core) : (d.updCore k f).routeLoad = d.routeLoad := rfl
@[simp] theorem Dev.updCore_rates (d : Dev) (k : Nat) (f : Core → Core) : (d.updCore k f).rates = d.rates := rfl
@[simp] theorem Dev.updCore_power (d : Dev) (k : Nat) (f : Core → Core) : (d.updCore k f).power = d.power := rfl
@[simp] theorem Dev.updCore_logs (d : Dev) (k : Nat) (f : Core → Core) : (d.updCore k f).logs = d.logs := rfl
@[simp] theorem Dev.updCore_pend (d : Dev) (k : Nat) (f : Core → Core) : (d.updCore k f).pend = d.pend := rfl

/-! ### setCluster -/

@[simp] theorem Dev.setCluster_life (d : Dev) (k : Nat) (c : Cluster) : (d.setCluster k c).life = d.life := rfl
@[simp] theorem Dev.setCluster_mem (d : Dev) (k : Nat) (c : Cluster) : (d.setCluster k c).mem = d.mem := rfl
@[simp] theorem Dev.setCluster_val (d : Dev) (k : Nat) (c : Cluster) : (d.setCluster k c).val = d.val := rfl
@[simp] theorem Dev.setCluster_out (d : Dev) (k : Nat) (c : Cluster) : (d.setCluster k c).out = d.out := rfl
@[simp] theorem Dev.setCluster_freeCtr (d : Dev) (k : Nat) (c : Cluster) : (d.setCluster k c).freeCtr = d.freeCtr := rfl
@[simp] theorem Dev.setCluster_cores (d : Dev) (k : Nat) (c : Cluster) : (d.setCluster k c).cores = d.cores := rfl
@[simp] theorem Dev.setCluster_ctxs (d : Dev) (k : Nat) (c : Cluster) : (d.setCluster k c).ctxs = d.ctxs := rfl
@[simp] theorem Dev.setCluster_valves (d : Dev) (k : Nat) (c : Cluster) : (d.setCluster k c).valves = d.valves := rfl
@[simp] theorem Dev.setCluster_ports (d : Dev) (k : Nat) (c : Cluster) : (d.setCluster k c).ports = d.ports := rfl
@[simp] theorem Dev.setCluster_links (d : Dev) (k : Nat) (c : Cluster) : (d.setCluster k c).links = d.links := rfl
@[simp] theorem Dev.setCluster_regs (d : Dev) (k : Nat) (c : Cluster) : (d.setCluster k c).regs = d.regs := rfl
@[simp] theorem Dev.setCluster_inForce (d : Dev) (k : Nat) (c : Cluster) : (d.setCluster k c).inForce = d.inForce := rfl
@[simp] theorem Dev.setCluster_reqs (d : Dev) (k : Nat) (c : Cluster) : (d.setCluster k c).reqs = d.reqs := rfl
@[simp] theorem Dev.setCluster_prime (d : Dev) (k : Nat) (c : Cluster) : (d.setCluster k c).prime = d.prime := rfl
@[simp] theorem Dev.setCluster_boot (d : Dev) (k : Nat) (c : Cluster) : (d.setCluster k c).boot = d.boot := rfl
@[simp] theorem Dev.setCluster_flash (d : Dev) (k : Nat) (c : Cluster) : (d.setCluster k c).flash = d.flash := rfl
@[simp] theorem Dev.setCluster_routes (d : Dev) (k : Nat) (c : Cluster) : (d.setCluster k c).routes = d.routes := rfl
@[simp] theorem Dev.setCluster_sqs (d : Dev) (k : Nat) (c : Cluster) : (d.setCluster k c).sqs = d.sqs := rfl
@[simp] theorem Dev.setCluster_cqs (d : Dev) (k : Nat) (c : Cluster) : (d.setCluster k c).cqs = d.cqs := rfl
@[simp] theorem Dev.setCluster_groups (d : Dev) (k : Nat) (c : Cluster) : (d.setCluster k c).groups = d.groups := rfl
@[simp] theorem Dev.setCluster_hqueues (d : Dev) (k : Nat) (c : Cluster) : (d.setCluster k c).hqueues = d.hqueues := rfl
@[simp] theorem Dev.setCluster_pools (d : Dev) (k : Nat) (c : Cluster) : (d.setCluster k c).pools = d.pools := rfl
@[simp] theorem Dev.setCluster_buckets (d : Dev) (k : Nat) (c : Cluster) : (d.setCluster k c).buckets = d.buckets := rfl
@[simp] theorem Dev.setCluster_fetched (d : Dev) (k : Nat) (c : Cluster) : (d.setCluster k c).fetched = d.fetched := rfl
@[simp] theorem Dev.setCluster_selects (d : Dev) (k : Nat) (c : Cluster) : (d.setCluster k c).selects = d.selects := rfl
@[simp] theorem Dev.setCluster_rounds (d : Dev) (k : Nat) (c : Cluster) : (d.setCluster k c).rounds = d.rounds := rfl
@[simp] theorem Dev.setCluster_updates (d : Dev) (k : Nat) (c : Cluster) : (d.setCluster k c).updates = d.updates := rfl
@[simp] theorem Dev.setCluster_allsums (d : Dev) (k : Nat) (c : Cluster) : (d.setCluster k c).allsums = d.allsums := rfl
@[simp] theorem Dev.setCluster_tridalHeld (d : Dev) (k : Nat) (c : Cluster) : (d.setCluster k c).tridalHeld = d.tridalHeld := rfl
@[simp] theorem Dev.setCluster_tridalWait (d : Dev) (k : Nat) (c : Cluster) : (d.setCluster k c).tridalWait = d.tridalWait := rfl
@[simp] theorem Dev.setCluster_collHeld (d : Dev) (k : Nat) (c : Cluster) : (d.setCluster k c).collHeld = d.collHeld := rfl
@[simp] theorem Dev.setCluster_valvePend (d : Dev) (k : Nat) (c : Cluster) : (d.setCluster k c).valvePend = d.valvePend := rfl
@[simp] theorem Dev.setCluster_reqQueue (d : Dev) (k : Nat) (c : Cluster) : (d.setCluster k c).reqQueue = d.reqQueue := rfl
@[simp] theorem Dev.setCluster_slotHeld (d : Dev) (k : Nat) (c : Cluster) : (d.setCluster k c).slotHeld = d.slotHeld := rfl
@[simp] theorem Dev.setCluster_slotOn (d : Dev) (k : Nat) (c : Cluster) : (d.setCluster k c).slotOn = d.slotOn := rfl
@[simp] theorem Dev.setCluster_burstOn (d : Dev) (k : Nat) (c : Cluster) : (d.setCluster k c).burstOn = d.burstOn := rfl
@[simp] theorem Dev.setCluster_storeQueue (d : Dev) (k : Nat) (c : Cluster) : (d.setCluster k c).storeQueue = d.storeQueue := rfl
@[simp] theorem Dev.setCluster_heldIn (d : Dev) (k : Nat) (c : Cluster) : (d.setCluster k c).heldIn = d.heldIn := rfl
@[simp] theorem Dev.setCluster_regHeld (d : Dev) (k : Nat) (c : Cluster) : (d.setCluster k c).regHeld = d.regHeld := rfl
@[simp] theorem Dev.setCluster_shapeHeld (d : Dev) (k : Nat) (c : Cluster) : (d.setCluster k c).shapeHeld = d.shapeHeld := rfl
@[simp] theorem Dev.setCluster_openBulks (d : Dev) (k : Nat) (c : Cluster) : (d.setCluster k c).openBulks = d.openBulks := rfl
@[simp] theorem Dev.setCluster_bulkHeld (d : Dev) (k : Nat) (c : Cluster) : (d.setCluster k c).bulkHeld = d.bulkHeld := rfl
@[simp] theorem Dev.setCluster_routeLoad (d : Dev) (k : Nat) (c : Cluster) : (d.setCluster k c).routeLoad = d.routeLoad := rfl
@[simp] theorem Dev.setCluster_rates (d : Dev) (k : Nat) (c : Cluster) : (d.setCluster k c).rates = d.rates := rfl
@[simp] theorem Dev.setCluster_power (d : Dev) (k : Nat) (c : Cluster) : (d.setCluster k c).power = d.power := rfl
@[simp] theorem Dev.setCluster_logs (d : Dev) (k : Nat) (c : Cluster) : (d.setCluster k c).logs = d.logs := rfl
@[simp] theorem Dev.setCluster_pend (d : Dev) (k : Nat) (c : Cluster) : (d.setCluster k c).pend = d.pend := rfl

/-! ### updCluster -/

@[simp] theorem Dev.updCluster_life (d : Dev) (k : Nat) (f : Cluster → Cluster) : (d.updCluster k f).life = d.life := rfl
@[simp] theorem Dev.updCluster_mem (d : Dev) (k : Nat) (f : Cluster → Cluster) : (d.updCluster k f).mem = d.mem := rfl
@[simp] theorem Dev.updCluster_val (d : Dev) (k : Nat) (f : Cluster → Cluster) : (d.updCluster k f).val = d.val := rfl
@[simp] theorem Dev.updCluster_out (d : Dev) (k : Nat) (f : Cluster → Cluster) : (d.updCluster k f).out = d.out := rfl
@[simp] theorem Dev.updCluster_freeCtr (d : Dev) (k : Nat) (f : Cluster → Cluster) : (d.updCluster k f).freeCtr = d.freeCtr := rfl
@[simp] theorem Dev.updCluster_cores (d : Dev) (k : Nat) (f : Cluster → Cluster) : (d.updCluster k f).cores = d.cores := rfl
@[simp] theorem Dev.updCluster_ctxs (d : Dev) (k : Nat) (f : Cluster → Cluster) : (d.updCluster k f).ctxs = d.ctxs := rfl
@[simp] theorem Dev.updCluster_valves (d : Dev) (k : Nat) (f : Cluster → Cluster) : (d.updCluster k f).valves = d.valves := rfl
@[simp] theorem Dev.updCluster_ports (d : Dev) (k : Nat) (f : Cluster → Cluster) : (d.updCluster k f).ports = d.ports := rfl
@[simp] theorem Dev.updCluster_links (d : Dev) (k : Nat) (f : Cluster → Cluster) : (d.updCluster k f).links = d.links := rfl
@[simp] theorem Dev.updCluster_regs (d : Dev) (k : Nat) (f : Cluster → Cluster) : (d.updCluster k f).regs = d.regs := rfl
@[simp] theorem Dev.updCluster_inForce (d : Dev) (k : Nat) (f : Cluster → Cluster) : (d.updCluster k f).inForce = d.inForce := rfl
@[simp] theorem Dev.updCluster_reqs (d : Dev) (k : Nat) (f : Cluster → Cluster) : (d.updCluster k f).reqs = d.reqs := rfl
@[simp] theorem Dev.updCluster_prime (d : Dev) (k : Nat) (f : Cluster → Cluster) : (d.updCluster k f).prime = d.prime := rfl
@[simp] theorem Dev.updCluster_boot (d : Dev) (k : Nat) (f : Cluster → Cluster) : (d.updCluster k f).boot = d.boot := rfl
@[simp] theorem Dev.updCluster_flash (d : Dev) (k : Nat) (f : Cluster → Cluster) : (d.updCluster k f).flash = d.flash := rfl
@[simp] theorem Dev.updCluster_routes (d : Dev) (k : Nat) (f : Cluster → Cluster) : (d.updCluster k f).routes = d.routes := rfl
@[simp] theorem Dev.updCluster_sqs (d : Dev) (k : Nat) (f : Cluster → Cluster) : (d.updCluster k f).sqs = d.sqs := rfl
@[simp] theorem Dev.updCluster_cqs (d : Dev) (k : Nat) (f : Cluster → Cluster) : (d.updCluster k f).cqs = d.cqs := rfl
@[simp] theorem Dev.updCluster_groups (d : Dev) (k : Nat) (f : Cluster → Cluster) : (d.updCluster k f).groups = d.groups := rfl
@[simp] theorem Dev.updCluster_hqueues (d : Dev) (k : Nat) (f : Cluster → Cluster) : (d.updCluster k f).hqueues = d.hqueues := rfl
@[simp] theorem Dev.updCluster_pools (d : Dev) (k : Nat) (f : Cluster → Cluster) : (d.updCluster k f).pools = d.pools := rfl
@[simp] theorem Dev.updCluster_buckets (d : Dev) (k : Nat) (f : Cluster → Cluster) : (d.updCluster k f).buckets = d.buckets := rfl
@[simp] theorem Dev.updCluster_fetched (d : Dev) (k : Nat) (f : Cluster → Cluster) : (d.updCluster k f).fetched = d.fetched := rfl
@[simp] theorem Dev.updCluster_selects (d : Dev) (k : Nat) (f : Cluster → Cluster) : (d.updCluster k f).selects = d.selects := rfl
@[simp] theorem Dev.updCluster_rounds (d : Dev) (k : Nat) (f : Cluster → Cluster) : (d.updCluster k f).rounds = d.rounds := rfl
@[simp] theorem Dev.updCluster_updates (d : Dev) (k : Nat) (f : Cluster → Cluster) : (d.updCluster k f).updates = d.updates := rfl
@[simp] theorem Dev.updCluster_allsums (d : Dev) (k : Nat) (f : Cluster → Cluster) : (d.updCluster k f).allsums = d.allsums := rfl
@[simp] theorem Dev.updCluster_tridalHeld (d : Dev) (k : Nat) (f : Cluster → Cluster) : (d.updCluster k f).tridalHeld = d.tridalHeld := rfl
@[simp] theorem Dev.updCluster_tridalWait (d : Dev) (k : Nat) (f : Cluster → Cluster) : (d.updCluster k f).tridalWait = d.tridalWait := rfl
@[simp] theorem Dev.updCluster_collHeld (d : Dev) (k : Nat) (f : Cluster → Cluster) : (d.updCluster k f).collHeld = d.collHeld := rfl
@[simp] theorem Dev.updCluster_valvePend (d : Dev) (k : Nat) (f : Cluster → Cluster) : (d.updCluster k f).valvePend = d.valvePend := rfl
@[simp] theorem Dev.updCluster_reqQueue (d : Dev) (k : Nat) (f : Cluster → Cluster) : (d.updCluster k f).reqQueue = d.reqQueue := rfl
@[simp] theorem Dev.updCluster_slotHeld (d : Dev) (k : Nat) (f : Cluster → Cluster) : (d.updCluster k f).slotHeld = d.slotHeld := rfl
@[simp] theorem Dev.updCluster_slotOn (d : Dev) (k : Nat) (f : Cluster → Cluster) : (d.updCluster k f).slotOn = d.slotOn := rfl
@[simp] theorem Dev.updCluster_burstOn (d : Dev) (k : Nat) (f : Cluster → Cluster) : (d.updCluster k f).burstOn = d.burstOn := rfl
@[simp] theorem Dev.updCluster_storeQueue (d : Dev) (k : Nat) (f : Cluster → Cluster) : (d.updCluster k f).storeQueue = d.storeQueue := rfl
@[simp] theorem Dev.updCluster_heldIn (d : Dev) (k : Nat) (f : Cluster → Cluster) : (d.updCluster k f).heldIn = d.heldIn := rfl
@[simp] theorem Dev.updCluster_regHeld (d : Dev) (k : Nat) (f : Cluster → Cluster) : (d.updCluster k f).regHeld = d.regHeld := rfl
@[simp] theorem Dev.updCluster_shapeHeld (d : Dev) (k : Nat) (f : Cluster → Cluster) : (d.updCluster k f).shapeHeld = d.shapeHeld := rfl
@[simp] theorem Dev.updCluster_openBulks (d : Dev) (k : Nat) (f : Cluster → Cluster) : (d.updCluster k f).openBulks = d.openBulks := rfl
@[simp] theorem Dev.updCluster_bulkHeld (d : Dev) (k : Nat) (f : Cluster → Cluster) : (d.updCluster k f).bulkHeld = d.bulkHeld := rfl
@[simp] theorem Dev.updCluster_routeLoad (d : Dev) (k : Nat) (f : Cluster → Cluster) : (d.updCluster k f).routeLoad = d.routeLoad := rfl
@[simp] theorem Dev.updCluster_rates (d : Dev) (k : Nat) (f : Cluster → Cluster) : (d.updCluster k f).rates = d.rates := rfl
@[simp] theorem Dev.updCluster_power (d : Dev) (k : Nat) (f : Cluster → Cluster) : (d.updCluster k f).power = d.power := rfl
@[simp] theorem Dev.updCluster_logs (d : Dev) (k : Nat) (f : Cluster → Cluster) : (d.updCluster k f).logs = d.logs := rfl
@[simp] theorem Dev.updCluster_pend (d : Dev) (k : Nat) (f : Cluster → Cluster) : (d.updCluster k f).pend = d.pend := rfl

/-! ### setCtx -/

@[simp] theorem Dev.setCtx_life (d : Dev) (k : Nat) (c : Ctx) : (d.setCtx k c).life = d.life := rfl
@[simp] theorem Dev.setCtx_mem (d : Dev) (k : Nat) (c : Ctx) : (d.setCtx k c).mem = d.mem := rfl
@[simp] theorem Dev.setCtx_val (d : Dev) (k : Nat) (c : Ctx) : (d.setCtx k c).val = d.val := rfl
@[simp] theorem Dev.setCtx_out (d : Dev) (k : Nat) (c : Ctx) : (d.setCtx k c).out = d.out := rfl
@[simp] theorem Dev.setCtx_freeCtr (d : Dev) (k : Nat) (c : Ctx) : (d.setCtx k c).freeCtr = d.freeCtr := rfl
@[simp] theorem Dev.setCtx_cores (d : Dev) (k : Nat) (c : Ctx) : (d.setCtx k c).cores = d.cores := rfl
@[simp] theorem Dev.setCtx_clusters (d : Dev) (k : Nat) (c : Ctx) : (d.setCtx k c).clusters = d.clusters := rfl
@[simp] theorem Dev.setCtx_valves (d : Dev) (k : Nat) (c : Ctx) : (d.setCtx k c).valves = d.valves := rfl
@[simp] theorem Dev.setCtx_ports (d : Dev) (k : Nat) (c : Ctx) : (d.setCtx k c).ports = d.ports := rfl
@[simp] theorem Dev.setCtx_links (d : Dev) (k : Nat) (c : Ctx) : (d.setCtx k c).links = d.links := rfl
@[simp] theorem Dev.setCtx_regs (d : Dev) (k : Nat) (c : Ctx) : (d.setCtx k c).regs = d.regs := rfl
@[simp] theorem Dev.setCtx_inForce (d : Dev) (k : Nat) (c : Ctx) : (d.setCtx k c).inForce = d.inForce := rfl
@[simp] theorem Dev.setCtx_reqs (d : Dev) (k : Nat) (c : Ctx) : (d.setCtx k c).reqs = d.reqs := rfl
@[simp] theorem Dev.setCtx_prime (d : Dev) (k : Nat) (c : Ctx) : (d.setCtx k c).prime = d.prime := rfl
@[simp] theorem Dev.setCtx_boot (d : Dev) (k : Nat) (c : Ctx) : (d.setCtx k c).boot = d.boot := rfl
@[simp] theorem Dev.setCtx_flash (d : Dev) (k : Nat) (c : Ctx) : (d.setCtx k c).flash = d.flash := rfl
@[simp] theorem Dev.setCtx_routes (d : Dev) (k : Nat) (c : Ctx) : (d.setCtx k c).routes = d.routes := rfl
@[simp] theorem Dev.setCtx_sqs (d : Dev) (k : Nat) (c : Ctx) : (d.setCtx k c).sqs = d.sqs := rfl
@[simp] theorem Dev.setCtx_cqs (d : Dev) (k : Nat) (c : Ctx) : (d.setCtx k c).cqs = d.cqs := rfl
@[simp] theorem Dev.setCtx_groups (d : Dev) (k : Nat) (c : Ctx) : (d.setCtx k c).groups = d.groups := rfl
@[simp] theorem Dev.setCtx_hqueues (d : Dev) (k : Nat) (c : Ctx) : (d.setCtx k c).hqueues = d.hqueues := rfl
@[simp] theorem Dev.setCtx_pools (d : Dev) (k : Nat) (c : Ctx) : (d.setCtx k c).pools = d.pools := rfl
@[simp] theorem Dev.setCtx_buckets (d : Dev) (k : Nat) (c : Ctx) : (d.setCtx k c).buckets = d.buckets := rfl
@[simp] theorem Dev.setCtx_fetched (d : Dev) (k : Nat) (c : Ctx) : (d.setCtx k c).fetched = d.fetched := rfl
@[simp] theorem Dev.setCtx_selects (d : Dev) (k : Nat) (c : Ctx) : (d.setCtx k c).selects = d.selects := rfl
@[simp] theorem Dev.setCtx_rounds (d : Dev) (k : Nat) (c : Ctx) : (d.setCtx k c).rounds = d.rounds := rfl
@[simp] theorem Dev.setCtx_updates (d : Dev) (k : Nat) (c : Ctx) : (d.setCtx k c).updates = d.updates := rfl
@[simp] theorem Dev.setCtx_allsums (d : Dev) (k : Nat) (c : Ctx) : (d.setCtx k c).allsums = d.allsums := rfl
@[simp] theorem Dev.setCtx_tridalHeld (d : Dev) (k : Nat) (c : Ctx) : (d.setCtx k c).tridalHeld = d.tridalHeld := rfl
@[simp] theorem Dev.setCtx_tridalWait (d : Dev) (k : Nat) (c : Ctx) : (d.setCtx k c).tridalWait = d.tridalWait := rfl
@[simp] theorem Dev.setCtx_collHeld (d : Dev) (k : Nat) (c : Ctx) : (d.setCtx k c).collHeld = d.collHeld := rfl
@[simp] theorem Dev.setCtx_valvePend (d : Dev) (k : Nat) (c : Ctx) : (d.setCtx k c).valvePend = d.valvePend := rfl
@[simp] theorem Dev.setCtx_reqQueue (d : Dev) (k : Nat) (c : Ctx) : (d.setCtx k c).reqQueue = d.reqQueue := rfl
@[simp] theorem Dev.setCtx_slotHeld (d : Dev) (k : Nat) (c : Ctx) : (d.setCtx k c).slotHeld = d.slotHeld := rfl
@[simp] theorem Dev.setCtx_slotOn (d : Dev) (k : Nat) (c : Ctx) : (d.setCtx k c).slotOn = d.slotOn := rfl
@[simp] theorem Dev.setCtx_burstOn (d : Dev) (k : Nat) (c : Ctx) : (d.setCtx k c).burstOn = d.burstOn := rfl
@[simp] theorem Dev.setCtx_storeQueue (d : Dev) (k : Nat) (c : Ctx) : (d.setCtx k c).storeQueue = d.storeQueue := rfl
@[simp] theorem Dev.setCtx_heldIn (d : Dev) (k : Nat) (c : Ctx) : (d.setCtx k c).heldIn = d.heldIn := rfl
@[simp] theorem Dev.setCtx_regHeld (d : Dev) (k : Nat) (c : Ctx) : (d.setCtx k c).regHeld = d.regHeld := rfl
@[simp] theorem Dev.setCtx_shapeHeld (d : Dev) (k : Nat) (c : Ctx) : (d.setCtx k c).shapeHeld = d.shapeHeld := rfl
@[simp] theorem Dev.setCtx_openBulks (d : Dev) (k : Nat) (c : Ctx) : (d.setCtx k c).openBulks = d.openBulks := rfl
@[simp] theorem Dev.setCtx_bulkHeld (d : Dev) (k : Nat) (c : Ctx) : (d.setCtx k c).bulkHeld = d.bulkHeld := rfl
@[simp] theorem Dev.setCtx_routeLoad (d : Dev) (k : Nat) (c : Ctx) : (d.setCtx k c).routeLoad = d.routeLoad := rfl
@[simp] theorem Dev.setCtx_rates (d : Dev) (k : Nat) (c : Ctx) : (d.setCtx k c).rates = d.rates := rfl
@[simp] theorem Dev.setCtx_power (d : Dev) (k : Nat) (c : Ctx) : (d.setCtx k c).power = d.power := rfl
@[simp] theorem Dev.setCtx_logs (d : Dev) (k : Nat) (c : Ctx) : (d.setCtx k c).logs = d.logs := rfl
@[simp] theorem Dev.setCtx_pend (d : Dev) (k : Nat) (c : Ctx) : (d.setCtx k c).pend = d.pend := rfl

/-! ### updCtx -/

@[simp] theorem Dev.updCtx_life (d : Dev) (k : Nat) (f : Ctx → Ctx) : (d.updCtx k f).life = d.life := rfl
@[simp] theorem Dev.updCtx_mem (d : Dev) (k : Nat) (f : Ctx → Ctx) : (d.updCtx k f).mem = d.mem := rfl
@[simp] theorem Dev.updCtx_val (d : Dev) (k : Nat) (f : Ctx → Ctx) : (d.updCtx k f).val = d.val := rfl
@[simp] theorem Dev.updCtx_out (d : Dev) (k : Nat) (f : Ctx → Ctx) : (d.updCtx k f).out = d.out := rfl
@[simp] theorem Dev.updCtx_freeCtr (d : Dev) (k : Nat) (f : Ctx → Ctx) : (d.updCtx k f).freeCtr = d.freeCtr := rfl
@[simp] theorem Dev.updCtx_cores (d : Dev) (k : Nat) (f : Ctx → Ctx) : (d.updCtx k f).cores = d.cores := rfl
@[simp] theorem Dev.updCtx_clusters (d : Dev) (k : Nat) (f : Ctx → Ctx) : (d.updCtx k f).clusters = d.clusters := rfl
@[simp] theorem Dev.updCtx_valves (d : Dev) (k : Nat) (f : Ctx → Ctx) : (d.updCtx k f).valves = d.valves := rfl
@[simp] theorem Dev.updCtx_ports (d : Dev) (k : Nat) (f : Ctx → Ctx) : (d.updCtx k f).ports = d.ports := rfl
@[simp] theorem Dev.updCtx_links (d : Dev) (k : Nat) (f : Ctx → Ctx) : (d.updCtx k f).links = d.links := rfl
@[simp] theorem Dev.updCtx_regs (d : Dev) (k : Nat) (f : Ctx → Ctx) : (d.updCtx k f).regs = d.regs := rfl
@[simp] theorem Dev.updCtx_inForce (d : Dev) (k : Nat) (f : Ctx → Ctx) : (d.updCtx k f).inForce = d.inForce := rfl
@[simp] theorem Dev.updCtx_reqs (d : Dev) (k : Nat) (f : Ctx → Ctx) : (d.updCtx k f).reqs = d.reqs := rfl
@[simp] theorem Dev.updCtx_prime (d : Dev) (k : Nat) (f : Ctx → Ctx) : (d.updCtx k f).prime = d.prime := rfl
@[simp] theorem Dev.updCtx_boot (d : Dev) (k : Nat) (f : Ctx → Ctx) : (d.updCtx k f).boot = d.boot := rfl
@[simp] theorem Dev.updCtx_flash (d : Dev) (k : Nat) (f : Ctx → Ctx) : (d.updCtx k f).flash = d.flash := rfl
@[simp] theorem Dev.updCtx_routes (d : Dev) (k : Nat) (f : Ctx → Ctx) : (d.updCtx k f).routes = d.routes := rfl
@[simp] theorem Dev.updCtx_sqs (d : Dev) (k : Nat) (f : Ctx → Ctx) : (d.updCtx k f).sqs = d.sqs := rfl
@[simp] theorem Dev.updCtx_cqs (d : Dev) (k : Nat) (f : Ctx → Ctx) : (d.updCtx k f).cqs = d.cqs := rfl
@[simp] theorem Dev.updCtx_groups (d : Dev) (k : Nat) (f : Ctx → Ctx) : (d.updCtx k f).groups = d.groups := rfl
@[simp] theorem Dev.updCtx_hqueues (d : Dev) (k : Nat) (f : Ctx → Ctx) : (d.updCtx k f).hqueues = d.hqueues := rfl
@[simp] theorem Dev.updCtx_pools (d : Dev) (k : Nat) (f : Ctx → Ctx) : (d.updCtx k f).pools = d.pools := rfl
@[simp] theorem Dev.updCtx_buckets (d : Dev) (k : Nat) (f : Ctx → Ctx) : (d.updCtx k f).buckets = d.buckets := rfl
@[simp] theorem Dev.updCtx_fetched (d : Dev) (k : Nat) (f : Ctx → Ctx) : (d.updCtx k f).fetched = d.fetched := rfl
@[simp] theorem Dev.updCtx_selects (d : Dev) (k : Nat) (f : Ctx → Ctx) : (d.updCtx k f).selects = d.selects := rfl
@[simp] theorem Dev.updCtx_rounds (d : Dev) (k : Nat) (f : Ctx → Ctx) : (d.updCtx k f).rounds = d.rounds := rfl
@[simp] theorem Dev.updCtx_updates (d : Dev) (k : Nat) (f : Ctx → Ctx) : (d.updCtx k f).updates = d.updates := rfl
@[simp] theorem Dev.updCtx_allsums (d : Dev) (k : Nat) (f : Ctx → Ctx) : (d.updCtx k f).allsums = d.allsums := rfl
@[simp] theorem Dev.updCtx_tridalHeld (d : Dev) (k : Nat) (f : Ctx → Ctx) : (d.updCtx k f).tridalHeld = d.tridalHeld := rfl
@[simp] theorem Dev.updCtx_tridalWait (d : Dev) (k : Nat) (f : Ctx → Ctx) : (d.updCtx k f).tridalWait = d.tridalWait := rfl
@[simp] theorem Dev.updCtx_collHeld (d : Dev) (k : Nat) (f : Ctx → Ctx) : (d.updCtx k f).collHeld = d.collHeld := rfl
@[simp] theorem Dev.updCtx_valvePend (d : Dev) (k : Nat) (f : Ctx → Ctx) : (d.updCtx k f).valvePend = d.valvePend := rfl
@[simp] theorem Dev.updCtx_reqQueue (d : Dev) (k : Nat) (f : Ctx → Ctx) : (d.updCtx k f).reqQueue = d.reqQueue := rfl
@[simp] theorem Dev.updCtx_slotHeld (d : Dev) (k : Nat) (f : Ctx → Ctx) : (d.updCtx k f).slotHeld = d.slotHeld := rfl
@[simp] theorem Dev.updCtx_slotOn (d : Dev) (k : Nat) (f : Ctx → Ctx) : (d.updCtx k f).slotOn = d.slotOn := rfl
@[simp] theorem Dev.updCtx_burstOn (d : Dev) (k : Nat) (f : Ctx → Ctx) : (d.updCtx k f).burstOn = d.burstOn := rfl
@[simp] theorem Dev.updCtx_storeQueue (d : Dev) (k : Nat) (f : Ctx → Ctx) : (d.updCtx k f).storeQueue = d.storeQueue := rfl
@[simp] theorem Dev.updCtx_heldIn (d : Dev) (k : Nat) (f : Ctx → Ctx) : (d.updCtx k f).heldIn = d.heldIn := rfl
@[simp] theorem Dev.updCtx_regHeld (d : Dev) (k : Nat) (f : Ctx → Ctx) : (d.updCtx k f).regHeld = d.regHeld := rfl
@[simp] theorem Dev.updCtx_shapeHeld (d : Dev) (k : Nat) (f : Ctx → Ctx) : (d.updCtx k f).shapeHeld = d.shapeHeld := rfl
@[simp] theorem Dev.updCtx_openBulks (d : Dev) (k : Nat) (f : Ctx → Ctx) : (d.updCtx k f).openBulks = d.openBulks := rfl
@[simp] theorem Dev.updCtx_bulkHeld (d : Dev) (k : Nat) (f : Ctx → Ctx) : (d.updCtx k f).bulkHeld = d.bulkHeld := rfl
@[simp] theorem Dev.updCtx_routeLoad (d : Dev) (k : Nat) (f : Ctx → Ctx) : (d.updCtx k f).routeLoad = d.routeLoad := rfl
@[simp] theorem Dev.updCtx_rates (d : Dev) (k : Nat) (f : Ctx → Ctx) : (d.updCtx k f).rates = d.rates := rfl
@[simp] theorem Dev.updCtx_power (d : Dev) (k : Nat) (f : Ctx → Ctx) : (d.updCtx k f).power = d.power := rfl
@[simp] theorem Dev.updCtx_logs (d : Dev) (k : Nat) (f : Ctx → Ctx) : (d.updCtx k f).logs = d.logs := rfl
@[simp] theorem Dev.updCtx_pend (d : Dev) (k : Nat) (f : Ctx → Ctx) : (d.updCtx k f).pend = d.pend := rfl

/-! ### setValve -/

@[simp] theorem Dev.setValve_life (d : Dev) (k n : Nat) : (d.setValve k n).life = d.life := rfl
@[simp] theorem Dev.setValve_mem (d : Dev) (k n : Nat) : (d.setValve k n).mem = d.mem := rfl
@[simp] theorem Dev.setValve_val (d : Dev) (k n : Nat) : (d.setValve k n).val = d.val := rfl
@[simp] theorem Dev.setValve_out (d : Dev) (k n : Nat) : (d.setValve k n).out = d.out := rfl
@[simp] theorem Dev.setValve_freeCtr (d : Dev) (k n : Nat) : (d.setValve k n).freeCtr = d.freeCtr := rfl
@[simp] theorem Dev.setValve_cores (d : Dev) (k n : Nat) : (d.setValve k n).cores = d.cores := rfl
@[simp] theorem Dev.setValve_clusters (d : Dev) (k n : Nat) : (d.setValve k n).clusters = d.clusters := rfl
@[simp] theorem Dev.setValve_ctxs (d : Dev) (k n : Nat) : (d.setValve k n).ctxs = d.ctxs := rfl
@[simp] theorem Dev.setValve_ports (d : Dev) (k n : Nat) : (d.setValve k n).ports = d.ports := rfl
@[simp] theorem Dev.setValve_links (d : Dev) (k n : Nat) : (d.setValve k n).links = d.links := rfl
@[simp] theorem Dev.setValve_regs (d : Dev) (k n : Nat) : (d.setValve k n).regs = d.regs := rfl
@[simp] theorem Dev.setValve_inForce (d : Dev) (k n : Nat) : (d.setValve k n).inForce = d.inForce := rfl
@[simp] theorem Dev.setValve_reqs (d : Dev) (k n : Nat) : (d.setValve k n).reqs = d.reqs := rfl
@[simp] theorem Dev.setValve_prime (d : Dev) (k n : Nat) : (d.setValve k n).prime = d.prime := rfl
@[simp] theorem Dev.setValve_boot (d : Dev) (k n : Nat) : (d.setValve k n).boot = d.boot := rfl
@[simp] theorem Dev.setValve_flash (d : Dev) (k n : Nat) : (d.setValve k n).flash = d.flash := rfl
@[simp] theorem Dev.setValve_routes (d : Dev) (k n : Nat) : (d.setValve k n).routes = d.routes := rfl
@[simp] theorem Dev.setValve_sqs (d : Dev) (k n : Nat) : (d.setValve k n).sqs = d.sqs := rfl
@[simp] theorem Dev.setValve_cqs (d : Dev) (k n : Nat) : (d.setValve k n).cqs = d.cqs := rfl
@[simp] theorem Dev.setValve_groups (d : Dev) (k n : Nat) : (d.setValve k n).groups = d.groups := rfl
@[simp] theorem Dev.setValve_hqueues (d : Dev) (k n : Nat) : (d.setValve k n).hqueues = d.hqueues := rfl
@[simp] theorem Dev.setValve_pools (d : Dev) (k n : Nat) : (d.setValve k n).pools = d.pools := rfl
@[simp] theorem Dev.setValve_buckets (d : Dev) (k n : Nat) : (d.setValve k n).buckets = d.buckets := rfl
@[simp] theorem Dev.setValve_fetched (d : Dev) (k n : Nat) : (d.setValve k n).fetched = d.fetched := rfl
@[simp] theorem Dev.setValve_selects (d : Dev) (k n : Nat) : (d.setValve k n).selects = d.selects := rfl
@[simp] theorem Dev.setValve_rounds (d : Dev) (k n : Nat) : (d.setValve k n).rounds = d.rounds := rfl
@[simp] theorem Dev.setValve_updates (d : Dev) (k n : Nat) : (d.setValve k n).updates = d.updates := rfl
@[simp] theorem Dev.setValve_allsums (d : Dev) (k n : Nat) : (d.setValve k n).allsums = d.allsums := rfl
@[simp] theorem Dev.setValve_tridalHeld (d : Dev) (k n : Nat) : (d.setValve k n).tridalHeld = d.tridalHeld := rfl
@[simp] theorem Dev.setValve_tridalWait (d : Dev) (k n : Nat) : (d.setValve k n).tridalWait = d.tridalWait := rfl
@[simp] theorem Dev.setValve_collHeld (d : Dev) (k n : Nat) : (d.setValve k n).collHeld = d.collHeld := rfl
@[simp] theorem Dev.setValve_valvePend (d : Dev) (k n : Nat) : (d.setValve k n).valvePend = d.valvePend := rfl
@[simp] theorem Dev.setValve_reqQueue (d : Dev) (k n : Nat) : (d.setValve k n).reqQueue = d.reqQueue := rfl
@[simp] theorem Dev.setValve_slotHeld (d : Dev) (k n : Nat) : (d.setValve k n).slotHeld = d.slotHeld := rfl
@[simp] theorem Dev.setValve_slotOn (d : Dev) (k n : Nat) : (d.setValve k n).slotOn = d.slotOn := rfl
@[simp] theorem Dev.setValve_burstOn (d : Dev) (k n : Nat) : (d.setValve k n).burstOn = d.burstOn := rfl
@[simp] theorem Dev.setValve_storeQueue (d : Dev) (k n : Nat) : (d.setValve k n).storeQueue = d.storeQueue := rfl
@[simp] theorem Dev.setValve_heldIn (d : Dev) (k n : Nat) : (d.setValve k n).heldIn = d.heldIn := rfl
@[simp] theorem Dev.setValve_regHeld (d : Dev) (k n : Nat) : (d.setValve k n).regHeld = d.regHeld := rfl
@[simp] theorem Dev.setValve_shapeHeld (d : Dev) (k n : Nat) : (d.setValve k n).shapeHeld = d.shapeHeld := rfl
@[simp] theorem Dev.setValve_openBulks (d : Dev) (k n : Nat) : (d.setValve k n).openBulks = d.openBulks := rfl
@[simp] theorem Dev.setValve_bulkHeld (d : Dev) (k n : Nat) : (d.setValve k n).bulkHeld = d.bulkHeld := rfl
@[simp] theorem Dev.setValve_routeLoad (d : Dev) (k n : Nat) : (d.setValve k n).routeLoad = d.routeLoad := rfl
@[simp] theorem Dev.setValve_rates (d : Dev) (k n : Nat) : (d.setValve k n).rates = d.rates := rfl
@[simp] theorem Dev.setValve_power (d : Dev) (k n : Nat) : (d.setValve k n).power = d.power := rfl
@[simp] theorem Dev.setValve_logs (d : Dev) (k n : Nat) : (d.setValve k n).logs = d.logs := rfl
@[simp] theorem Dev.setValve_pend (d : Dev) (k n : Nat) : (d.setValve k n).pend = d.pend := rfl

/-! ### setPort -/

@[simp] theorem Dev.setPort_life (d : Dev) (k : Nat) (c : Port) : (d.setPort k c).life = d.life := rfl
@[simp] theorem Dev.setPort_mem (d : Dev) (k : Nat) (c : Port) : (d.setPort k c).mem = d.mem := rfl
@[simp] theorem Dev.setPort_val (d : Dev) (k : Nat) (c : Port) : (d.setPort k c).val = d.val := rfl
@[simp] theorem Dev.setPort_out (d : Dev) (k : Nat) (c : Port) : (d.setPort k c).out = d.out := rfl
@[simp] theorem Dev.setPort_freeCtr (d : Dev) (k : Nat) (c : Port) : (d.setPort k c).freeCtr = d.freeCtr := rfl
@[simp] theorem Dev.setPort_cores (d : Dev) (k : Nat) (c : Port) : (d.setPort k c).cores = d.cores := rfl
@[simp] theorem Dev.setPort_clusters (d : Dev) (k : Nat) (c : Port) : (d.setPort k c).clusters = d.clusters := rfl
@[simp] theorem Dev.setPort_ctxs (d : Dev) (k : Nat) (c : Port) : (d.setPort k c).ctxs = d.ctxs := rfl
@[simp] theorem Dev.setPort_valves (d : Dev) (k : Nat) (c : Port) : (d.setPort k c).valves = d.valves := rfl
@[simp] theorem Dev.setPort_links (d : Dev) (k : Nat) (c : Port) : (d.setPort k c).links = d.links := rfl
@[simp] theorem Dev.setPort_regs (d : Dev) (k : Nat) (c : Port) : (d.setPort k c).regs = d.regs := rfl
@[simp] theorem Dev.setPort_inForce (d : Dev) (k : Nat) (c : Port) : (d.setPort k c).inForce = d.inForce := rfl
@[simp] theorem Dev.setPort_reqs (d : Dev) (k : Nat) (c : Port) : (d.setPort k c).reqs = d.reqs := rfl
@[simp] theorem Dev.setPort_prime (d : Dev) (k : Nat) (c : Port) : (d.setPort k c).prime = d.prime := rfl
@[simp] theorem Dev.setPort_boot (d : Dev) (k : Nat) (c : Port) : (d.setPort k c).boot = d.boot := rfl
@[simp] theorem Dev.setPort_flash (d : Dev) (k : Nat) (c : Port) : (d.setPort k c).flash = d.flash := rfl
@[simp] theorem Dev.setPort_routes (d : Dev) (k : Nat) (c : Port) : (d.setPort k c).routes = d.routes := rfl
@[simp] theorem Dev.setPort_sqs (d : Dev) (k : Nat) (c : Port) : (d.setPort k c).sqs = d.sqs := rfl
@[simp] theorem Dev.setPort_cqs (d : Dev) (k : Nat) (c : Port) : (d.setPort k c).cqs = d.cqs := rfl
@[simp] theorem Dev.setPort_groups (d : Dev) (k : Nat) (c : Port) : (d.setPort k c).groups = d.groups := rfl
@[simp] theorem Dev.setPort_hqueues (d : Dev) (k : Nat) (c : Port) : (d.setPort k c).hqueues = d.hqueues := rfl
@[simp] theorem Dev.setPort_pools (d : Dev) (k : Nat) (c : Port) : (d.setPort k c).pools = d.pools := rfl
@[simp] theorem Dev.setPort_buckets (d : Dev) (k : Nat) (c : Port) : (d.setPort k c).buckets = d.buckets := rfl
@[simp] theorem Dev.setPort_fetched (d : Dev) (k : Nat) (c : Port) : (d.setPort k c).fetched = d.fetched := rfl
@[simp] theorem Dev.setPort_selects (d : Dev) (k : Nat) (c : Port) : (d.setPort k c).selects = d.selects := rfl
@[simp] theorem Dev.setPort_rounds (d : Dev) (k : Nat) (c : Port) : (d.setPort k c).rounds = d.rounds := rfl
@[simp] theorem Dev.setPort_updates (d : Dev) (k : Nat) (c : Port) : (d.setPort k c).updates = d.updates := rfl
@[simp] theorem Dev.setPort_allsums (d : Dev) (k : Nat) (c : Port) : (d.setPort k c).allsums = d.allsums := rfl
@[simp] theorem Dev.setPort_tridalHeld (d : Dev) (k : Nat) (c : Port) : (d.setPort k c).tridalHeld = d.tridalHeld := rfl
@[simp] theorem Dev.setPort_tridalWait (d : Dev) (k : Nat) (c : Port) : (d.setPort k c).tridalWait = d.tridalWait := rfl
@[simp] theorem Dev.setPort_collHeld (d : Dev) (k : Nat) (c : Port) : (d.setPort k c).collHeld = d.collHeld := rfl
@[simp] theorem Dev.setPort_valvePend (d : Dev) (k : Nat) (c : Port) : (d.setPort k c).valvePend = d.valvePend := rfl
@[simp] theorem Dev.setPort_reqQueue (d : Dev) (k : Nat) (c : Port) : (d.setPort k c).reqQueue = d.reqQueue := rfl
@[simp] theorem Dev.setPort_slotHeld (d : Dev) (k : Nat) (c : Port) : (d.setPort k c).slotHeld = d.slotHeld := rfl
@[simp] theorem Dev.setPort_slotOn (d : Dev) (k : Nat) (c : Port) : (d.setPort k c).slotOn = d.slotOn := rfl
@[simp] theorem Dev.setPort_burstOn (d : Dev) (k : Nat) (c : Port) : (d.setPort k c).burstOn = d.burstOn := rfl
@[simp] theorem Dev.setPort_storeQueue (d : Dev) (k : Nat) (c : Port) : (d.setPort k c).storeQueue = d.storeQueue := rfl
@[simp] theorem Dev.setPort_heldIn (d : Dev) (k : Nat) (c : Port) : (d.setPort k c).heldIn = d.heldIn := rfl
@[simp] theorem Dev.setPort_regHeld (d : Dev) (k : Nat) (c : Port) : (d.setPort k c).regHeld = d.regHeld := rfl
@[simp] theorem Dev.setPort_shapeHeld (d : Dev) (k : Nat) (c : Port) : (d.setPort k c).shapeHeld = d.shapeHeld := rfl
@[simp] theorem Dev.setPort_openBulks (d : Dev) (k : Nat) (c : Port) : (d.setPort k c).openBulks = d.openBulks := rfl
@[simp] theorem Dev.setPort_bulkHeld (d : Dev) (k : Nat) (c : Port) : (d.setPort k c).bulkHeld = d.bulkHeld := rfl
@[simp] theorem Dev.setPort_routeLoad (d : Dev) (k : Nat) (c : Port) : (d.setPort k c).routeLoad = d.routeLoad := rfl
@[simp] theorem Dev.setPort_rates (d : Dev) (k : Nat) (c : Port) : (d.setPort k c).rates = d.rates := rfl
@[simp] theorem Dev.setPort_power (d : Dev) (k : Nat) (c : Port) : (d.setPort k c).power = d.power := rfl
@[simp] theorem Dev.setPort_logs (d : Dev) (k : Nat) (c : Port) : (d.setPort k c).logs = d.logs := rfl
@[simp] theorem Dev.setPort_pend (d : Dev) (k : Nat) (c : Port) : (d.setPort k c).pend = d.pend := rfl

/-! ### setLink -/

@[simp] theorem Dev.setLink_life (d : Dev) (k : Nat) (c : Link) : (d.setLink k c).life = d.life := rfl
@[simp] theorem Dev.setLink_mem (d : Dev) (k : Nat) (c : Link) : (d.setLink k c).mem = d.mem := rfl
@[simp] theorem Dev.setLink_val (d : Dev) (k : Nat) (c : Link) : (d.setLink k c).val = d.val := rfl
@[simp] theorem Dev.setLink_out (d : Dev) (k : Nat) (c : Link) : (d.setLink k c).out = d.out := rfl
@[simp] theorem Dev.setLink_freeCtr (d : Dev) (k : Nat) (c : Link) : (d.setLink k c).freeCtr = d.freeCtr := rfl
@[simp] theorem Dev.setLink_cores (d : Dev) (k : Nat) (c : Link) : (d.setLink k c).cores = d.cores := rfl
@[simp] theorem Dev.setLink_clusters (d : Dev) (k : Nat) (c : Link) : (d.setLink k c).clusters = d.clusters := rfl
@[simp] theorem Dev.setLink_ctxs (d : Dev) (k : Nat) (c : Link) : (d.setLink k c).ctxs = d.ctxs := rfl
@[simp] theorem Dev.setLink_valves (d : Dev) (k : Nat) (c : Link) : (d.setLink k c).valves = d.valves := rfl
@[simp] theorem Dev.setLink_ports (d : Dev) (k : Nat) (c : Link) : (d.setLink k c).ports = d.ports := rfl
@[simp] theorem Dev.setLink_regs (d : Dev) (k : Nat) (c : Link) : (d.setLink k c).regs = d.regs := rfl
@[simp] theorem Dev.setLink_inForce (d : Dev) (k : Nat) (c : Link) : (d.setLink k c).inForce = d.inForce := rfl
@[simp] theorem Dev.setLink_reqs (d : Dev) (k : Nat) (c : Link) : (d.setLink k c).reqs = d.reqs := rfl
@[simp] theorem Dev.setLink_prime (d : Dev) (k : Nat) (c : Link) : (d.setLink k c).prime = d.prime := rfl
@[simp] theorem Dev.setLink_boot (d : Dev) (k : Nat) (c : Link) : (d.setLink k c).boot = d.boot := rfl
@[simp] theorem Dev.setLink_flash (d : Dev) (k : Nat) (c : Link) : (d.setLink k c).flash = d.flash := rfl
@[simp] theorem Dev.setLink_routes (d : Dev) (k : Nat) (c : Link) : (d.setLink k c).routes = d.routes := rfl
@[simp] theorem Dev.setLink_sqs (d : Dev) (k : Nat) (c : Link) : (d.setLink k c).sqs = d.sqs := rfl
@[simp] theorem Dev.setLink_cqs (d : Dev) (k : Nat) (c : Link) : (d.setLink k c).cqs = d.cqs := rfl
@[simp] theorem Dev.setLink_groups (d : Dev) (k : Nat) (c : Link) : (d.setLink k c).groups = d.groups := rfl
@[simp] theorem Dev.setLink_hqueues (d : Dev) (k : Nat) (c : Link) : (d.setLink k c).hqueues = d.hqueues := rfl
@[simp] theorem Dev.setLink_pools (d : Dev) (k : Nat) (c : Link) : (d.setLink k c).pools = d.pools := rfl
@[simp] theorem Dev.setLink_buckets (d : Dev) (k : Nat) (c : Link) : (d.setLink k c).buckets = d.buckets := rfl
@[simp] theorem Dev.setLink_fetched (d : Dev) (k : Nat) (c : Link) : (d.setLink k c).fetched = d.fetched := rfl
@[simp] theorem Dev.setLink_selects (d : Dev) (k : Nat) (c : Link) : (d.setLink k c).selects = d.selects := rfl
@[simp] theorem Dev.setLink_rounds (d : Dev) (k : Nat) (c : Link) : (d.setLink k c).rounds = d.rounds := rfl
@[simp] theorem Dev.setLink_updates (d : Dev) (k : Nat) (c : Link) : (d.setLink k c).updates = d.updates := rfl
@[simp] theorem Dev.setLink_allsums (d : Dev) (k : Nat) (c : Link) : (d.setLink k c).allsums = d.allsums := rfl
@[simp] theorem Dev.setLink_tridalHeld (d : Dev) (k : Nat) (c : Link) : (d.setLink k c).tridalHeld = d.tridalHeld := rfl
@[simp] theorem Dev.setLink_tridalWait (d : Dev) (k : Nat) (c : Link) : (d.setLink k c).tridalWait = d.tridalWait := rfl
@[simp] theorem Dev.setLink_collHeld (d : Dev) (k : Nat) (c : Link) : (d.setLink k c).collHeld = d.collHeld := rfl
@[simp] theorem Dev.setLink_valvePend (d : Dev) (k : Nat) (c : Link) : (d.setLink k c).valvePend = d.valvePend := rfl
@[simp] theorem Dev.setLink_reqQueue (d : Dev) (k : Nat) (c : Link) : (d.setLink k c).reqQueue = d.reqQueue := rfl
@[simp] theorem Dev.setLink_slotHeld (d : Dev) (k : Nat) (c : Link) : (d.setLink k c).slotHeld = d.slotHeld := rfl
@[simp] theorem Dev.setLink_slotOn (d : Dev) (k : Nat) (c : Link) : (d.setLink k c).slotOn = d.slotOn := rfl
@[simp] theorem Dev.setLink_burstOn (d : Dev) (k : Nat) (c : Link) : (d.setLink k c).burstOn = d.burstOn := rfl
@[simp] theorem Dev.setLink_storeQueue (d : Dev) (k : Nat) (c : Link) : (d.setLink k c).storeQueue = d.storeQueue := rfl
@[simp] theorem Dev.setLink_heldIn (d : Dev) (k : Nat) (c : Link) : (d.setLink k c).heldIn = d.heldIn := rfl
@[simp] theorem Dev.setLink_regHeld (d : Dev) (k : Nat) (c : Link) : (d.setLink k c).regHeld = d.regHeld := rfl
@[simp] theorem Dev.setLink_shapeHeld (d : Dev) (k : Nat) (c : Link) : (d.setLink k c).shapeHeld = d.shapeHeld := rfl
@[simp] theorem Dev.setLink_openBulks (d : Dev) (k : Nat) (c : Link) : (d.setLink k c).openBulks = d.openBulks := rfl
@[simp] theorem Dev.setLink_bulkHeld (d : Dev) (k : Nat) (c : Link) : (d.setLink k c).bulkHeld = d.bulkHeld := rfl
@[simp] theorem Dev.setLink_routeLoad (d : Dev) (k : Nat) (c : Link) : (d.setLink k c).routeLoad = d.routeLoad := rfl
@[simp] theorem Dev.setLink_rates (d : Dev) (k : Nat) (c : Link) : (d.setLink k c).rates = d.rates := rfl
@[simp] theorem Dev.setLink_power (d : Dev) (k : Nat) (c : Link) : (d.setLink k c).power = d.power := rfl
@[simp] theorem Dev.setLink_logs (d : Dev) (k : Nat) (c : Link) : (d.setLink k c).logs = d.logs := rfl
@[simp] theorem Dev.setLink_pend (d : Dev) (k : Nat) (c : Link) : (d.setLink k c).pend = d.pend := rfl

/-! ### setReg -/

@[simp] theorem Dev.setReg_life (d : Dev) (k : Nat) (c : RegBlock) : (d.setReg k c).life = d.life := rfl
@[simp] theorem Dev.setReg_mem (d : Dev) (k : Nat) (c : RegBlock) : (d.setReg k c).mem = d.mem := rfl
@[simp] theorem Dev.setReg_val (d : Dev) (k : Nat) (c : RegBlock) : (d.setReg k c).val = d.val := rfl
@[simp] theorem Dev.setReg_out (d : Dev) (k : Nat) (c : RegBlock) : (d.setReg k c).out = d.out := rfl
@[simp] theorem Dev.setReg_freeCtr (d : Dev) (k : Nat) (c : RegBlock) : (d.setReg k c).freeCtr = d.freeCtr := rfl
@[simp] theorem Dev.setReg_cores (d : Dev) (k : Nat) (c : RegBlock) : (d.setReg k c).cores = d.cores := rfl
@[simp] theorem Dev.setReg_clusters (d : Dev) (k : Nat) (c : RegBlock) : (d.setReg k c).clusters = d.clusters := rfl
@[simp] theorem Dev.setReg_ctxs (d : Dev) (k : Nat) (c : RegBlock) : (d.setReg k c).ctxs = d.ctxs := rfl
@[simp] theorem Dev.setReg_valves (d : Dev) (k : Nat) (c : RegBlock) : (d.setReg k c).valves = d.valves := rfl
@[simp] theorem Dev.setReg_ports (d : Dev) (k : Nat) (c : RegBlock) : (d.setReg k c).ports = d.ports := rfl
@[simp] theorem Dev.setReg_links (d : Dev) (k : Nat) (c : RegBlock) : (d.setReg k c).links = d.links := rfl
@[simp] theorem Dev.setReg_inForce (d : Dev) (k : Nat) (c : RegBlock) : (d.setReg k c).inForce = d.inForce := rfl
@[simp] theorem Dev.setReg_reqs (d : Dev) (k : Nat) (c : RegBlock) : (d.setReg k c).reqs = d.reqs := rfl
@[simp] theorem Dev.setReg_prime (d : Dev) (k : Nat) (c : RegBlock) : (d.setReg k c).prime = d.prime := rfl
@[simp] theorem Dev.setReg_boot (d : Dev) (k : Nat) (c : RegBlock) : (d.setReg k c).boot = d.boot := rfl
@[simp] theorem Dev.setReg_flash (d : Dev) (k : Nat) (c : RegBlock) : (d.setReg k c).flash = d.flash := rfl
@[simp] theorem Dev.setReg_routes (d : Dev) (k : Nat) (c : RegBlock) : (d.setReg k c).routes = d.routes := rfl
@[simp] theorem Dev.setReg_sqs (d : Dev) (k : Nat) (c : RegBlock) : (d.setReg k c).sqs = d.sqs := rfl
@[simp] theorem Dev.setReg_cqs (d : Dev) (k : Nat) (c : RegBlock) : (d.setReg k c).cqs = d.cqs := rfl
@[simp] theorem Dev.setReg_groups (d : Dev) (k : Nat) (c : RegBlock) : (d.setReg k c).groups = d.groups := rfl
@[simp] theorem Dev.setReg_hqueues (d : Dev) (k : Nat) (c : RegBlock) : (d.setReg k c).hqueues = d.hqueues := rfl
@[simp] theorem Dev.setReg_pools (d : Dev) (k : Nat) (c : RegBlock) : (d.setReg k c).pools = d.pools := rfl
@[simp] theorem Dev.setReg_buckets (d : Dev) (k : Nat) (c : RegBlock) : (d.setReg k c).buckets = d.buckets := rfl
@[simp] theorem Dev.setReg_fetched (d : Dev) (k : Nat) (c : RegBlock) : (d.setReg k c).fetched = d.fetched := rfl
@[simp] theorem Dev.setReg_selects (d : Dev) (k : Nat) (c : RegBlock) : (d.setReg k c).selects = d.selects := rfl
@[simp] theorem Dev.setReg_rounds (d : Dev) (k : Nat) (c : RegBlock) : (d.setReg k c).rounds = d.rounds := rfl
@[simp] theorem Dev.setReg_updates (d : Dev) (k : Nat) (c : RegBlock) : (d.setReg k c).updates = d.updates := rfl
@[simp] theorem Dev.setReg_allsums (d : Dev) (k : Nat) (c : RegBlock) : (d.setReg k c).allsums = d.allsums := rfl
@[simp] theorem Dev.setReg_tridalHeld (d : Dev) (k : Nat) (c : RegBlock) : (d.setReg k c).tridalHeld = d.tridalHeld := rfl
@[simp] theorem Dev.setReg_tridalWait (d : Dev) (k : Nat) (c : RegBlock) : (d.setReg k c).tridalWait = d.tridalWait := rfl
@[simp] theorem Dev.setReg_collHeld (d : Dev) (k : Nat) (c : RegBlock) : (d.setReg k c).collHeld = d.collHeld := rfl
@[simp] theorem Dev.setReg_valvePend (d : Dev) (k : Nat) (c : RegBlock) : (d.setReg k c).valvePend = d.valvePend := rfl
@[simp] theorem Dev.setReg_reqQueue (d : Dev) (k : Nat) (c : RegBlock) : (d.setReg k c).reqQueue = d.reqQueue := rfl
@[simp] theorem Dev.setReg_slotHeld (d : Dev) (k : Nat) (c : RegBlock) : (d.setReg k c).slotHeld = d.slotHeld := rfl
@[simp] theorem Dev.setReg_slotOn (d : Dev) (k : Nat) (c : RegBlock) : (d.setReg k c).slotOn = d.slotOn := rfl
@[simp] theorem Dev.setReg_burstOn (d : Dev) (k : Nat) (c : RegBlock) : (d.setReg k c).burstOn = d.burstOn := rfl
@[simp] theorem Dev.setReg_storeQueue (d : Dev) (k : Nat) (c : RegBlock) : (d.setReg k c).storeQueue = d.storeQueue := rfl
@[simp] theorem Dev.setReg_heldIn (d : Dev) (k : Nat) (c : RegBlock) : (d.setReg k c).heldIn = d.heldIn := rfl
@[simp] theorem Dev.setReg_regHeld (d : Dev) (k : Nat) (c : RegBlock) : (d.setReg k c).regHeld = d.regHeld := rfl
@[simp] theorem Dev.setReg_shapeHeld (d : Dev) (k : Nat) (c : RegBlock) : (d.setReg k c).shapeHeld = d.shapeHeld := rfl
@[simp] theorem Dev.setReg_openBulks (d : Dev) (k : Nat) (c : RegBlock) : (d.setReg k c).openBulks = d.openBulks := rfl
@[simp] theorem Dev.setReg_bulkHeld (d : Dev) (k : Nat) (c : RegBlock) : (d.setReg k c).bulkHeld = d.bulkHeld := rfl
@[simp] theorem Dev.setReg_routeLoad (d : Dev) (k : Nat) (c : RegBlock) : (d.setReg k c).routeLoad = d.routeLoad := rfl
@[simp] theorem Dev.setReg_rates (d : Dev) (k : Nat) (c : RegBlock) : (d.setReg k c).rates = d.rates := rfl
@[simp] theorem Dev.setReg_power (d : Dev) (k : Nat) (c : RegBlock) : (d.setReg k c).power = d.power := rfl
@[simp] theorem Dev.setReg_logs (d : Dev) (k : Nat) (c : RegBlock) : (d.setReg k c).logs = d.logs := rfl
@[simp] theorem Dev.setReg_pend (d : Dev) (k : Nat) (c : RegBlock) : (d.setReg k c).pend = d.pend := rfl

/-! ### setSq -/

@[simp] theorem Dev.setSq_life (d : Dev) (k : Nat) (c : SqRun) : (d.setSq k c).life = d.life := rfl
@[simp] theorem Dev.setSq_mem (d : Dev) (k : Nat) (c : SqRun) : (d.setSq k c).mem = d.mem := rfl
@[simp] theorem Dev.setSq_val (d : Dev) (k : Nat) (c : SqRun) : (d.setSq k c).val = d.val := rfl
@[simp] theorem Dev.setSq_out (d : Dev) (k : Nat) (c : SqRun) : (d.setSq k c).out = d.out := rfl
@[simp] theorem Dev.setSq_freeCtr (d : Dev) (k : Nat) (c : SqRun) : (d.setSq k c).freeCtr = d.freeCtr := rfl
@[simp] theorem Dev.setSq_cores (d : Dev) (k : Nat) (c : SqRun) : (d.setSq k c).cores = d.cores := rfl
@[simp] theorem Dev.setSq_clusters (d : Dev) (k : Nat) (c : SqRun) : (d.setSq k c).clusters = d.clusters := rfl
@[simp] theorem Dev.setSq_ctxs (d : Dev) (k : Nat) (c : SqRun) : (d.setSq k c).ctxs = d.ctxs := rfl
@[simp] theorem Dev.setSq_valves (d : Dev) (k : Nat) (c : SqRun) : (d.setSq k c).valves = d.valves := rfl
@[simp] theorem Dev.setSq_ports (d : Dev) (k : Nat) (c : SqRun) : (d.setSq k c).ports = d.ports := rfl
@[simp] theorem Dev.setSq_links (d : Dev) (k : Nat) (c : SqRun) : (d.setSq k c).links = d.links := rfl
@[simp] theorem Dev.setSq_regs (d : Dev) (k : Nat) (c : SqRun) : (d.setSq k c).regs = d.regs := rfl
@[simp] theorem Dev.setSq_inForce (d : Dev) (k : Nat) (c : SqRun) : (d.setSq k c).inForce = d.inForce := rfl
@[simp] theorem Dev.setSq_reqs (d : Dev) (k : Nat) (c : SqRun) : (d.setSq k c).reqs = d.reqs := rfl
@[simp] theorem Dev.setSq_prime (d : Dev) (k : Nat) (c : SqRun) : (d.setSq k c).prime = d.prime := rfl
@[simp] theorem Dev.setSq_boot (d : Dev) (k : Nat) (c : SqRun) : (d.setSq k c).boot = d.boot := rfl
@[simp] theorem Dev.setSq_flash (d : Dev) (k : Nat) (c : SqRun) : (d.setSq k c).flash = d.flash := rfl
@[simp] theorem Dev.setSq_routes (d : Dev) (k : Nat) (c : SqRun) : (d.setSq k c).routes = d.routes := rfl
@[simp] theorem Dev.setSq_cqs (d : Dev) (k : Nat) (c : SqRun) : (d.setSq k c).cqs = d.cqs := rfl
@[simp] theorem Dev.setSq_groups (d : Dev) (k : Nat) (c : SqRun) : (d.setSq k c).groups = d.groups := rfl
@[simp] theorem Dev.setSq_hqueues (d : Dev) (k : Nat) (c : SqRun) : (d.setSq k c).hqueues = d.hqueues := rfl
@[simp] theorem Dev.setSq_pools (d : Dev) (k : Nat) (c : SqRun) : (d.setSq k c).pools = d.pools := rfl
@[simp] theorem Dev.setSq_buckets (d : Dev) (k : Nat) (c : SqRun) : (d.setSq k c).buckets = d.buckets := rfl
@[simp] theorem Dev.setSq_fetched (d : Dev) (k : Nat) (c : SqRun) : (d.setSq k c).fetched = d.fetched := rfl
@[simp] theorem Dev.setSq_selects (d : Dev) (k : Nat) (c : SqRun) : (d.setSq k c).selects = d.selects := rfl
@[simp] theorem Dev.setSq_rounds (d : Dev) (k : Nat) (c : SqRun) : (d.setSq k c).rounds = d.rounds := rfl
@[simp] theorem Dev.setSq_updates (d : Dev) (k : Nat) (c : SqRun) : (d.setSq k c).updates = d.updates := rfl
@[simp] theorem Dev.setSq_allsums (d : Dev) (k : Nat) (c : SqRun) : (d.setSq k c).allsums = d.allsums := rfl
@[simp] theorem Dev.setSq_tridalHeld (d : Dev) (k : Nat) (c : SqRun) : (d.setSq k c).tridalHeld = d.tridalHeld := rfl
@[simp] theorem Dev.setSq_tridalWait (d : Dev) (k : Nat) (c : SqRun) : (d.setSq k c).tridalWait = d.tridalWait := rfl
@[simp] theorem Dev.setSq_collHeld (d : Dev) (k : Nat) (c : SqRun) : (d.setSq k c).collHeld = d.collHeld := rfl
@[simp] theorem Dev.setSq_valvePend (d : Dev) (k : Nat) (c : SqRun) : (d.setSq k c).valvePend = d.valvePend := rfl
@[simp] theorem Dev.setSq_reqQueue (d : Dev) (k : Nat) (c : SqRun) : (d.setSq k c).reqQueue = d.reqQueue := rfl
@[simp] theorem Dev.setSq_slotHeld (d : Dev) (k : Nat) (c : SqRun) : (d.setSq k c).slotHeld = d.slotHeld := rfl
@[simp] theorem Dev.setSq_slotOn (d : Dev) (k : Nat) (c : SqRun) : (d.setSq k c).slotOn = d.slotOn := rfl
@[simp] theorem Dev.setSq_burstOn (d : Dev) (k : Nat) (c : SqRun) : (d.setSq k c).burstOn = d.burstOn := rfl
@[simp] theorem Dev.setSq_storeQueue (d : Dev) (k : Nat) (c : SqRun) : (d.setSq k c).storeQueue = d.storeQueue := rfl
@[simp] theorem Dev.setSq_heldIn (d : Dev) (k : Nat) (c : SqRun) : (d.setSq k c).heldIn = d.heldIn := rfl
@[simp] theorem Dev.setSq_regHeld (d : Dev) (k : Nat) (c : SqRun) : (d.setSq k c).regHeld = d.regHeld := rfl
@[simp] theorem Dev.setSq_shapeHeld (d : Dev) (k : Nat) (c : SqRun) : (d.setSq k c).shapeHeld = d.shapeHeld := rfl
@[simp] theorem Dev.setSq_openBulks (d : Dev) (k : Nat) (c : SqRun) : (d.setSq k c).openBulks = d.openBulks := rfl
@[simp] theorem Dev.setSq_bulkHeld (d : Dev) (k : Nat) (c : SqRun) : (d.setSq k c).bulkHeld = d.bulkHeld := rfl
@[simp] theorem Dev.setSq_routeLoad (d : Dev) (k : Nat) (c : SqRun) : (d.setSq k c).routeLoad = d.routeLoad := rfl
@[simp] theorem Dev.setSq_rates (d : Dev) (k : Nat) (c : SqRun) : (d.setSq k c).rates = d.rates := rfl
@[simp] theorem Dev.setSq_power (d : Dev) (k : Nat) (c : SqRun) : (d.setSq k c).power = d.power := rfl
@[simp] theorem Dev.setSq_logs (d : Dev) (k : Nat) (c : SqRun) : (d.setSq k c).logs = d.logs := rfl
@[simp] theorem Dev.setSq_pend (d : Dev) (k : Nat) (c : SqRun) : (d.setSq k c).pend = d.pend := rfl

/-! ### setCq -/

@[simp] theorem Dev.setCq_life (d : Dev) (k : Nat) (c : CqRun) : (d.setCq k c).life = d.life := rfl
@[simp] theorem Dev.setCq_mem (d : Dev) (k : Nat) (c : CqRun) : (d.setCq k c).mem = d.mem := rfl
@[simp] theorem Dev.setCq_val (d : Dev) (k : Nat) (c : CqRun) : (d.setCq k c).val = d.val := rfl
@[simp] theorem Dev.setCq_out (d : Dev) (k : Nat) (c : CqRun) : (d.setCq k c).out = d.out := rfl
@[simp] theorem Dev.setCq_freeCtr (d : Dev) (k : Nat) (c : CqRun) : (d.setCq k c).freeCtr = d.freeCtr := rfl
@[simp] theorem Dev.setCq_cores (d : Dev) (k : Nat) (c : CqRun) : (d.setCq k c).cores = d.cores := rfl
@[simp] theorem Dev.setCq_clusters (d : Dev) (k : Nat) (c : CqRun) : (d.setCq k c).clusters = d.clusters := rfl
@[simp] theorem Dev.setCq_ctxs (d : Dev) (k : Nat) (c : CqRun) : (d.setCq k c).ctxs = d.ctxs := rfl
@[simp] theorem Dev.setCq_valves (d : Dev) (k : Nat) (c : CqRun) : (d.setCq k c).valves = d.valves := rfl
@[simp] theorem Dev.setCq_ports (d : Dev) (k : Nat) (c : CqRun) : (d.setCq k c).ports = d.ports := rfl
@[simp] theorem Dev.setCq_links (d : Dev) (k : Nat) (c : CqRun) : (d.setCq k c).links = d.links := rfl
@[simp] theorem Dev.setCq_regs (d : Dev) (k : Nat) (c : CqRun) : (d.setCq k c).regs = d.regs := rfl
@[simp] theorem Dev.setCq_inForce (d : Dev) (k : Nat) (c : CqRun) : (d.setCq k c).inForce = d.inForce := rfl
@[simp] theorem Dev.setCq_reqs (d : Dev) (k : Nat) (c : CqRun) : (d.setCq k c).reqs = d.reqs := rfl
@[simp] theorem Dev.setCq_prime (d : Dev) (k : Nat) (c : CqRun) : (d.setCq k c).prime = d.prime := rfl
@[simp] theorem Dev.setCq_boot (d : Dev) (k : Nat) (c : CqRun) : (d.setCq k c).boot = d.boot := rfl
@[simp] theorem Dev.setCq_flash (d : Dev) (k : Nat) (c : CqRun) : (d.setCq k c).flash = d.flash := rfl
@[simp] theorem Dev.setCq_routes (d : Dev) (k : Nat) (c : CqRun) : (d.setCq k c).routes = d.routes := rfl
@[simp] theorem Dev.setCq_sqs (d : Dev) (k : Nat) (c : CqRun) : (d.setCq k c).sqs = d.sqs := rfl
@[simp] theorem Dev.setCq_groups (d : Dev) (k : Nat) (c : CqRun) : (d.setCq k c).groups = d.groups := rfl
@[simp] theorem Dev.setCq_hqueues (d : Dev) (k : Nat) (c : CqRun) : (d.setCq k c).hqueues = d.hqueues := rfl
@[simp] theorem Dev.setCq_pools (d : Dev) (k : Nat) (c : CqRun) : (d.setCq k c).pools = d.pools := rfl
@[simp] theorem Dev.setCq_buckets (d : Dev) (k : Nat) (c : CqRun) : (d.setCq k c).buckets = d.buckets := rfl
@[simp] theorem Dev.setCq_fetched (d : Dev) (k : Nat) (c : CqRun) : (d.setCq k c).fetched = d.fetched := rfl
@[simp] theorem Dev.setCq_selects (d : Dev) (k : Nat) (c : CqRun) : (d.setCq k c).selects = d.selects := rfl
@[simp] theorem Dev.setCq_rounds (d : Dev) (k : Nat) (c : CqRun) : (d.setCq k c).rounds = d.rounds := rfl
@[simp] theorem Dev.setCq_updates (d : Dev) (k : Nat) (c : CqRun) : (d.setCq k c).updates = d.updates := rfl
@[simp] theorem Dev.setCq_allsums (d : Dev) (k : Nat) (c : CqRun) : (d.setCq k c).allsums = d.allsums := rfl
@[simp] theorem Dev.setCq_tridalHeld (d : Dev) (k : Nat) (c : CqRun) : (d.setCq k c).tridalHeld = d.tridalHeld := rfl
@[simp] theorem Dev.setCq_tridalWait (d : Dev) (k : Nat) (c : CqRun) : (d.setCq k c).tridalWait = d.tridalWait := rfl
@[simp] theorem Dev.setCq_collHeld (d : Dev) (k : Nat) (c : CqRun) : (d.setCq k c).collHeld = d.collHeld := rfl
@[simp] theorem Dev.setCq_valvePend (d : Dev) (k : Nat) (c : CqRun) : (d.setCq k c).valvePend = d.valvePend := rfl
@[simp] theorem Dev.setCq_reqQueue (d : Dev) (k : Nat) (c : CqRun) : (d.setCq k c).reqQueue = d.reqQueue := rfl
@[simp] theorem Dev.setCq_slotHeld (d : Dev) (k : Nat) (c : CqRun) : (d.setCq k c).slotHeld = d.slotHeld := rfl
@[simp] theorem Dev.setCq_slotOn (d : Dev) (k : Nat) (c : CqRun) : (d.setCq k c).slotOn = d.slotOn := rfl
@[simp] theorem Dev.setCq_burstOn (d : Dev) (k : Nat) (c : CqRun) : (d.setCq k c).burstOn = d.burstOn := rfl
@[simp] theorem Dev.setCq_storeQueue (d : Dev) (k : Nat) (c : CqRun) : (d.setCq k c).storeQueue = d.storeQueue := rfl
@[simp] theorem Dev.setCq_heldIn (d : Dev) (k : Nat) (c : CqRun) : (d.setCq k c).heldIn = d.heldIn := rfl
@[simp] theorem Dev.setCq_regHeld (d : Dev) (k : Nat) (c : CqRun) : (d.setCq k c).regHeld = d.regHeld := rfl
@[simp] theorem Dev.setCq_shapeHeld (d : Dev) (k : Nat) (c : CqRun) : (d.setCq k c).shapeHeld = d.shapeHeld := rfl
@[simp] theorem Dev.setCq_openBulks (d : Dev) (k : Nat) (c : CqRun) : (d.setCq k c).openBulks = d.openBulks := rfl
@[simp] theorem Dev.setCq_bulkHeld (d : Dev) (k : Nat) (c : CqRun) : (d.setCq k c).bulkHeld = d.bulkHeld := rfl
@[simp] theorem Dev.setCq_routeLoad (d : Dev) (k : Nat) (c : CqRun) : (d.setCq k c).routeLoad = d.routeLoad := rfl
@[simp] theorem Dev.setCq_rates (d : Dev) (k : Nat) (c : CqRun) : (d.setCq k c).rates = d.rates := rfl
@[simp] theorem Dev.setCq_power (d : Dev) (k : Nat) (c : CqRun) : (d.setCq k c).power = d.power := rfl
@[simp] theorem Dev.setCq_logs (d : Dev) (k : Nat) (c : CqRun) : (d.setCq k c).logs = d.logs := rfl
@[simp] theorem Dev.setCq_pend (d : Dev) (k : Nat) (c : CqRun) : (d.setCq k c).pend = d.pend := rfl

/-! ### setHq -/

@[simp] theorem Dev.setHq_life (d : Dev) (k : Nat) (c : HQueue) : (d.setHq k c).life = d.life := rfl
@[simp] theorem Dev.setHq_mem (d : Dev) (k : Nat) (c : HQueue) : (d.setHq k c).mem = d.mem := rfl
@[simp] theorem Dev.setHq_val (d : Dev) (k : Nat) (c : HQueue) : (d.setHq k c).val = d.val := rfl
@[simp] theorem Dev.setHq_out (d : Dev) (k : Nat) (c : HQueue) : (d.setHq k c).out = d.out := rfl
@[simp] theorem Dev.setHq_freeCtr (d : Dev) (k : Nat) (c : HQueue) : (d.setHq k c).freeCtr = d.freeCtr := rfl
@[simp] theorem Dev.setHq_cores (d : Dev) (k : Nat) (c : HQueue) : (d.setHq k c).cores = d.cores := rfl
@[simp] theorem Dev.setHq_clusters (d : Dev) (k : Nat) (c : HQueue) : (d.setHq k c).clusters = d.clusters := rfl
@[simp] theorem Dev.setHq_ctxs (d : Dev) (k : Nat) (c : HQueue) : (d.setHq k c).ctxs = d.ctxs := rfl
@[simp] theorem Dev.setHq_valves (d : Dev) (k : Nat) (c : HQueue) : (d.setHq k c).valves = d.valves := rfl
@[simp] theorem Dev.setHq_ports (d : Dev) (k : Nat) (c : HQueue) : (d.setHq k c).ports = d.ports := rfl
@[simp] theorem Dev.setHq_links (d : Dev) (k : Nat) (c : HQueue) : (d.setHq k c).links = d.links := rfl
@[simp] theorem Dev.setHq_regs (d : Dev) (k : Nat) (c : HQueue) : (d.setHq k c).regs = d.regs := rfl
@[simp] theorem Dev.setHq_inForce (d : Dev) (k : Nat) (c : HQueue) : (d.setHq k c).inForce = d.inForce := rfl
@[simp] theorem Dev.setHq_reqs (d : Dev) (k : Nat) (c : HQueue) : (d.setHq k c).reqs = d.reqs := rfl
@[simp] theorem Dev.setHq_prime (d : Dev) (k : Nat) (c : HQueue) : (d.setHq k c).prime = d.prime := rfl
@[simp] theorem Dev.setHq_boot (d : Dev) (k : Nat) (c : HQueue) : (d.setHq k c).boot = d.boot := rfl
@[simp] theorem Dev.setHq_flash (d : Dev) (k : Nat) (c : HQueue) : (d.setHq k c).flash = d.flash := rfl
@[simp] theorem Dev.setHq_routes (d : Dev) (k : Nat) (c : HQueue) : (d.setHq k c).routes = d.routes := rfl
@[simp] theorem Dev.setHq_sqs (d : Dev) (k : Nat) (c : HQueue) : (d.setHq k c).sqs = d.sqs := rfl
@[simp] theorem Dev.setHq_cqs (d : Dev) (k : Nat) (c : HQueue) : (d.setHq k c).cqs = d.cqs := rfl
@[simp] theorem Dev.setHq_groups (d : Dev) (k : Nat) (c : HQueue) : (d.setHq k c).groups = d.groups := rfl
@[simp] theorem Dev.setHq_pools (d : Dev) (k : Nat) (c : HQueue) : (d.setHq k c).pools = d.pools := rfl
@[simp] theorem Dev.setHq_buckets (d : Dev) (k : Nat) (c : HQueue) : (d.setHq k c).buckets = d.buckets := rfl
@[simp] theorem Dev.setHq_fetched (d : Dev) (k : Nat) (c : HQueue) : (d.setHq k c).fetched = d.fetched := rfl
@[simp] theorem Dev.setHq_selects (d : Dev) (k : Nat) (c : HQueue) : (d.setHq k c).selects = d.selects := rfl
@[simp] theorem Dev.setHq_rounds (d : Dev) (k : Nat) (c : HQueue) : (d.setHq k c).rounds = d.rounds := rfl
@[simp] theorem Dev.setHq_updates (d : Dev) (k : Nat) (c : HQueue) : (d.setHq k c).updates = d.updates := rfl
@[simp] theorem Dev.setHq_allsums (d : Dev) (k : Nat) (c : HQueue) : (d.setHq k c).allsums = d.allsums := rfl
@[simp] theorem Dev.setHq_tridalHeld (d : Dev) (k : Nat) (c : HQueue) : (d.setHq k c).tridalHeld = d.tridalHeld := rfl
@[simp] theorem Dev.setHq_tridalWait (d : Dev) (k : Nat) (c : HQueue) : (d.setHq k c).tridalWait = d.tridalWait := rfl
@[simp] theorem Dev.setHq_collHeld (d : Dev) (k : Nat) (c : HQueue) : (d.setHq k c).collHeld = d.collHeld := rfl
@[simp] theorem Dev.setHq_valvePend (d : Dev) (k : Nat) (c : HQueue) : (d.setHq k c).valvePend = d.valvePend := rfl
@[simp] theorem Dev.setHq_reqQueue (d : Dev) (k : Nat) (c : HQueue) : (d.setHq k c).reqQueue = d.reqQueue := rfl
@[simp] theorem Dev.setHq_slotHeld (d : Dev) (k : Nat) (c : HQueue) : (d.setHq k c).slotHeld = d.slotHeld := rfl
@[simp] theorem Dev.setHq_slotOn (d : Dev) (k : Nat) (c : HQueue) : (d.setHq k c).slotOn = d.slotOn := rfl
@[simp] theorem Dev.setHq_burstOn (d : Dev) (k : Nat) (c : HQueue) : (d.setHq k c).burstOn = d.burstOn := rfl
@[simp] theorem Dev.setHq_storeQueue (d : Dev) (k : Nat) (c : HQueue) : (d.setHq k c).storeQueue = d.storeQueue := rfl
@[simp] theorem Dev.setHq_heldIn (d : Dev) (k : Nat) (c : HQueue) : (d.setHq k c).heldIn = d.heldIn := rfl
@[simp] theorem Dev.setHq_regHeld (d : Dev) (k : Nat) (c : HQueue) : (d.setHq k c).regHeld = d.regHeld := rfl
@[simp] theorem Dev.setHq_shapeHeld (d : Dev) (k : Nat) (c : HQueue) : (d.setHq k c).shapeHeld = d.shapeHeld := rfl
@[simp] theorem Dev.setHq_openBulks (d : Dev) (k : Nat) (c : HQueue) : (d.setHq k c).openBulks = d.openBulks := rfl
@[simp] theorem Dev.setHq_bulkHeld (d : Dev) (k : Nat) (c : HQueue) : (d.setHq k c).bulkHeld = d.bulkHeld := rfl
@[simp] theorem Dev.setHq_routeLoad (d : Dev) (k : Nat) (c : HQueue) : (d.setHq k c).routeLoad = d.routeLoad := rfl
@[simp] theorem Dev.setHq_rates (d : Dev) (k : Nat) (c : HQueue) : (d.setHq k c).rates = d.rates := rfl
@[simp] theorem Dev.setHq_power (d : Dev) (k : Nat) (c : HQueue) : (d.setHq k c).power = d.power := rfl
@[simp] theorem Dev.setHq_logs (d : Dev) (k : Nat) (c : HQueue) : (d.setHq k c).logs = d.logs := rfl
@[simp] theorem Dev.setHq_pend (d : Dev) (k : Nat) (c : HQueue) : (d.setHq k c).pend = d.pend := rfl

/-! ### setPool -/

@[simp] theorem Dev.setPool_life (d : Dev) (k : Nat) (c : Pool) : (d.setPool k c).life = d.life := rfl
@[simp] theorem Dev.setPool_mem (d : Dev) (k : Nat) (c : Pool) : (d.setPool k c).mem = d.mem := rfl
@[simp] theorem Dev.setPool_val (d : Dev) (k : Nat) (c : Pool) : (d.setPool k c).val = d.val := rfl
@[simp] theorem Dev.setPool_out (d : Dev) (k : Nat) (c : Pool) : (d.setPool k c).out = d.out := rfl
@[simp] theorem Dev.setPool_freeCtr (d : Dev) (k : Nat) (c : Pool) : (d.setPool k c).freeCtr = d.freeCtr := rfl
@[simp] theorem Dev.setPool_cores (d : Dev) (k : Nat) (c : Pool) : (d.setPool k c).cores = d.cores := rfl
@[simp] theorem Dev.setPool_clusters (d : Dev) (k : Nat) (c : Pool) : (d.setPool k c).clusters = d.clusters := rfl
@[simp] theorem Dev.setPool_ctxs (d : Dev) (k : Nat) (c : Pool) : (d.setPool k c).ctxs = d.ctxs := rfl
@[simp] theorem Dev.setPool_valves (d : Dev) (k : Nat) (c : Pool) : (d.setPool k c).valves = d.valves := rfl
@[simp] theorem Dev.setPool_ports (d : Dev) (k : Nat) (c : Pool) : (d.setPool k c).ports = d.ports := rfl
@[simp] theorem Dev.setPool_links (d : Dev) (k : Nat) (c : Pool) : (d.setPool k c).links = d.links := rfl
@[simp] theorem Dev.setPool_regs (d : Dev) (k : Nat) (c : Pool) : (d.setPool k c).regs = d.regs := rfl
@[simp] theorem Dev.setPool_inForce (d : Dev) (k : Nat) (c : Pool) : (d.setPool k c).inForce = d.inForce := rfl
@[simp] theorem Dev.setPool_reqs (d : Dev) (k : Nat) (c : Pool) : (d.setPool k c).reqs = d.reqs := rfl
@[simp] theorem Dev.setPool_prime (d : Dev) (k : Nat) (c : Pool) : (d.setPool k c).prime = d.prime := rfl
@[simp] theorem Dev.setPool_boot (d : Dev) (k : Nat) (c : Pool) : (d.setPool k c).boot = d.boot := rfl
@[simp] theorem Dev.setPool_flash (d : Dev) (k : Nat) (c : Pool) : (d.setPool k c).flash = d.flash := rfl
@[simp] theorem Dev.setPool_routes (d : Dev) (k : Nat) (c : Pool) : (d.setPool k c).routes = d.routes := rfl
@[simp] theorem Dev.setPool_sqs (d : Dev) (k : Nat) (c : Pool) : (d.setPool k c).sqs = d.sqs := rfl
@[simp] theorem Dev.setPool_cqs (d : Dev) (k : Nat) (c : Pool) : (d.setPool k c).cqs = d.cqs := rfl
@[simp] theorem Dev.setPool_groups (d : Dev) (k : Nat) (c : Pool) : (d.setPool k c).groups = d.groups := rfl
@[simp] theorem Dev.setPool_hqueues (d : Dev) (k : Nat) (c : Pool) : (d.setPool k c).hqueues = d.hqueues := rfl
@[simp] theorem Dev.setPool_buckets (d : Dev) (k : Nat) (c : Pool) : (d.setPool k c).buckets = d.buckets := rfl
@[simp] theorem Dev.setPool_fetched (d : Dev) (k : Nat) (c : Pool) : (d.setPool k c).fetched = d.fetched := rfl
@[simp] theorem Dev.setPool_selects (d : Dev) (k : Nat) (c : Pool) : (d.setPool k c).selects = d.selects := rfl
@[simp] theorem Dev.setPool_rounds (d : Dev) (k : Nat) (c : Pool) : (d.setPool k c).rounds = d.rounds := rfl
@[simp] theorem Dev.setPool_updates (d : Dev) (k : Nat) (c : Pool) : (d.setPool k c).updates = d.updates := rfl
@[simp] theorem Dev.setPool_allsums (d : Dev) (k : Nat) (c : Pool) : (d.setPool k c).allsums = d.allsums := rfl
@[simp] theorem Dev.setPool_tridalHeld (d : Dev) (k : Nat) (c : Pool) : (d.setPool k c).tridalHeld = d.tridalHeld := rfl
@[simp] theorem Dev.setPool_tridalWait (d : Dev) (k : Nat) (c : Pool) : (d.setPool k c).tridalWait = d.tridalWait := rfl
@[simp] theorem Dev.setPool_collHeld (d : Dev) (k : Nat) (c : Pool) : (d.setPool k c).collHeld = d.collHeld := rfl
@[simp] theorem Dev.setPool_valvePend (d : Dev) (k : Nat) (c : Pool) : (d.setPool k c).valvePend = d.valvePend := rfl
@[simp] theorem Dev.setPool_reqQueue (d : Dev) (k : Nat) (c : Pool) : (d.setPool k c).reqQueue = d.reqQueue := rfl
@[simp] theorem Dev.setPool_slotHeld (d : Dev) (k : Nat) (c : Pool) : (d.setPool k c).slotHeld = d.slotHeld := rfl
@[simp] theorem Dev.setPool_slotOn (d : Dev) (k : Nat) (c : Pool) : (d.setPool k c).slotOn = d.slotOn := rfl
@[simp] theorem Dev.setPool_burstOn (d : Dev) (k : Nat) (c : Pool) : (d.setPool k c).burstOn = d.burstOn := rfl
@[simp] theorem Dev.setPool_storeQueue (d : Dev) (k : Nat) (c : Pool) : (d.setPool k c).storeQueue = d.storeQueue := rfl
@[simp] theorem Dev.setPool_heldIn (d : Dev) (k : Nat) (c : Pool) : (d.setPool k c).heldIn = d.heldIn := rfl
@[simp] theorem Dev.setPool_regHeld (d : Dev) (k : Nat) (c : Pool) : (d.setPool k c).regHeld = d.regHeld := rfl
@[simp] theorem Dev.setPool_shapeHeld (d : Dev) (k : Nat) (c : Pool) : (d.setPool k c).shapeHeld = d.shapeHeld := rfl
@[simp] theorem Dev.setPool_openBulks (d : Dev) (k : Nat) (c : Pool) : (d.setPool k c).openBulks = d.openBulks := rfl
@[simp] theorem Dev.setPool_bulkHeld (d : Dev) (k : Nat) (c : Pool) : (d.setPool k c).bulkHeld = d.bulkHeld := rfl
@[simp] theorem Dev.setPool_routeLoad (d : Dev) (k : Nat) (c : Pool) : (d.setPool k c).routeLoad = d.routeLoad := rfl
@[simp] theorem Dev.setPool_rates (d : Dev) (k : Nat) (c : Pool) : (d.setPool k c).rates = d.rates := rfl
@[simp] theorem Dev.setPool_power (d : Dev) (k : Nat) (c : Pool) : (d.setPool k c).power = d.power := rfl
@[simp] theorem Dev.setPool_logs (d : Dev) (k : Nat) (c : Pool) : (d.setPool k c).logs = d.logs := rfl
@[simp] theorem Dev.setPool_pend (d : Dev) (k : Nat) (c : Pool) : (d.setPool k c).pend = d.pend := rfl

/-! ### setBucket -/

@[simp] theorem Dev.setBucket_life (d : Dev) (k : Nat) (c : Option Bucket) : (d.setBucket k c).life = d.life := rfl
@[simp] theorem Dev.setBucket_mem (d : Dev) (k : Nat) (c : Option Bucket) : (d.setBucket k c).mem = d.mem := rfl
@[simp] theorem Dev.setBucket_val (d : Dev) (k : Nat) (c : Option Bucket) : (d.setBucket k c).val = d.val := rfl
@[simp] theorem Dev.setBucket_out (d : Dev) (k : Nat) (c : Option Bucket) : (d.setBucket k c).out = d.out := rfl
@[simp] theorem Dev.setBucket_freeCtr (d : Dev) (k : Nat) (c : Option Bucket) : (d.setBucket k c).freeCtr = d.freeCtr := rfl
@[simp] theorem Dev.setBucket_cores (d : Dev) (k : Nat) (c : Option Bucket) : (d.setBucket k c).cores = d.cores := rfl
@[simp] theorem Dev.setBucket_clusters (d : Dev) (k : Nat) (c : Option Bucket) : (d.setBucket k c).clusters = d.clusters := rfl
@[simp] theorem Dev.setBucket_ctxs (d : Dev) (k : Nat) (c : Option Bucket) : (d.setBucket k c).ctxs = d.ctxs := rfl
@[simp] theorem Dev.setBucket_valves (d : Dev) (k : Nat) (c : Option Bucket) : (d.setBucket k c).valves = d.valves := rfl
@[simp] theorem Dev.setBucket_ports (d : Dev) (k : Nat) (c : Option Bucket) : (d.setBucket k c).ports = d.ports := rfl
@[simp] theorem Dev.setBucket_links (d : Dev) (k : Nat) (c : Option Bucket) : (d.setBucket k c).links = d.links := rfl
@[simp] theorem Dev.setBucket_regs (d : Dev) (k : Nat) (c : Option Bucket) : (d.setBucket k c).regs = d.regs := rfl
@[simp] theorem Dev.setBucket_inForce (d : Dev) (k : Nat) (c : Option Bucket) : (d.setBucket k c).inForce = d.inForce := rfl
@[simp] theorem Dev.setBucket_reqs (d : Dev) (k : Nat) (c : Option Bucket) : (d.setBucket k c).reqs = d.reqs := rfl
@[simp] theorem Dev.setBucket_prime (d : Dev) (k : Nat) (c : Option Bucket) : (d.setBucket k c).prime = d.prime := rfl
@[simp] theorem Dev.setBucket_boot (d : Dev) (k : Nat) (c : Option Bucket) : (d.setBucket k c).boot = d.boot := rfl
@[simp] theorem Dev.setBucket_flash (d : Dev) (k : Nat) (c : Option Bucket) : (d.setBucket k c).flash = d.flash := rfl
@[simp] theorem Dev.setBucket_routes (d : Dev) (k : Nat) (c : Option Bucket) : (d.setBucket k c).routes = d.routes := rfl
@[simp] theorem Dev.setBucket_sqs (d : Dev) (k : Nat) (c : Option Bucket) : (d.setBucket k c).sqs = d.sqs := rfl
@[simp] theorem Dev.setBucket_cqs (d : Dev) (k : Nat) (c : Option Bucket) : (d.setBucket k c).cqs = d.cqs := rfl
@[simp] theorem Dev.setBucket_groups (d : Dev) (k : Nat) (c : Option Bucket) : (d.setBucket k c).groups = d.groups := rfl
@[simp] theorem Dev.setBucket_hqueues (d : Dev) (k : Nat) (c : Option Bucket) : (d.setBucket k c).hqueues = d.hqueues := rfl
@[simp] theorem Dev.setBucket_pools (d : Dev) (k : Nat) (c : Option Bucket) : (d.setBucket k c).pools = d.pools := rfl
@[simp] theorem Dev.setBucket_fetched (d : Dev) (k : Nat) (c : Option Bucket) : (d.setBucket k c).fetched = d.fetched := rfl
@[simp] theorem Dev.setBucket_selects (d : Dev) (k : Nat) (c : Option Bucket) : (d.setBucket k c).selects = d.selects := rfl
@[simp] theorem Dev.setBucket_rounds (d : Dev) (k : Nat) (c : Option Bucket) : (d.setBucket k c).rounds = d.rounds := rfl
@[simp] theorem Dev.setBucket_updates (d : Dev) (k : Nat) (c : Option Bucket) : (d.setBucket k c).updates = d.updates := rfl
@[simp] theorem Dev.setBucket_allsums (d : Dev) (k : Nat) (c : Option Bucket) : (d.setBucket k c).allsums = d.allsums := rfl
@[simp] theorem Dev.setBucket_tridalHeld (d : Dev) (k : Nat) (c : Option Bucket) : (d.setBucket k c).tridalHeld = d.tridalHeld := rfl
@[simp] theorem Dev.setBucket_tridalWait (d : Dev) (k : Nat) (c : Option Bucket) : (d.setBucket k c).tridalWait = d.tridalWait := rfl
@[simp] theorem Dev.setBucket_collHeld (d : Dev) (k : Nat) (c : Option Bucket) : (d.setBucket k c).collHeld = d.collHeld := rfl
@[simp] theorem Dev.setBucket_valvePend (d : Dev) (k : Nat) (c : Option Bucket) : (d.setBucket k c).valvePend = d.valvePend := rfl
@[simp] theorem Dev.setBucket_reqQueue (d : Dev) (k : Nat) (c : Option Bucket) : (d.setBucket k c).reqQueue = d.reqQueue := rfl
@[simp] theorem Dev.setBucket_slotHeld (d : Dev) (k : Nat) (c : Option Bucket) : (d.setBucket k c).slotHeld = d.slotHeld := rfl
@[simp] theorem Dev.setBucket_slotOn (d : Dev) (k : Nat) (c : Option Bucket) : (d.setBucket k c).slotOn = d.slotOn := rfl
@[simp] theorem Dev.setBucket_burstOn (d : Dev) (k : Nat) (c : Option Bucket) : (d.setBucket k c).burstOn = d.burstOn := rfl
@[simp] theorem Dev.setBucket_storeQueue (d : Dev) (k : Nat) (c : Option Bucket) : (d.setBucket k c).storeQueue = d.storeQueue := rfl
@[simp] theorem Dev.setBucket_heldIn (d : Dev) (k : Nat) (c : Option Bucket) : (d.setBucket k c).heldIn = d.heldIn := rfl
@[simp] theorem Dev.setBucket_regHeld (d : Dev) (k : Nat) (c : Option Bucket) : (d.setBucket k c).regHeld = d.regHeld := rfl
@[simp] theorem Dev.setBucket_shapeHeld (d : Dev) (k : Nat) (c : Option Bucket) : (d.setBucket k c).shapeHeld = d.shapeHeld := rfl
@[simp] theorem Dev.setBucket_openBulks (d : Dev) (k : Nat) (c : Option Bucket) : (d.setBucket k c).openBulks = d.openBulks := rfl
@[simp] theorem Dev.setBucket_bulkHeld (d : Dev) (k : Nat) (c : Option Bucket) : (d.setBucket k c).bulkHeld = d.bulkHeld := rfl
@[simp] theorem Dev.setBucket_routeLoad (d : Dev) (k : Nat) (c : Option Bucket) : (d.setBucket k c).routeLoad = d.routeLoad := rfl
@[simp] theorem Dev.setBucket_rates (d : Dev) (k : Nat) (c : Option Bucket) : (d.setBucket k c).rates = d.rates := rfl
@[simp] theorem Dev.setBucket_power (d : Dev) (k : Nat) (c : Option Bucket) : (d.setBucket k c).power = d.power := rfl
@[simp] theorem Dev.setBucket_logs (d : Dev) (k : Nat) (c : Option Bucket) : (d.setBucket k c).logs = d.logs := rfl
@[simp] theorem Dev.setBucket_pend (d : Dev) (k : Nat) (c : Option Bucket) : (d.setBucket k c).pend = d.pend := rfl

/-! ### setGroup -/

@[simp] theorem Dev.setGroup_life (d : Dev) (k : Nat) (c : Option CollGroup) : (d.setGroup k c).life = d.life := rfl
@[simp] theorem Dev.setGroup_mem (d : Dev) (k : Nat) (c : Option CollGroup) : (d.setGroup k c).mem = d.mem := rfl
@[simp] theorem Dev.setGroup_val (d : Dev) (k : Nat) (c : Option CollGroup) : (d.setGroup k c).val = d.val := rfl
@[simp] theorem Dev.setGroup_out (d : Dev) (k : Nat) (c : Option CollGroup) : (d.setGroup k c).out = d.out := rfl
@[simp] theorem Dev.setGroup_freeCtr (d : Dev) (k : Nat) (c : Option CollGroup) : (d.setGroup k c).freeCtr = d.freeCtr := rfl
@[simp] theorem Dev.setGroup_cores (d : Dev) (k : Nat) (c : Option CollGroup) : (d.setGroup k c).cores = d.cores := rfl
@[simp] theorem Dev.setGroup_clusters (d : Dev) (k : Nat) (c : Option CollGroup) : (d.setGroup k c).clusters = d.clusters := rfl
@[simp] theorem Dev.setGroup_ctxs (d : Dev) (k : Nat) (c : Option CollGroup) : (d.setGroup k c).ctxs = d.ctxs := rfl
@[simp] theorem Dev.setGroup_valves (d : Dev) (k : Nat) (c : Option CollGroup) : (d.setGroup k c).valves = d.valves := rfl
@[simp] theorem Dev.setGroup_ports (d : Dev) (k : Nat) (c : Option CollGroup) : (d.setGroup k c).ports = d.ports := rfl
@[simp] theorem Dev.setGroup_links (d : Dev) (k : Nat) (c : Option CollGroup) : (d.setGroup k c).links = d.links := rfl
@[simp] theorem Dev.setGroup_regs (d : Dev) (k : Nat) (c : Option CollGroup) : (d.setGroup k c).regs = d.regs := rfl
@[simp] theorem Dev.setGroup_inForce (d : Dev) (k : Nat) (c : Option CollGroup) : (d.setGroup k c).inForce = d.inForce := rfl
@[simp] theorem Dev.setGroup_reqs (d : Dev) (k : Nat) (c : Option CollGroup) : (d.setGroup k c).reqs = d.reqs := rfl
@[simp] theorem Dev.setGroup_prime (d : Dev) (k : Nat) (c : Option CollGroup) : (d.setGroup k c).prime = d.prime := rfl
@[simp] theorem Dev.setGroup_boot (d : Dev) (k : Nat) (c : Option CollGroup) : (d.setGroup k c).boot = d.boot := rfl
@[simp] theorem Dev.setGroup_flash (d : Dev) (k : Nat) (c : Option CollGroup) : (d.setGroup k c).flash = d.flash := rfl
@[simp] theorem Dev.setGroup_routes (d : Dev) (k : Nat) (c : Option CollGroup) : (d.setGroup k c).routes = d.routes := rfl
@[simp] theorem Dev.setGroup_sqs (d : Dev) (k : Nat) (c : Option CollGroup) : (d.setGroup k c).sqs = d.sqs := rfl
@[simp] theorem Dev.setGroup_cqs (d : Dev) (k : Nat) (c : Option CollGroup) : (d.setGroup k c).cqs = d.cqs := rfl
@[simp] theorem Dev.setGroup_hqueues (d : Dev) (k : Nat) (c : Option CollGroup) : (d.setGroup k c).hqueues = d.hqueues := rfl
@[simp] theorem Dev.setGroup_pools (d : Dev) (k : Nat) (c : Option CollGroup) : (d.setGroup k c).pools = d.pools := rfl
@[simp] theorem Dev.setGroup_buckets (d : Dev) (k : Nat) (c : Option CollGroup) : (d.setGroup k c).buckets = d.buckets := rfl
@[simp] theorem Dev.setGroup_fetched (d : Dev) (k : Nat) (c : Option CollGroup) : (d.setGroup k c).fetched = d.fetched := rfl
@[simp] theorem Dev.setGroup_selects (d : Dev) (k : Nat) (c : Option CollGroup) : (d.setGroup k c).selects = d.selects := rfl
@[simp] theorem Dev.setGroup_rounds (d : Dev) (k : Nat) (c : Option CollGroup) : (d.setGroup k c).rounds = d.rounds := rfl
@[simp] theorem Dev.setGroup_updates (d : Dev) (k : Nat) (c : Option CollGroup) : (d.setGroup k c).updates = d.updates := rfl
@[simp] theorem Dev.setGroup_allsums (d : Dev) (k : Nat) (c : Option CollGroup) : (d.setGroup k c).allsums = d.allsums := rfl
@[simp] theorem Dev.setGroup_tridalHeld (d : Dev) (k : Nat) (c : Option CollGroup) : (d.setGroup k c).tridalHeld = d.tridalHeld := rfl
@[simp] theorem Dev.setGroup_tridalWait (d : Dev) (k : Nat) (c : Option CollGroup) : (d.setGroup k c).tridalWait = d.tridalWait := rfl
@[simp] theorem Dev.setGroup_collHeld (d : Dev) (k : Nat) (c : Option CollGroup) : (d.setGroup k c).collHeld = d.collHeld := rfl
@[simp] theorem Dev.setGroup_valvePend (d : Dev) (k : Nat) (c : Option CollGroup) : (d.setGroup k c).valvePend = d.valvePend := rfl
@[simp] theorem Dev.setGroup_reqQueue (d : Dev) (k : Nat) (c : Option CollGroup) : (d.setGroup k c).reqQueue = d.reqQueue := rfl
@[simp] theorem Dev.setGroup_slotHeld (d : Dev) (k : Nat) (c : Option CollGroup) : (d.setGroup k c).slotHeld = d.slotHeld := rfl
@[simp] theorem Dev.setGroup_slotOn (d : Dev) (k : Nat) (c : Option CollGroup) : (d.setGroup k c).slotOn = d.slotOn := rfl
@[simp] theorem Dev.setGroup_burstOn (d : Dev) (k : Nat) (c : Option CollGroup) : (d.setGroup k c).burstOn = d.burstOn := rfl
@[simp] theorem Dev.setGroup_storeQueue (d : Dev) (k : Nat) (c : Option CollGroup) : (d.setGroup k c).storeQueue = d.storeQueue := rfl
@[simp] theorem Dev.setGroup_heldIn (d : Dev) (k : Nat) (c : Option CollGroup) : (d.setGroup k c).heldIn = d.heldIn := rfl
@[simp] theorem Dev.setGroup_regHeld (d : Dev) (k : Nat) (c : Option CollGroup) : (d.setGroup k c).regHeld = d.regHeld := rfl
@[simp] theorem Dev.setGroup_shapeHeld (d : Dev) (k : Nat) (c : Option CollGroup) : (d.setGroup k c).shapeHeld = d.shapeHeld := rfl
@[simp] theorem Dev.setGroup_openBulks (d : Dev) (k : Nat) (c : Option CollGroup) : (d.setGroup k c).openBulks = d.openBulks := rfl
@[simp] theorem Dev.setGroup_bulkHeld (d : Dev) (k : Nat) (c : Option CollGroup) : (d.setGroup k c).bulkHeld = d.bulkHeld := rfl
@[simp] theorem Dev.setGroup_routeLoad (d : Dev) (k : Nat) (c : Option CollGroup) : (d.setGroup k c).routeLoad = d.routeLoad := rfl
@[simp] theorem Dev.setGroup_rates (d : Dev) (k : Nat) (c : Option CollGroup) : (d.setGroup k c).rates = d.rates := rfl
@[simp] theorem Dev.setGroup_power (d : Dev) (k : Nat) (c : Option CollGroup) : (d.setGroup k c).power = d.power := rfl
@[simp] theorem Dev.setGroup_logs (d : Dev) (k : Nat) (c : Option CollGroup) : (d.setGroup k c).logs = d.logs := rfl
@[simp] theorem Dev.setGroup_pend (d : Dev) (k : Nat) (c : Option CollGroup) : (d.setGroup k c).pend = d.pend := rfl

/-! ### updCmd -/

@[simp] theorem Dev.updCmd_life (d : Dev) (id : Nat) (f : QCmd → QCmd) : (d.updCmd id f).life = d.life := rfl
@[simp] theorem Dev.updCmd_mem (d : Dev) (id : Nat) (f : QCmd → QCmd) : (d.updCmd id f).mem = d.mem := rfl
@[simp] theorem Dev.updCmd_val (d : Dev) (id : Nat) (f : QCmd → QCmd) : (d.updCmd id f).val = d.val := rfl
@[simp] theorem Dev.updCmd_out (d : Dev) (id : Nat) (f : QCmd → QCmd) : (d.updCmd id f).out = d.out := rfl
@[simp] theorem Dev.updCmd_freeCtr (d : Dev) (id : Nat) (f : QCmd → QCmd) : (d.updCmd id f).freeCtr = d.freeCtr := rfl
@[simp] theorem Dev.updCmd_cores (d : Dev) (id : Nat) (f : QCmd → QCmd) : (d.updCmd id f).cores = d.cores := rfl
@[simp] theorem Dev.updCmd_clusters (d : Dev) (id : Nat) (f : QCmd → QCmd) : (d.updCmd id f).clusters = d.clusters := rfl
@[simp] theorem Dev.updCmd_ctxs (d : Dev) (id : Nat) (f : QCmd → QCmd) : (d.updCmd id f).ctxs = d.ctxs := rfl
@[simp] theorem Dev.updCmd_valves (d : Dev) (id : Nat) (f : QCmd → QCmd) : (d.updCmd id f).valves = d.valves := rfl
@[simp] theorem Dev.updCmd_ports (d : Dev) (id : Nat) (f : QCmd → QCmd) : (d.updCmd id f).ports = d.ports := rfl
@[simp] theorem Dev.updCmd_links (d : Dev) (id : Nat) (f : QCmd → QCmd) : (d.updCmd id f).links = d.links := rfl
@[simp] theorem Dev.updCmd_regs (d : Dev) (id : Nat) (f : QCmd → QCmd) : (d.updCmd id f).regs = d.regs := rfl
@[simp] theorem Dev.updCmd_reqs (d : Dev) (id : Nat) (f : QCmd → QCmd) : (d.updCmd id f).reqs = d.reqs := rfl
@[simp] theorem Dev.updCmd_prime (d : Dev) (id : Nat) (f : QCmd → QCmd) : (d.updCmd id f).prime = d.prime := rfl
@[simp] theorem Dev.updCmd_boot (d : Dev) (id : Nat) (f : QCmd → QCmd) : (d.updCmd id f).boot = d.boot := rfl
@[simp] theorem Dev.updCmd_flash (d : Dev) (id : Nat) (f : QCmd → QCmd) : (d.updCmd id f).flash = d.flash := rfl
@[simp] theorem Dev.updCmd_routes (d : Dev) (id : Nat) (f : QCmd → QCmd) : (d.updCmd id f).routes = d.routes := rfl
@[simp] theorem Dev.updCmd_sqs (d : Dev) (id : Nat) (f : QCmd → QCmd) : (d.updCmd id f).sqs = d.sqs := rfl
@[simp] theorem Dev.updCmd_cqs (d : Dev) (id : Nat) (f : QCmd → QCmd) : (d.updCmd id f).cqs = d.cqs := rfl
@[simp] theorem Dev.updCmd_groups (d : Dev) (id : Nat) (f : QCmd → QCmd) : (d.updCmd id f).groups = d.groups := rfl
@[simp] theorem Dev.updCmd_hqueues (d : Dev) (id : Nat) (f : QCmd → QCmd) : (d.updCmd id f).hqueues = d.hqueues := rfl
@[simp] theorem Dev.updCmd_pools (d : Dev) (id : Nat) (f : QCmd → QCmd) : (d.updCmd id f).pools = d.pools := rfl
@[simp] theorem Dev.updCmd_buckets (d : Dev) (id : Nat) (f : QCmd → QCmd) : (d.updCmd id f).buckets = d.buckets := rfl
@[simp] theorem Dev.updCmd_fetched (d : Dev) (id : Nat) (f : QCmd → QCmd) : (d.updCmd id f).fetched = d.fetched := rfl
@[simp] theorem Dev.updCmd_selects (d : Dev) (id : Nat) (f : QCmd → QCmd) : (d.updCmd id f).selects = d.selects := rfl
@[simp] theorem Dev.updCmd_rounds (d : Dev) (id : Nat) (f : QCmd → QCmd) : (d.updCmd id f).rounds = d.rounds := rfl
@[simp] theorem Dev.updCmd_updates (d : Dev) (id : Nat) (f : QCmd → QCmd) : (d.updCmd id f).updates = d.updates := rfl
@[simp] theorem Dev.updCmd_allsums (d : Dev) (id : Nat) (f : QCmd → QCmd) : (d.updCmd id f).allsums = d.allsums := rfl
@[simp] theorem Dev.updCmd_tridalHeld (d : Dev) (id : Nat) (f : QCmd → QCmd) : (d.updCmd id f).tridalHeld = d.tridalHeld := rfl
@[simp] theorem Dev.updCmd_tridalWait (d : Dev) (id : Nat) (f : QCmd → QCmd) : (d.updCmd id f).tridalWait = d.tridalWait := rfl
@[simp] theorem Dev.updCmd_collHeld (d : Dev) (id : Nat) (f : QCmd → QCmd) : (d.updCmd id f).collHeld = d.collHeld := rfl
@[simp] theorem Dev.updCmd_valvePend (d : Dev) (id : Nat) (f : QCmd → QCmd) : (d.updCmd id f).valvePend = d.valvePend := rfl
@[simp] theorem Dev.updCmd_reqQueue (d : Dev) (id : Nat) (f : QCmd → QCmd) : (d.updCmd id f).reqQueue = d.reqQueue := rfl
@[simp] theorem Dev.updCmd_slotHeld (d : Dev) (id : Nat) (f : QCmd → QCmd) : (d.updCmd id f).slotHeld = d.slotHeld := rfl
@[simp] theorem Dev.updCmd_slotOn (d : Dev) (id : Nat) (f : QCmd → QCmd) : (d.updCmd id f).slotOn = d.slotOn := rfl
@[simp] theorem Dev.updCmd_burstOn (d : Dev) (id : Nat) (f : QCmd → QCmd) : (d.updCmd id f).burstOn = d.burstOn := rfl
@[simp] theorem Dev.updCmd_storeQueue (d : Dev) (id : Nat) (f : QCmd → QCmd) : (d.updCmd id f).storeQueue = d.storeQueue := rfl
@[simp] theorem Dev.updCmd_heldIn (d : Dev) (id : Nat) (f : QCmd → QCmd) : (d.updCmd id f).heldIn = d.heldIn := rfl
@[simp] theorem Dev.updCmd_regHeld (d : Dev) (id : Nat) (f : QCmd → QCmd) : (d.updCmd id f).regHeld = d.regHeld := rfl
@[simp] theorem Dev.updCmd_shapeHeld (d : Dev) (id : Nat) (f : QCmd → QCmd) : (d.updCmd id f).shapeHeld = d.shapeHeld := rfl
@[simp] theorem Dev.updCmd_openBulks (d : Dev) (id : Nat) (f : QCmd → QCmd) : (d.updCmd id f).openBulks = d.openBulks := rfl
@[simp] theorem Dev.updCmd_bulkHeld (d : Dev) (id : Nat) (f : QCmd → QCmd) : (d.updCmd id f).bulkHeld = d.bulkHeld := rfl
@[simp] theorem Dev.updCmd_routeLoad (d : Dev) (id : Nat) (f : QCmd → QCmd) : (d.updCmd id f).routeLoad = d.routeLoad := rfl
@[simp] theorem Dev.updCmd_rates (d : Dev) (id : Nat) (f : QCmd → QCmd) : (d.updCmd id f).rates = d.rates := rfl
@[simp] theorem Dev.updCmd_power (d : Dev) (id : Nat) (f : QCmd → QCmd) : (d.updCmd id f).power = d.power := rfl
@[simp] theorem Dev.updCmd_logs (d : Dev) (id : Nat) (f : QCmd → QCmd) : (d.updCmd id f).logs = d.logs := rfl
@[simp] theorem Dev.updCmd_pend (d : Dev) (id : Nat) (f : QCmd → QCmd) : (d.updCmd id f).pend = d.pend := rfl

@[simp] theorem Dev.emit_out (d : Dev) (o : Output) : (d.emit o).out = d.out ++ [o] := rfl
@[simp] theorem Dev.tickFree_freeCtr (d : Dev) : d.tickFree.freeCtr = d.freeCtr + 1 := rfl

/-! ### Accessors after the updates of their maps -/

@[simp] theorem Dev.core_setCore_self (d : Dev) (k : Nat) (c : Core) : (d.setCore k c).core k = c :=
  SMap.get_put_self _ d.cores k c

theorem Dev.core_setCore_other (d : Dev) (k j : Nat) (c : Core) (h : j ≠ k) : (d.setCore k c).core j = d.core j :=
  SMap.get_put_other _ d.cores k j c h

@[simp] theorem Dev.ctx_setCtx_self (d : Dev) (k : Nat) (c : Ctx) : (d.setCtx k c).ctx k = c :=
  SMap.get_put_self _ d.ctxs k c

theorem Dev.ctx_setCtx_other (d : Dev) (k j : Nat) (c : Ctx) (h : j ≠ k) : (d.setCtx k c).ctx j = d.ctx j :=
  SMap.get_put_other _ d.ctxs k j c h

@[simp] theorem Dev.port_setPort_self (d : Dev) (k : Nat) (c : Port) : (d.setPort k c).port k = c :=
  SMap.get_put_self _ d.ports k c

theorem Dev.port_setPort_other (d : Dev) (k j : Nat) (c : Port) (h : j ≠ k) : (d.setPort k c).port j = d.port j :=
  SMap.get_put_other _ d.ports k j c h

@[simp] theorem Dev.link_setLink_self (d : Dev) (k : Nat) (c : Link) : (d.setLink k c).link k = c :=
  SMap.get_put_self _ d.links k c

theorem Dev.link_setLink_other (d : Dev) (k j : Nat) (c : Link) (h : j ≠ k) : (d.setLink k c).link j = d.link j :=
  SMap.get_put_other _ d.links k j c h

@[simp] theorem Dev.reg_setReg_self (d : Dev) (k : Nat) (c : RegBlock) : (d.setReg k c).reg k = c :=
  SMap.get_put_self _ d.regs k c

theorem Dev.reg_setReg_other (d : Dev) (k j : Nat) (c : RegBlock) (h : j ≠ k) : (d.setReg k c).reg j = d.reg j :=
  SMap.get_put_other _ d.regs k j c h

@[simp] theorem Dev.sq_setSq_self (d : Dev) (k : Nat) (c : SqRun) : (d.setSq k c).sq k = c :=
  SMap.get_put_self _ d.sqs k c

theorem Dev.sq_setSq_other (d : Dev) (k j : Nat) (c : SqRun) (h : j ≠ k) : (d.setSq k c).sq j = d.sq j :=
  SMap.get_put_other _ d.sqs k j c h

@[simp] theorem Dev.cq_setCq_self (d : Dev) (k : Nat) (c : CqRun) : (d.setCq k c).cq k = c :=
  SMap.get_put_self _ d.cqs k c

theorem Dev.cq_setCq_other (d : Dev) (k j : Nat) (c : CqRun) (h : j ≠ k) : (d.setCq k c).cq j = d.cq j :=
  SMap.get_put_other _ d.cqs k j c h

@[simp] theorem Dev.valve_setValve_self (d : Dev) (k : Nat) (c : Nat) : (d.setValve k c).valve k = c :=
  SMap.get_put_self _ d.valves k c

theorem Dev.valve_setValve_other (d : Dev) (k j : Nat) (c : Nat) (h : j ≠ k) : (d.setValve k c).valve j = d.valve j :=
  SMap.get_put_other _ d.valves k j c h

@[simp] theorem Dev.cluster_setCluster_self (d : Dev) (k : Nat) (c : Cluster) : (d.setCluster k c).cluster k = c :=
  SMap.get_put_self _ d.clusters k c

theorem Dev.cluster_setCluster_other (d : Dev) (k j : Nat) (c : Cluster) (h : j ≠ k) : (d.setCluster k c).cluster j = d.cluster j :=
  SMap.get_put_other _ d.clusters k j c h

@[simp] theorem Dev.hq_setHq_self (d : Dev) (k : Nat) (c : HQueue) : (d.setHq k c).hq k = c :=
  SMap.get_put_self _ d.hqueues k c

theorem Dev.hq_setHq_other (d : Dev) (k j : Nat) (c : HQueue) (h : j ≠ k) : (d.setHq k c).hq j = d.hq j :=
  SMap.get_put_other _ d.hqueues k j c h

@[simp] theorem Dev.pool_setPool_self (d : Dev) (k : Nat) (c : Pool) : (d.setPool k c).pool k = c :=
  SMap.get_put_self _ d.pools k c

theorem Dev.pool_setPool_other (d : Dev) (k j : Nat) (c : Pool) (h : j ≠ k) : (d.setPool k c).pool j = d.pool j :=
  SMap.get_put_other _ d.pools k j c h

@[simp] theorem Dev.bucket_setBucket_self (d : Dev) (k : Nat) (c : Option Bucket) : (d.setBucket k c).bucket k = c :=
  SMap.get_put_self _ d.buckets k c

theorem Dev.bucket_setBucket_other (d : Dev) (k j : Nat) (c : Option Bucket) (h : j ≠ k) : (d.setBucket k c).bucket j = d.bucket j :=
  SMap.get_put_other _ d.buckets k j c h

@[simp] theorem Dev.group_setGroup_self (d : Dev) (k : Nat) (c : Option CollGroup) : (d.setGroup k c).group k = c :=
  SMap.get_put_self _ d.groups k c

theorem Dev.group_setGroup_other (d : Dev) (k j : Nat) (c : Option CollGroup) (h : j ≠ k) : (d.setGroup k c).group j = d.group j :=
  SMap.get_put_other _ d.groups k j c h

end Sys2Proof.Machine
end

