-- ==== Sys2Proof/Laws/Ops.lean ====
section
/-! SUPPORT. What the shared operations of the commands can do: the frames `onDev`, `onBoth`, `turnoverEvent`, `onRequest`
and `onTap`, one step of a sequencer, the issue of a queue command, units that go on step by step, a packet at ingress, what a load leaves
in the caches, and a plan that goes on. -/

namespace Sys2Proof.Machine

/-! ### Frames of the commands -/

theorem onDev_on {s : State} (h : s.dev.life = .on) (f : Clock → Dev → Dev) : onDev s f = .next { s with dev := f s.clk s.dev } := by
  simp [onDev, h]

theorem onDev_off {s : State} (h : s.dev.life ≠ .on) (f : Clock → Dev → Dev) : onDev s f = .next s := by
  simp [onDev, h]

theorem onBoth_on {s : State} (h : s.dev.life = .on) (f : Clock → Dev → Clock × Dev) :
    onBoth s f = .next { s with clk := (f s.clk s.dev).1, dev := (f s.clk s.dev).2 } := by
  simp [onBoth, h]

theorem onBoth_off {s : State} (h : s.dev.life ≠ .on) (f : Clock → Dev → Clock × Dev) : onBoth s f = .next s := by
  simp [onBoth, h]

theorem turnoverEvent_at {s : State} {st : Stage} (h : s.TurnAt st) (f : Clock → Dev → Clock × Dev) :
    turnoverEvent s st f = .next { s with clk := (f s.clk s.dev).1, dev := (f s.clk s.dev).2 } := by
  simp [turnoverEvent, onBoth_on h.on, h.runs, h.stage]

theorem turnoverEvent_else {s : State} {st : Stage} (h : s.clk.running = false ∨ s.clk.stage ≠ st) (f : Clock → Dev → Clock × Dev) :
    turnoverEvent s st f = .next s := by
  have h1 : (s.clk.running && decide (s.clk.stage = st)) = false := by
    rcases h with h | h <;> simp [h]
  unfold turnoverEvent onBoth
  simp only [h1]
  split <;> rfl

theorem onRequest_on {s : State} (h : s.dev.life = .on) (p : Path) (f : Clock → Dev → Clock × Dev) :
    onRequest s p f = .next { s with clk := (f s.clk s.dev).1, dev := (f s.clk s.dev).2 } := by
  simp [onRequest, h]

/-! ### Statuses and counters -/

/-- `d'` differs from `d` in contexts and dictionary values alone. -/
def Dev.sameBut (d d' : Dev) : Prop := ∃ cs vs, d' = { d with ctxs := cs, val := vs }

theorem Dev.sameBut_refl (d : Dev) : d.sameBut d := ⟨_, _, rfl⟩

theorem Dev.sameBut_trans {a b c : Dev} (h : a.sameBut b) (k : b.sameBut c) : a.sameBut c := by
  obtain ⟨_, _, rfl⟩ := h
  obtain ⟨_, _, rfl⟩ := k
  exact ⟨_, _, rfl⟩

theorem Dev.sameBut.core {d d' : Dev} (h : d.sameBut d') (c : Nat) : d'.core c = d.core c := by
  obtain ⟨_, _, rfl⟩ := h
  rfl

theorem Dev.bumpKey_same (d : Dev) (k n : Nat) : d.sameBut (d.bumpKey k n) := ⟨_, _, rfl⟩

theorem Dev.bump_same (d : Dev) (i j e n : Nat) : d.sameBut (d.bump i j e n) := ⟨_, _, rfl⟩

theorem Dev.setCtx_same (d : Dev) (k : Nat) (c : Ctx) : d.sameBut (d.setCtx k c) := ⟨_, _, rfl⟩

theorem Dev.updCtx_same (d : Dev) (k : Nat) (f : Ctx → Ctx) : d.sameBut (d.updCtx k f) := ⟨_, _, rfl⟩

theorem Dev.countStatus_same (d : Dev) (st : Status) : d.sameBut (d.countStatus st) := by
  unfold Dev.countStatus
  split
  · exact d.bumpKey_same _ _
  · exact d.sameBut_refl

theorem Dev.escalate_same (d : Dev) (k : Nat) : d.sameBut (d.escalate k) := by
  unfold Dev.escalate
  split
  · exact d.sameBut_refl
  · exact Dev.sameBut_trans (Dev.sameBut_trans (d.updCtx_same k _) (Dev.countStatus_same _ _)) (Dev.bump_same _ _ _ _ _)

/-- Raising a status changes contexts and counters alone. -/
theorem Dev.raiseAt_same (d : Dev) (k : Nat) (st : Status) (x : Nat) (y : UnitKind) (z : Nat) : d.sameBut (d.raiseAt k st x y z) := by
  have h : d.sameBut ((d.setCtx k { d.ctx k with statuses := (d.ctx k).statuses ++ [⟨st, x, y, z⟩] }).countStatus st) :=
    Dev.sameBut_trans (d.setCtx_same k _) (Dev.countStatus_same _ _)
  unfold Dev.raiseAt
  simp only
  split
  · exact Dev.sameBut_trans h (Dev.escalate_same _ _)
  · exact h

theorem Dev.uncorrected_same (d : Dev) (k : Nat) : d.sameBut (d.uncorrected k) := by
  unfold Dev.uncorrected
  split
  · exact d.escalate_same k
  · exact d.updCtx_same k _

theorem Dev.raiseUncorrected_same (d : Dev) (k : Nat) (st : Status) (x : UnitKind) (y : Nat) : d.sameBut (d.raiseUncorrected k st x y) :=
  Dev.sameBut_trans (d.raiseAt_same k st 0 x y) (Dev.uncorrected_same _ _)

/-! ### Sequencers and queues -/

/-- At an instruction that may issue, the command whose instruction it is does its work. -/
theorem Dev.seqStep_at {s : State} {c : Nat} {r : PlanRun} {i : SeqInstr} (h : s.SeqAt c r i) (mine : SeqInstr → Bool)
    (f : Dev → PlanRun → SeqInstr → Dev) :
    s.dev.seqStep s.clk c mine f = if mine i then f s.dev r i else s.dev := by
  have h1 : ¬(1 ≤ i.op ∧ i.op ≤ 4 ∧ (s.dev.cluster (c / 8)).holder ≠ some r.ctx) := fun ⟨a, b, e⟩ => e (h.owned a b)
  have h2 : (decide (1 ≤ i.op) && decide (i.op ≤ 4) && decide ((s.dev.cluster (c / 8)).holder ≠ some r.ctx)) = false := by
    simpa [Bool.and_eq_false_iff, and_assoc] using h1
  unfold Dev.seqStep
  simp only [h.run, h.work, h.steady, h.asked, h.may, h.next, h.ok, h.known]
  simp only [h2]
  simp

/-- A queue's eligible command issues, under the command whose operation it is. -/
theorem Dev.issueCmd_at {s : State} {q op : Nat} {x : QCmd} (h : s.CmdAt q op x) (f : Dev → QCmd → Dev) :
    s.dev.issueCmd s.clk q op f = f (s.dev.issuedCmd x) x := by
  simp [Dev.issueCmd, h.work, h.next, h.may, h.gate, h.op, Dev.issuedCmd]

theorem unitRunAux_ok {c : Clock} {w : Who} {fin : Dev → Dev} {f : Dev → Except Bar Dev} {n : Nat} {d e : Dev} (h : f d = .ok e) :
    unitRunAux c w fin f (n + 1) d = fin e := by
  unfold unitRunAux
  rw [h]

/-! ### Units that go on step by step -/

/-- Steps that meet no bar are taken one after another. -/
theorem unitSteps_steps {c : Clock} {step : Dev → Option (Who × Except Bar Dev)} {n : Nat} {d e : Dev} (h : Steps step n d e) (k : Nat) :
    unitSteps c step (n + k) d = unitSteps c step k e := by
  induction h with
  | rest d => rw [Nat.zero_add]
  | more hs _ ih => rw [Nat.add_right_comm, unitSteps, hs]; exact ih

theorem unitSteps_done {c : Clock} {step : Dev → Option (Who × Except Bar Dev)} {d : Dev} (h : step d = none) (k : Nat) :
    unitSteps c step k d = d := by
  cases k with
  | zero => rfl
  | succ k => rw [unitSteps, h]

/-- A unit none of whose steps meets a bar takes them all. -/
theorem Dev.unitGo_steps {c : Clock} {step : Dev → Option (Who × Except Bar Dev)} {n : Nat} {d e : Dev} (h : Steps step n d e)
    (b : n ≤ 4194304) (fin : step e = none) : d.unitGo c step = e := by
  obtain ⟨k, hk⟩ := Nat.exists_eq_add_of_le b
  unfold Dev.unitGo
  rw [hk, unitSteps_steps h, unitSteps_done fin]

/-- A unit with nothing to do changes nothing. -/
theorem Dev.unitGo_idle {c : Clock} {step : Dev → Option (Who × Except Bar Dev)} {d : Dev} (h : step d = none) : d.unitGo c step = d :=
  Dev.unitGo_steps (.rest d) (Nat.zero_le _) h

/-- Update units that meet no bar take every step they have. -/
theorem Dev.updUnits_run {c : Clock} {d e : Dev} (h : UnitsRun c d e) :
    (List.range 32).foldl (fun d u => d.unitGo c fun d => d.updStep c u) d = e := by
  obtain ⟨f, h0, h32, hs⟩ := h
  have go : ∀ n, n ≤ 32 → (List.range n).foldl (fun d u => d.unitGo c fun d => d.updStep c u) d = f n := by
    intro n
    induction n with
    | zero => intro _; simpa using h0.symm
    | succ n ih =>
      intro hn
      obtain ⟨m, hm, hst, hfin⟩ := hs n hn
      rw [List.range_succ, List.foldl_append, ih (Nat.le_of_succ_le hn)]
      exact Dev.unitGo_steps hst hm hfin
  rw [go 32 (Nat.le_refl _), h32]

/-! ### Units that do their work at once -/

/-- A unit whose accesses can all be made does its work and is done. -/
theorem Dev.unitRun_ok {d e : Dev} {c : Clock} {w : Who} {f : Dev → Except Bar Dev} (h : f d = .ok e) :
    d.unitRun c w f = e.unitDone c w := unitRunAux_ok (n := 65535) h

theorem Dev.unitPart_ok {d e : Dev} {c : Clock} {w : Who} {f : Dev → Except Bar Dev} (h : f d = .ok e) :
    d.unitPart c w f = e := unitRunAux_ok (n := 65535) h

/-- A packet is taken while ingress is open, and what it fills is told to the neighbours (R308, R325). -/
theorem Dev.ingress_open {c : Clock} (h : c.open = true) (d : Dev) (i : Instr) :
    d.ingress c i = (d.ingressTake c i).flowControl := by
  unfold Clock.open at h
  simp only [Dev.ingress, h, if_true]

/-- A packet is held while ingress is closed. -/
theorem Dev.ingress_closed {c : Clock} (h : c.open = false) (d : Dev) (i : Instr) :
    d.ingress c i = { d with heldIn := d.heldIn ++ [i] } := by
  unfold Clock.open at h
  simp [Dev.ingress, h]

/-! ### Cores -/

theorem Dev.core_updCore_self (d : Dev) (c : Nat) (f : Core → Core) : (d.updCore c f).core c = f (d.core c) := by
  simp [Dev.updCore]

theorem Dev.core_updCore_other (d : Dev) (c k : Nat) (f : Core → Core) (h : k ≠ c) : (d.updCore c f).core k = d.core k :=
  Dev.core_setCore_other d c k _ h

/-- Of two writes of one core the later one stands, where the earlier left the core a plan. -/
theorem Dev.setCore_setCore (d : Dev) (c : Nat) (a b : Core) (h : a.run.isSome = true) : (d.setCore c a).setCore c b = d.setCore c b := by
  have : a ≠ ({} : Core) := fun e => by subst e; simp at h
  exact congrArg (fun cs => { d with cores := cs }) (SMap.put_put (d := fun _ => ({} : Core)) d.cores c a b this)

/-! ### What a load leaves in the caches (R108) -/

/-- `d'` differs from `d` in what caches hold, and in occasions of free values, alone. -/
def Dev.cachesOnly (d d' : Dev) : Prop :=
  (∃ cs ks n, d' = { d with cores := cs, clusters := ks, freeCtr := n }) ∧ ∀ c, ∃ l, d'.core c = { d.core c with dcache := l }

theorem Dev.cachesOnly_refl (d : Dev) : d.cachesOnly d := ⟨⟨_, _, _, rfl⟩, fun _ => ⟨_, rfl⟩⟩

theorem Dev.cachesOnly_trans {a b c : Dev} (h : a.cachesOnly b) (k : b.cachesOnly c) : a.cachesOnly c := by
  obtain ⟨⟨_, _, _, rfl⟩, h⟩ := h
  obtain ⟨⟨_, _, _, rfl⟩, k⟩ := k
  refine ⟨⟨_, _, _, rfl⟩, fun i => ?_⟩
  obtain ⟨_, e⟩ := h i
  obtain ⟨l, f⟩ := k i
  exact ⟨l, by rw [f, e]⟩

theorem Dev.cachesOnly_foldl {α : Type} (f : Dev → α → Dev) (hf : ∀ d x, Dev.cachesOnly d (f d x)) (xs : List α) (d : Dev) :
    d.cachesOnly (xs.foldl f d) := by
  induction xs generalizing d with
  | nil => exact d.cachesOnly_refl
  | cons x xs ih => exact Dev.cachesOnly_trans (hf d x) (ih (f d x))

theorem Dev.updCore_cachesOnly (d : Dev) (k : Nat) (f : Core → Core) (hf : ∀ co, ∃ l, f co = { co with dcache := l }) :
    d.cachesOnly (d.updCore k f) := by
  refine ⟨⟨_, d.clusters, d.freeCtr, rfl⟩, fun c => ?_⟩
  by_cases e : c = k
  · subst e
    obtain ⟨l, h⟩ := hf (d.core c)
    exact ⟨l, by rw [Dev.core_updCore_self, h]⟩
  · exact ⟨(d.core c).dcache, by rw [Dev.core_updCore_other d k c f e]⟩

theorem Dev.setCluster_cachesOnly (d : Dev) (k : Nat) (x : Cluster) : d.cachesOnly (d.setCluster k x) :=
  ⟨⟨d.cores, _, d.freeCtr, rfl⟩, fun c => ⟨(d.core c).dcache, rfl⟩⟩

theorem Dev.cacheLine_cachesOnly (d : Dev) (core : Nat) (x : CacheLine) : d.cachesOnly (d.cacheLine core x) := by
  have last : ∀ (n : Nat) (d : Dev), d.cachesOnly (d.updCore core fun co => if co.dcache.contains x.line then co
      else { co with dcache := addBounded 1024 n co.dcache x.line }) := fun n d =>
    d.updCore_cachesOnly _ _ fun co => by
      by_cases h : co.dcache.contains x.line = true
      · exact ⟨co.dcache, if_pos h⟩
      · exact ⟨_, if_neg h⟩
  refine Dev.cachesOnly_trans ?_ (last _ _)
  split
  · exact d.setCluster_cachesOnly _ _
  · exact Dev.cachesOnly_trans (d.setCluster_cachesOnly _ _)
      (Dev.cachesOnly_foldl _ (fun d _ => d.updCore_cachesOnly _ _ fun _ => ⟨_, rfl⟩) _ _)

theorem Dev.tickFree_cachesOnly (d : Dev) : d.cachesOnly d.tickFree :=
  ⟨⟨d.cores, d.clusters, _, rfl⟩, fun c => ⟨(d.core c).dcache, rfl⟩⟩

theorem Dev.cacheRead_cachesOnly (d : Dev) (core a n : Nat) : d.cachesOnly (d.cacheRead core a n) := by
  have lines := Dev.cachesOnly_foldl (fun (e : Dev) l => e.cacheLine core (d.clusterLine (core / 8) l))
    (fun e _ => e.cacheLine_cachesOnly _ _) (linesOf a n) d
  unfold Dev.cacheRead
  simp only
  split
  · exact Dev.cachesOnly_trans lines (Dev.tickFree_cachesOnly _)
  · exact lines

/-- A load changes what caches hold, and nothing else. -/
theorem Dev.loaded_cachesOnly (d : Dev) (w : Who) (va n : Nat) : d.cachesOnly (d.loaded w va n) :=
  Dev.cachesOnly_foldl _ (fun d p => by
    split
    · split
      · exact d.cacheRead_cachesOnly _ _ _
      · exact d.cachesOnly_refl
    · exact d.cachesOnly_refl) _ d

theorem Dev.cachesOnly.run {d d' : Dev} (h : d.cachesOnly d') (c : Nat) : (d'.core c).run = (d.core c).run := by
  obtain ⟨l, e⟩ := h.2 c
  rw [e]

theorem Dev.cachesOnly.mem {d d' : Dev} (h : d.cachesOnly d') : d'.mem = d.mem := by
  obtain ⟨⟨_, _, _, rfl⟩, _⟩ := h
  rfl

/-- The fetch of an instruction leaves the plan that runs as it is. -/
@[simp] theorem Dev.run_afterFetch (d : Dev) (c : Nat) (r : PlanRun) (k : Nat) : ((d.afterFetch c r).core k).run = (d.core k).run :=
  (d.loaded_cachesOnly _ _ _).run k

@[simp] theorem Dev.mem_afterFetch (d : Dev) (c : Nat) (r : PlanRun) : (d.afterFetch c r).mem = d.mem :=
  (d.loaded_cachesOnly _ _ _).mem

/-! ### A plan goes on -/

theorem Dev.core_goesOn_self (d : Dev) (c : Nat) (r : PlanRun) :
    (d.goesOn c r).core c = { d.core c with run := some r, valveWait := none, queueWaits := false } :=
  Dev.core_updCore_self d c fun co => { co with run := some r, valveWait := none, queueWaits := false }

theorem Dev.core_goesOn_other (d : Dev) (c k : Nat) (r : PlanRun) (h : k ≠ c) : (d.goesOn c r).core k = d.core k :=
  Dev.core_setCore_other d c k _ h

/-- A plan that has not ended does not complete. -/
theorem Dev.settle_running {d : Dev} {c : Nat} {r : PlanRun} (h : (d.core c).run = some r) (e : r.ended = false) : d.settle c = d := by
  simp [Dev.settle, Core.planComplete, h, e]

/-- A plan whose engine operations are not all finished does not complete. -/
theorem Dev.settle_board {d : Dev} {c : Nat} (h : (d.core c).board ≠ []) : d.settle c = d := by
  have : (d.core c).planComplete = none := by
    unfold Core.planComplete
    cases hr : (d.core c).run with
    | none => rfl
    | some r => simp [Core.planQuiet, List.isEmpty_iff, h]
  simp [Dev.settle, this]

/-- The instruction of a core's plan has issued on device `d`, which the plan's run is still on. -/
theorem Dev.advance_passed {d : Dev} {c : Nat} {r : PlanRun} (i : SeqInstr) (h : (d.core c).run = some r) :
    d.advance c i = d.passed c r i := by
  have h1 : ((d.loaded (whoSeq c r) ((r.va + 40 * r.pc) % 2 ^ 48) 40).core c).run = some r := by
    rw [(d.loaded_cachesOnly _ _ _).run, h]
  unfold Dev.advance Dev.passed Dev.goesOn Dev.afterFetch
  simp only [h]
  unfold Dev.updCore
  simp only [h1]
  rfl

/-- An instruction that does not end its plan moves it on, and that is all. -/
theorem Dev.advance_running {d : Dev} {c : Nat} {r : PlanRun} (i : SeqInstr) (h : (d.core c).run = some r)
    (e : (r.after i).ended = false) : d.advance c i = (d.afterFetch c r).goesOn c (r.after i) := by
  rw [Dev.advance_passed i h]
  exact Dev.settle_running (r := r.after i) (by rw [Dev.core_goesOn_self]) e

end Sys2Proof.Machine
end

