-- ==== Sys2Proof/Laws/Residue.lean ====
section
/-! SUPPORT. The laws of the residue checks: the loop of spec/03_numerics.md R67 gives the residue modulo 7, and a step that is
right passes its check. -/

namespace Sys2Proof.Machine

theorem digitSum_mod (n x : Nat) (h : x < 8 ^ n) : digitSum n x % 7 = x % 7 := by
  induction n generalizing x with
  | zero => obtain rfl : x = 0 := by simpa using h
            rfl
  | succ n ih =>
    have := ih (x / 8) (by rw [Nat.pow_succ] at h; omega)
    simp only [digitSum]
    omega

theorem foldDigits_mod (n r : Nat) : foldDigits n r % 7 = r % 7 := by
  induction n generalizing r with
  | zero => rfl
  | succ n ih =>
    unfold foldDigits
    split
    · rw [ih]; omega
    · rfl

theorem foldDigits_le (n r : Nat) (h : r ≤ n) : foldDigits n r ≤ 7 := by
  induction n generalizing r with
  | zero => obtain rfl : r = 0 := by omega
            exact Nat.zero_le _
  | succ n ih =>
    unfold foldDigits
    split
    · exact ih _ (by omega)
    · omega

/-- The loop of R67 gives the residue modulo 7. -/
theorem res7_eq_mod (x : Nat) : res7 x = x % 7 := by
  have hx : x < 8 ^ (Nat.log2 x / 3 + 1) := by
    calc x < 2 ^ (Nat.log2 x + 1) := Nat.lt_log2_self
      _ ≤ 2 ^ (3 * (Nat.log2 x / 3 + 1)) := Nat.pow_le_pow_right (by decide) (by omega)
      _ = 8 ^ (Nat.log2 x / 3 + 1) := by rw [Nat.pow_mul]
  have hm := (foldDigits_mod (digitSum (Nat.log2 x / 3 + 1) x) _).trans (digitSum_mod _ x hx)
  have hl := foldDigits_le _ _ (Nat.le_refl (digitSum (Nat.log2 x / 3 + 1) x))
  unfold res7
  simp only
  split <;> omega

/-- Powers of two repeat modulo 7 with period 3. -/
theorem two_pow_mod (w : Nat) : 2 ^ w % 7 = 2 ^ (w % 3) % 7 := by
  have : 2 ^ w = (2 ^ 3) ^ (w / 3) * 2 ^ (w % 3) := by rw [← Nat.pow_mul, ← Nat.pow_add, Nat.div_add_mod]
  rw [this, Nat.mul_mod, Nat.pow_mod]
  simp

/-- An addition whose sum and carry are right passes its check. -/
theorem checkAdd_right {w a b s : Nat} {cin carry : Bool} (h : a + b + b2n cin = s + b2n carry * 2 ^ w) : checkAdd w a b s cin carry = true := by
  have hp := two_pow_mod w
  have : (b2n carry * 2 ^ w) % 7 = (b2n carry * 2 ^ (w % 3)) % 7 := by rw [Nat.mul_mod, hp, ← Nat.mul_mod]
  simp only [checkAdd, res7_eq_mod, decide_eq_true_eq]
  omega

/-- A right product passes its check. -/
theorem checkMul_right {a b p : Nat} (h : a * b = p) : checkMul a b p = true := by
  subst h
  simp [checkMul, res7_eq_mod]

end Sys2Proof.Machine
end

