-- ==== Sys2Proof/WellFormed.lean ====
section
/-! DEFINITION. Which commands are well formed: what the wires, the ports and the manual's own layouts let through. The
machine does not rely on it: `exec` answers on every command (log entry 35). -/

namespace Sys2Proof

/-- The OP field of a request header (R358). -/
def headerOp (h : BitVec 128) : Nat := (h.extractLsb' 120 8).toNat

/-- Data a request can carry: 1 to 4,096 bytes, 1,024 on the management port (R358, R365). -/
def dataFits (p : Path) (data : List Byte) : Bool :=
  decide (0 < data.length) && decide (data.length ≤ match p with | .mgmt _ => 1024 | _ => 4096)

/-- A Tridal message of type `t` with as many bytes as its COUNT needs (R171): 16-byte DEMAND entries, 8-byte GRANT entries,
one TOTAL word, or records with at least a tag. -/
def tridalFits (t : Nat) (m : TridalIn) : Bool :=
  let count := (m.header.extractLsb' 0 17).toNat
  (m.header.extractLsb' 56 8).toNat = t && (match t with
    | 1 => m.body.length = 16 * count
    | 2 => m.body.length = 8
    | 3 => m.body.length = 8 * count
    | 4 => m.body.length = 8
    | _ => decide (8 * count ≤ m.body.length) && m.poisoned.all fun i => decide (i < count))

/-- A COLLECTIVE packet of operation `op` (R326): at most 1,024 elements of 4 bytes. -/
def collFits (op : Nat) (m : CollIn) : Bool := (m.header.extractLsb' 124 4).toNat = op && decide (m.body.length ≤ 4096)

/-- Sizes that a memory request can have (R257, R258, R263). -/
def MemReqKind.fits : MemReqKind → Bool
  | .load _ n => decide (0 < n.val)
  | .store _ data _ => decide (0 < data.length) && decide (data.length ≤ 4096)
  | .atomic aop _ _ _ _ _ => decide (1 ≤ aop.val) && decide (aop.val ≤ 7)
  | .signal _ _ => true

/-- A packet's payload: at most 4,096 bytes, a multiple of 16 (R300); 16 more in a COLLECTIVE packet with a full chunk (R326).
-/
def Packet.fits (p : Packet) : Bool :=
  decide (p.payload.length ≤ if (p.header.extractLsb' 124 4).toNat = 5 then 4112 else 4096) && p.payload.length % 16 = 0

/-- What a checker sees of a step: the operands of an adder fit its width (R67). -/
def ArithStep.fits : ArithStep → Bool
  | .add w a b s _ | .sub w a b s _ => decide (a < 2 ^ w) && decide (b < 2 ^ w) && decide (s < 2 ^ w)
  | .mul _ _ _ => true

/-- What the checkers of an engine see of one operation. -/
def EngineCheck.fits : EngineCheck → Bool
  | .arith step => step.fits
  | _ => true

/-- No element twice. -/
def noRepeats {α : Type} [DecidableEq α] : List α → Bool
  | [] => true
  | x :: xs => !xs.contains x && noRepeats xs

/-- Is a command well formed? -/
def Instr.wf : Instr → Bool
  | .unitHangCheck hung => noRepeats hung
  | .select _ seen => noRepeats seen.disagree && seen.steps.all fun x => x.step.fits
  | .demand m _ => tridalFits 1 m
  | .demandEnd m _ => tridalFits 2 m
  | .grant m => tridalFits 3 m
  | .grantEnd m => tridalFits 4 m
  | .rows m => tridalFits 5 m
  | .returnRows m => tridalFits 6 m
  | .up m seen => collFits 1 m && seen.step.all ArithStep.fits
  | .down m => collFits 2 m.msg
  | .poisonNotice m => collFits 3 m
  | .confirm m => collFits 4 m
  | .verdict m => collFits 5 m
  | .memReq m => m.req.kind.fits
  | .bulk b => !b.transfer.ranges.isEmpty && b.transfer.ranges.all fun r => decide (0 < r.data.length)
  | .packetForward _ pk => pk.packet.fits
  | .frame _ f => decide (f.data.length ≤ 247)
  | .read _ h => headerOp h != 2 && headerOp h != 3 && headerOp h != 4 && headerOp h != 5
  | .write p h data => headerOp h = 2 && dataFits p data
  | .describe _ h => headerOp h = 3
  | .memRead _ h _ => headerOp h = 4
  | .memWrite p h data => headerOp h = 5 && dataFits p data
  | .mgmtResponse _ _ data => decide (data.length ≤ 4096)
  | .periodChange p _ data => dataFits p data
  | .routeLoad p _ data => dataFits p data
  | .epochChange p _ data => dataFits p data
  | .domainDrain p _ data => dataFits p data
  | .portRetrain p _ data => dataFits p data
  | .seqDropsClear p _ data => dataFits p data
  | .logClear _ p _ data => dataFits p data
  | .lsClear p _ data => dataFits p data
  | .deviceReset p _ data => dataFits p data
  | .flashRead _ _ data => data = [1#8]
  | .flashProgram _ _ data => data = [2#8]
  | .flashErase _ _ data => data = [3#8]
  | .svnAdvance p _ data => dataFits p data
  | .keyRevoke p _ data => dataFits p data
  | .bootPreference p _ data => dataFits p data
  | .attestNonce p _ data => dataFits p data
  | .lockstepSignatures _ payload => payload.length = 544
  | .hostBar2Read _ _ bytes _ => decide (0 < bytes.val)
  | .hostBar2Write _ _ data => decide (0 < data.length) && decide (data.length ≤ 4096)
  | .thermalSample t => t.die.length = 6 && t.logic.length = 32 && t.dram.length = 32
  | .samplePreload pins preload => pins.length = preload.length
  | .deadline => true
  | .skewGuardEnd => true
  | .verdicts => true
  | .turnoverChanges => true
  | .refreshBurstEnd => true
  | .valveCountReset => true
  | .strokeStart => true
  | .counterHoldRelease => true
  | .inStrokeRefreshSlot => true
  | .refreshSlotEnd => true
  | .timingMarker _ _ => true
  | .markerSend _ => true
  | .holdoverTimeout => true
  | .nop _ => true
  | .array _ => true
  | .copy _ => true
  | .add _ => true
  | .sub _ => true
  | .mul _ => true
  | .fma _ => true
  | .min _ => true
  | .max _ => true
  | .cmpLt _ => true
  | .scale _ => true
  | .exp2 _ => true
  | .exp _ => true
  | .log2 _ => true
  | .log _ => true
  | .rcp _ => true
  | .sqrt _ => true
  | .rsqrt _ => true
  | .tanh _ => true
  | .sigmoid _ => true
  | .rsum _ => true
  | .rmax _ => true
  | .quantMx _ => true
  | .quantFine _ => true
  | .dequantMx _ => true
  | .dequantFine _ => true
  | .gemm _ => true
  | .split _ => true
  | .accOpen _ => true
  | .scatter _ => true
  | .rowdot _ => true
  | .accDrain _ => true
  | .merge _ => true
  | .start _ _ _ => true
  | .arm _ => true
  | .relay _ => true
  | .signal _ _ => true
  | .wait _ _ => true
  | .waitTake _ _ => true
  | .bucketAlloc _ _ => true
  | .bucketAdd _ => true
  | .bucketRelease _ _ => true
  | .queuePush _ => true
  | .queuePop _ => true
  | .compute _ => true
  | .transfer _ => true
  | .phaseSwitchDone _ => true
  | .endItem _ => true
  | .endPlan _ => true
  | .engineOpFinished _ _ check => check.check.fits
  | .itemTake _ => true
  | .streamComplete _ _ _ => true
  | .poolEmptyRetry _ => true
  | .plan _ _ => true
  | .round q => q.steps.all fun x => x.step.fits
  | .return_ _ => true
  | .combine _ => true
  | .combineRecordStart _ seen => seen.all ArithStep.fits
  | .update _ seen => seen.all fun x => x.step.fits
  | .factoredPhaseStart _ seen => seen.all fun x => x.step.fits
  | .allsum _ => true
  | .fetchAdd _ => true
  | .swap _ => true
  | .cmpSwap _ => true
  | .minS _ => true
  | .maxS _ => true
  | .minU _ => true
  | .maxU _ => true
  | .groupCreate _ => true
  | .groupDestroy _ => true
  | .nopCommand _ => true
  | .jobStart _ => true
  | .jobEnd _ => true
  | .commandComplete _ _ => true
  | .memResp _ => true
  | .bulkAck _ _ _ _ => true
  | .congestion _ => true
  | .linkOffer _ _ _ => true
  | .portDown _ => true
  | .routeLoadDone => true
  | .drainComplete _ _ => true
  | .drainTimeout _ => true
  | .ecnEchoTimeout _ => true
  | .ecnRateStep => true
  | .bulkTransferClose _ _ => true
  | .atomicRetransmit _ _ => true
  | .atomicReplyTimeout _ _ => true
  | .loadRetransmit _ _ => true
  | .requestReplyTimeout _ _ => true
  | .translationWalkDone _ _ _ _ => true
  | .pageBroughtIn _ _ _ => true
  | .scrub _ _ => true
  | .regulatorWindow => true
  | .define _ _ _ => true
  | .remove _ _ _ => true
  | .abort _ _ _ => true
  | .abortComplete _ => true
  | .resume _ _ _ => true
  | .switchOverComplete _ => true
  | .mbxRemoteResend _ => true
  | .sqTail _ _ _ => true
  | .cqHead _ _ _ => true
  | .functionLevelReset _ => true
  | .hotReset => true
  | .pcieLinkLoss => true
  | .perstN _ => true
  | .powerOn _ => true
  | .moduleResetN _ => true
  | .fullReset => true
  | .resetRelease _ => true
  | .bootRom _ _ => true
  | .primingComplete _ _ => true
  | .flashOpDone _ => true
  | .attestReportReady => true
  | .heartbeatTimeout _ => true
  | .powerControlTick _ => true
  | .supplyWarningExit => true
  | .undervoltageLockout => true
  | .overvoltageLockout => true
  | .thermalLimitStep => true
  | .coolantSample _ _ _ => true
  | .idcode => true
  | .extest => true
  | .extestPulse => true
  | .extestTrain => true
  | .clamp => true
  | .highz => true
  | .bypass => true
  | .mbxDoorbell _ _ => true
  | .portSignalReturn _ => true
  | .bridgeFlitReplay _ _ => true
  | .unitResetDone _ _ => true
  | .trstN _ => true

end Sys2Proof
end

