-- ==== Sys2Proof/Tests/Slice0.lean ====
section
/-! SUPPORT. Tests: one ill-formed term for each check of well-formedness, values worked by hand from spec/, and for every
statement with hypotheses a state that meets them, clause by clause (theorems named witness_…). -/

open Sys2Proof Sys2Proof.Machine
namespace Sys2Proof.Tests

set_option Elab.async false

/-! ### States -/

/-- Memory with numbers of given widths written from addresses on. -/
def words (l : List (Nat × Nat × Nat)) : Memory := l.foldl (fun m x => m.write x.1 (natLe x.2.1 x.2.2) false) Memory.reset

/-- A page table (R249): VA 0 to 2 MiB maps to device addresses from 0x200000, writable, UNCACHED, by one leaf at level 2. -/
def tables : List (Nat × Nat × Nat) :=
  [(0x10000, 8, 2 ^ 63 + 0x11000), (0x11000, 8, 2 ^ 63 + 0x12000), (0x12000, 8, 2 ^ 63 + 2 ^ 62 + 2 ^ 59 + 0x20)]

/-- A device in service, everything primed: partition 0 holds cluster 0 and device addresses below 16 MiB; context 5 runs
and holds cluster 0's wells. -/
def served : Dev :=
  { State.reset.dev with
    life := .on
    prime := (List.range 128).map fun k => (k, 1)
    val := [(ctr 0x3100 1 0, 1), (ctr 0x3100 2 1, 0xFFFFFF)]
    ctxs := [(5, { state := .running, tableRoot := 0x10000, clusters := 1, slot := some 0 })]
    clusters := [(0, { holder := some 5 })]
    mem := words tables }

/-- The state of such a device, its counter LOCKED in a work window. -/
def on : State := { State.reset with clk := { sync := .locked }, dev := served }

/-- A module without power. -/
def off : State := { on with dev := { served with life := .off } }

/-- The turnover of stroke 0 at a stage. -/
def turn (st : Stage) : State := { on with clk := { sync := .locked, stage := st, phase := 998500 } }

/-- Does a command's next state have a property? -/
def after (i : Instr) (s : State) (p : State → Bool) : Bool :=
  match exec i s with
  | .next t => p t
  | _ => false

/-! ### Well-formedness (one ill-formed term for each check) -/

/-- The management port of slot 0, asked by the station 5 with a request's frame header (R364, R365). -/
def port5 : Path := .mgmt ⟨5, 0x02594C000000, 0x88B5, 0x1014B⟩
def tri (n : Nat) (body : List Byte) : TridalIn := ⟨BitVec.ofNat 64 n, 0, body, []⟩
def col (op : Nat) (n : Nat) : CollIn := ⟨0, BitVec.ofNat 128 (op * 2 ^ 124), List.replicate n 0⟩

theorem test_units_named_twice_are_ill_formed : ∀ i ∈ [Instr.unitHangCheck [.core 0, .core 0], .select (.clean 0) ⟨[3, 3], []⟩], i.wf = false := by decide
theorem test_tridal_bodies_must_fit : ∀ i ∈ [Instr.demand (tri (2 ^ 56 + 1) []) [], .demand (tri (2 ^ 57) (List.replicate 8 0)) [],
    .demandEnd (tri (2 * 2 ^ 56) []) [], .grant (tri (3 * 2 ^ 56 + 1) (List.replicate 16 0)), .grantEnd (tri (4 * 2 ^ 56) []),
    .rows (tri (5 * 2 ^ 56 + 2) (List.replicate 8 0)), .returnRows ⟨BitVec.ofNat 64 (6 * 2 ^ 56 + 1), 0, List.replicate 16 0, [1]⟩],
    i.wf = false := by decide
theorem test_collective_packets_must_fit : ∀ i ∈ [Instr.up (col 2 0) ⟨none, false⟩, .down ⟨col 1 0, false⟩, .poisonNotice (col 4 0), .confirm (col 3 0),
    .verdict (col 4 0)], i.wf = false := by decide +kernel
/-- R326: a chunk has at most 1,024 elements, of 4 bytes in FP32. -/
theorem test_collective_packets_carry_one_chunk : (Instr.up (col 1 4097) ⟨none, false⟩).wf = false ∧ (Instr.up (col 1 4096) ⟨none, false⟩).wf = true := by
  decide +kernel
/-- R67: the operands of a 16-bit adder fit 16 bits. -/
theorem test_operands_fit_their_checker : ∀ i ∈ [Instr.engineOpFinished 0 0 ⟨.arith (.add 16 65536 0 0 true), []⟩, .combineRecordStart 0 (some (.sub 16 0 0 65536 false)),
    .up (col 1 0) ⟨some (.add 16 0 65536 0 true), false⟩, .select (.clean 0) ⟨[], [⟨0, .add 8 0 0 256 false⟩]⟩, .round ⟨.clean 0, [⟨0, .add 8 256 0 0 true⟩]⟩,
    .update (.clean 0) [⟨0, .add 8 0 256 0 true⟩], .factoredPhaseStart (.clean 0) [⟨0, .sub 8 256 0 0 true⟩]], i.wf = false := by decide +kernel
theorem test_remote_requests_must_fit : ∀ i ∈ [Instr.memReq ⟨⟨7, 0, 0, .load 0 0⟩, []⟩, .memReq ⟨⟨7, 0, 0, .store 0 [] false⟩, []⟩,
    .memReq ⟨⟨7, 0, 0, .atomic 0 false 0 0 0 0⟩, []⟩, .memReq ⟨⟨7, 0, 0, .atomic 8 false 0 0 0 0⟩, []⟩, .bulk ⟨⟨7, 0, 0, []⟩, 0⟩, .bulk ⟨⟨7, 0, 0, [⟨0, [], false⟩]⟩, 1⟩],
    i.wf = false := by decide
theorem test_packets_must_fit : ∀ i ∈ [Instr.packetForward none ⟨⟨0, [0]⟩, none⟩, .packetForward none ⟨⟨0, List.replicate 4112 0⟩, none⟩,
    .frame 0 ⟨0, 0, 0, true, false, List.replicate 248 0⟩], i.wf = false := by decide +kernel
theorem test_headers_name_their_row : ∀ i ∈ [Instr.read .pf (BitVec.ofNat 128 (2 * 2 ^ 120)), .read .pf (BitVec.ofNat 128 (3 * 2 ^ 120)),
    .read .pf (BitVec.ofNat 128 (4 * 2 ^ 120)), .read .pf (BitVec.ofNat 128 (5 * 2 ^ 120)), .write .pf (BitVec.ofNat 128 (2 ^ 120)) [0],
    .describe .pf 0, .memRead .pf 0 [], .memWrite .pf 0 [0]], i.wf = false := by decide +kernel
theorem test_data_must_fit : ∀ i ∈ [Instr.write .pf (BitVec.ofNat 128 (2 * 2 ^ 120)) [], .memWrite .pf (BitVec.ofNat 128 (5 * 2 ^ 120)) [],
    .periodChange .pf 0 [], .routeLoad .pf 0 [], .epochChange .pf 0 [], .domainDrain .pf 0 [], .portRetrain .pf 0 [], .seqDropsClear .pf 0 [],
    .logClear 0 .pf 0 [], .lsClear .pf 0 [], .deviceReset .pf 0 [], .svnAdvance .pf 0 [], .keyRevoke .pf 0 [], .bootPreference .pf 0 [],
    .attestNonce .pf 0 [], .flashRead .pf 0 [2#8], .flashProgram .pf 0 [3#8], .flashErase .pf 0 [1#8], .hostBar2Write 0 0 [],
    .hostBar2Read 0 0 0 [], .lockstepSignatures 0 []], i.wf = false := by decide +kernel
theorem test_management_data_are_not_longer_than_1024_bytes : dataFits port5 (List.replicate 1025 0) = false ∧ dataFits .pf (List.replicate 1025 0) = true := by
  decide +kernel
theorem test_long_data_are_ill_formed : (Instr.mgmtResponse 0 0 (List.replicate 4097 0)).wf = false ∧ (Instr.hostBar2Write 0 0 (List.replicate 4097 0)).wf = false := by
  decide +kernel
theorem test_samples_have_every_sensor : (Instr.thermalSample ⟨[], [], []⟩).wf = false ∧ (Instr.samplePreload [true] []).wf = false := by decide

/-! ### The queue and the host's interface -/

theorem test_no_row_has_bits : decodeTableWord 0 0 = none ∧ (State.reset.withFetchWord 8 255) = State.reset := ⟨rfl, rfl⟩
theorem witness_StepRunsTheFrontCommand : ({ on with pending := [.nop 3, .deadline] } : State).pending = .nop 3 :: [.deadline] ∧ on.pending = [] := ⟨rfl, rfl⟩
theorem test_idle_step_ticks_in_service : step on = .next { on with clk := { on.clk with phase := 1 } } := by rfl
theorem witness_OffModuleDoesNothing : off.dev.life = .off ∧ actsWithoutPower .deadline = false ∧ actsWithoutPower (.nop 0) = false := by decide +kernel
theorem witness_OtherCommandsLeaveTheClock : movesClock (.nop 0) = false ∧ movesClock (.memReq ⟨⟨7, 0, 0, .load 0 1⟩, []⟩) = false := by decide
theorem witness_ClockInvariantKept : State.reset.Inv ∧ (turn .valvesReset).Inv ∧ (∃ t, step State.reset = .next t) ∧
    ∃ t, step { turn .valvesReset with pending := [.strokeStart] } = .next t := by
  refine ⟨?_, ?_, ⟨_, rfl⟩, ⟨_, rfl⟩⟩ <;> unfold State.Inv Clock.Inv <;> decide +kernel

/-! ### The stroke -/

theorem witness_TurnoverEventsFollowInOrder : (∀ st ∈ [Stage.work, .deadline, .closed, .judged, .hangChecked, .changed, .burstEnded, .valvesReset],
    (turn st).dev.life = .on ∧ (turn st).clk.running = true ∧ (turn st).clk.stage = st) ∧ (∀ n ∈ (turn .valvesReset).clk.stepDue, (turn .valvesReset).clk.stroke < n) ∧
    (Instr.verdicts, Stage.closed) ∈ turnoverEvents [] ∧ State.reset.clk.running = false ∧ (turn .work).clk.stage ≠ .closed := by decide +kernel
theorem turn_at (st : Stage) : (turn st).TurnAt st := ⟨rfl, rfl, rfl⟩
theorem witness_DeadlineAndSkewGuardEndWhatIsUnderWay : (turn .work).TurnAt .work ∧ (turn .deadline).TurnAt .deadline := ⟨turn_at _, turn_at _⟩
theorem witness_HungUnitsAreToBeReset : (turn .judged).TurnAt .judged ∧ UnitName.core 7 ∈ [UnitName.core 7] ∧ unitCluster (.core 7) = some 0 :=
  ⟨turn_at _, by decide, by decide⟩
theorem test_hung_core_disables_its_cluster_grants : ∃ t, exec (.unitHangCheck [.core 255]) (turn .judged) = .next t ∧ (t.dev.cluster 31).noGrant = true ∧ t.clk.phase = 999200 :=
  ⟨_, rfl, by decide +kernel⟩

def inSlot : State := { on with clk := { on.clk with phase := 250500 }, dev := { served with slotOn := true } }
def heldCounter : State := { on with clk := { sync := .locked, held := true, stage := .valvesReset } }
def heldWith (e : Nat) : State := { on with clk := { heldCounter.clk with pendingPeriod := some (20000, e) } }
theorem witness_HeldCountersAndRefreshSlots : (on.clk.running = true ∧ on.clk.slotLeft = true ∧ on.dev.slotOn = false) ∧
    (State.reset.clk.running = false ∧ heldCounter.clk.slotLeft = false) ∧
    (inSlot.dev.slotOn = true ∧ inSlot.clk.running = true ∧ inSlot.clk.phase < inSlot.clk.nextEvent ∧ inSlot.dev.reqQueue = [] ∧ inSlot.dev.slotHeld = []) ∧
    (heldCounter.dev.life = .on ∧ heldCounter.clk.held = true ∧ heldCounter.clk.pendingPeriod = none) ∧ (heldWith 0).clk.pendingPeriod = some (20000, 0) ∧
    (heldWith 1).clk.pendingPeriod = some (20000, 1) ∧ (heldWith 1).clk.stroke = 0 ∧ on.clk.held = false := by decide +kernel
/-- R30: of a period of 1,000,000 ns the slots start at 250,000, 500,000 and 750,000 ns. -/
theorem test_refresh_slots_of_the_reset_period : on.clk.slotCount = 3 ∧ on.clk.slotPhase 1 = 250000 ∧ on.clk.slotPhase 3 = 750000 := by decide +kernel

/-- A follower (its ROLE is 0) with a link on port 3 to GEID 9. -/
def follower (sync : Sync) (stepDue : Option Nat) : State :=
  { on with
    clk := { sync := sync, stepDue := stepDue, phase := 500 }
    dev := { served with
      val := served.val ++ [(ctr 0x4000 1 0, 40)]
      ports := [(3, { state := .up, link := some 3, partner := some ⟨9, 0, 0, 3, 0⟩, rtt := 200 })]
      links := [(3, { ports := [3] })] } }
def roled (s : State) (r : Nat) : State := { s with dev := s.dev.setV 0x2000 5 0 r }
def markerOf (phase : Nat) : BitVec 256 := BitVec.ofNat 256 (phase * 2 ^ 160 + 9 * 2 ^ 140 + 1000000 * 2 ^ 16)
def withMarker (s : State) (m : BitVec 256) : Dev :=
  s.dev.setPort 3 { s.dev.port 3 with marker := some (Marker.ofWord m.toNat), markerAt := (s.clk.stroke, s.clk.phase) }
def heardNow (s : State) (m : BitVec 256) : Marker := (neighbourNow s.clk (withMarker s m) 3).getD (Marker.ofWord m.toNat)

theorem witness_MarkersGuideFollowers_kept : ((follower .locked none).dev.port 4).link = none ∧ ((follower .locked none).dev.port 3).link ≠ none ∧
    (withMarker (follower .locked none) (markerOf 400)).isRoot = true := by decide +kernel
theorem witness_MarkersGuideFollowers_followed : ∀ y ∈ [(Sync.priming, (none : Option Nat)), (.unlocked, none), (.locked, none)],
    let s := roled (follower y.1 y.2) 0
    (withMarker s (markerOf 400)).isRoot = false ∧ s.clk.held = false ∧ (withMarker s (markerOf 400)).bestUpstream = some 3 ∧ s.clk.sync = y.1 ∧ s.clk.stepDue = none ∧
      missedChange (adopt s.clk (withMarker s (markerOf 400)) 3) (heardNow s (markerOf 400)) = false ∧ s.clk.period = (heardNow s (markerOf 400)).period := by
  decide +kernel
/-- R24: the marker of phase 470 with half a round trip of 100 ns stands at 570; the follower at 500 slews by 20 of the 70. -/
theorem test_slew_is_20_ns_at_most : ∃ t, exec (.timingMarker 3 (markerOf 470)) (roled (follower .locked none) 0) = .next t ∧ t.clk.phase = 520 ∧ t.clk.offset = 50 :=
  ⟨_, rfl, by decide +kernel⟩
theorem witness_Slews : on.clk.slewed ≤ 20 ∧ on.clk.stage = .work ∧ (0 : Int) ≤ (on.clk.phase : Int) + 20 ∧ (on.clk.phase : Int) + 20 < on.clk.turnStart ∧
    (20 : Int).natAbs ≤ 20 - on.clk.slewed := by decide
theorem witness_MarkersLeave : ((follower .locked none).dev.link 3).ports ≠ [] ∧ (follower .locked none).clk.sync ≠ .priming ∧ (on.dev.link 3).ports = [] ∧
    (follower .holdover none).clk.sync = .holdover ∧ on.clk.sync ≠ .holdover := by decide +kernel

/-! ### Cores: plans and engines -/

/-- Core 0, in its COMPUTE phase, at the instruction with header `h` and body `b` of context 5's plan; `f` shapes the core. -/
def atCore (h b : Nat) (f : Core → Core) : State :=
  { on with dev := { served with
      mem := words (tables ++ [(0x200000, 8, h), (0x200008, 32, b)])
      cores := [(0, f { compute := true, run := some { cmd := 9, ctx := 5, va := 0 } })] } }
def run0 : PlanRun := { cmd := 9, ctx := 5, va := 0 }
def isOk {ε α : Type} : Except ε α → Bool
  | .ok _ => true
  | .error _ => false

theorem at_core (h b : Nat) (i : SeqInstr) (hn : (atCore h b id).dev.seqNext 0 run0 = .got i) (ok : i.ok = true) (kn : opReserved i = none) :
    (atCore h b id).SeqAt 0 run0 i := by
  refine ⟨rfl, rfl, ?_, ?_, ?_, ?_, hn, ok, fun _ _ => ?_, kn⟩ <;> rfl

theorem witness_PlansMoveOnRejectAndEnd_moveOn : (atCore 0 0 id).SeqAt 0 run0 ⟨0, false, false, 0, 0, true⟩ ∧ (run0.after ⟨0, false, false, 0, 0, true⟩).ended = false ∧
    (atCore (7 * 2 ^ 56) 0 id).SeqAt 0 run0 ⟨7, false, false, 0, 0, true⟩ :=
  ⟨at_core _ _ _ (by decide +kernel) rfl (by decide), by decide +kernel, at_core _ _ _ (by decide +kernel) rfl (by decide)⟩
def oneOnBoard : BoardEntry := { slot := 0, engine := .vector, ctx := 5, out := { EngOut.start with writes := [⟨0x100, [7#8, 8#8], false⟩] } }
theorem witness_PlansMoveOnRejectAndEnd_end : (atCore (0x0F * 2 ^ 56) 0 id).SeqAt 0 run0 ⟨0x0F, false, false, 0, 0, true⟩ ∧ run0.owner = none ∧ run0.takenOut = 0 ∧
    ((atCore (0x0F * 2 ^ 56) 0 id).dev.core 0).planQuiet run0 = true ∧
    ((atCore (0x0F * 2 ^ 56) 0 fun c => { c with board := [oneOnBoard] }).dev.core 0).planQuiet run0 = false :=
  ⟨at_core _ _ _ (by decide +kernel) rfl (by decide), rfl, rfl, by decide +kernel⟩
theorem witness_PlansMoveOnRejectAndEnd_session : ∀ op ∈ [7, 0x0F],
    let s := atCore (op * 2 ^ 56) 0 fun c => { c with session := some ⟨100, 0x4000, 64, 0, [], false⟩ }
    s.dev.seqNext 0 run0 = .got ⟨op, false, false, 0, 0, true⟩ ∧ (s.dev.core 0).session ≠ none ∧ (s.dev.core 0).planQuiet run0 = true ∧
    s.dev.life = .on ∧ (s.dev.core 0).run = some run0 ∧ s.dev.mayRun 5 = true := by decide +kernel
theorem witness_PlansMoveOnRejectAndEnd_rejected : (atCore 1 0 id).dev.seqNext 0 run0 = .got ⟨0, false, false, 1, 0, false⟩ ∧
    (atCore (2 * 2 ^ 56) 0 id).dev.seqNext 0 run0 = .got ⟨2, false, false, 0, 0, true⟩ ∧ (atCore (2 * 2 ^ 56) 0 id).dev.mayRun 5 = true ∧
    (({ (atCore (2 * 2 ^ 56) 0 id).dev with clusters := [] } : Dev).cluster 0).holder ≠ some 5 := by decide +kernel
theorem at_phase0 : (atCore (6 * 2 ^ 56) 0 id).SeqAt 0 run0 ⟨6, false, false, 0, 0, true⟩ := at_core _ _ _ (by decide +kernel) rfl (by decide)
theorem at_phase1 : (atCore (6 * 2 ^ 56 + 1) 0 id).SeqAt 0 run0 ⟨6, false, false, 1, 0, true⟩ := at_core _ _ _ (by decide +kernel) rfl (by decide)
theorem witness_PhasesSwitch : (atCore (6 * 2 ^ 56) 0 id).SeqAt 0 run0 ⟨6, false, false, 0, 0, true⟩ ∧
    (atCore (6 * 2 ^ 56 + 1) 0 id).SeqAt 0 run0 ⟨6, false, false, 1, 0, true⟩ ∧ (run0.after ⟨6, false, false, 1, 0, true⟩).ended = false ∧
    ((atCore 0 0 id).dev.core 0).board = [] ∧ ((atCore 0 0 fun c => { c with board := [oneOnBoard] }).dev.core 0).board ≠ [] ∧
    ((atCore 0 0 fun c => { c with switchTo := some false }).dev.core 0).switchTo = some false :=
  ⟨at_phase0, at_phase1, by decide +kernel⟩

/-- A VECTOR body over 32 FP32 elements: A at 0, B at 1024, C at 2048, DST at 4096 (R105). -/
def vbody (vop fi fo : Nat) : Nat :=
  vop * 2 ^ 248 + fi * 2 ^ 244 + fo * 2 ^ 240 + 1024 * 2 ^ 127 + 2048 * 2 ^ 104 + 4096 * 2 ^ 81 + 32 * 2 ^ 64
/-- Formats that a VECTOR operation of a code takes: MXFP8 for the block formats, else FP32. -/
def vbodyOf (vop : Nat) : Nat :=
  vbody vop (if vop = 0x2A || vop = 0x2B then 3 else 0) (if vop = 0x28 || vop = 0x29 then 3 else 0)
theorem witness_EngineOperationsIssue_vector : (∀ x ∈ vectorRows, fld (vbodyOf x.2) 255 248 = x.2 ∧
    isOk (vectorIssue (atCore 0 0 id).dev.mem 0 0 0 (VectorOp.ofBody (vbodyOf x.2))) = true) ∧
    (atCore (2 * 2 ^ 56) (vbodyOf 1) id).SeqAt 0 run0 ⟨2, false, false, 0, vbodyOf 1, true⟩ :=
  ⟨by decide +kernel, at_core _ _ _ (by decide +kernel) rfl (by decide)⟩
theorem witness_EngineOperationsIssue_room (e : EngineKind) (out : EngOut) : ((atCore 0 0 id).dev.core 0).RoomFor e out 0 :=
  ⟨rfl, by cases e <;> decide +kernel, rfl⟩
/-- An ARRAY body: one 32 × 32 rectangle at band 0, BF16 operands, one A row at 0, B at 65,536, FP32 output at 8,192 (R89). -/
def abody : Nat := 1 * 2 ^ 228 * 0 + 1 * 2 ^ 224 + 1 * 2 ^ 220 + 1 * 2 ^ 211 + 256 * 2 ^ 195 + 256 * 2 ^ 179 + 8192 * 2 ^ 156 + 65536 * 2 ^ 64
theorem witness_EngineOperationsIssue_array : isOk (arrayIssue (atCore 0 0 id).dev.mem 0 0 [] (ArrayOp.ofBody abody)) = true ∧
    (atCore (1 * 2 ^ 56) abody id).SeqAt 0 run0 ⟨1, false, false, 0, abody, true⟩ :=
  ⟨by decide +kernel, at_core _ _ _ (by decide +kernel) rfl (by decide)⟩

/-- A SPARSE body (R117). -/
def sbody (sop a0 a1 a2 count : Nat) : Nat := sop * 2 ^ 248 + a0 * 2 ^ 217 + a1 * 2 ^ 194 + a2 * 2 ^ 171 + count * 2 ^ 122
/-- A well with a BF16 bitmap operand of one row of 16 with nothing stored (R115) at 0x1000 and a GEMM's ARRAY body at 0x3000. -/
def sparseMem : Memory :=
  words (tables ++ [(wellBase 0 + 0x1000, 32, 1 * 2 ^ 196 + 16 * 2 ^ 170 + 1 * 2 ^ 146 + 0x2800 * 2 ^ 100 + 0x2400 * 2 ^ 77 + 0x2000 * 2 ^ 54),
    (wellBase 0 + 0x3000, 32, 1 * 2 ^ 224 + 1 * 2 ^ 220 + 1 * 2 ^ 211 + 256 * 2 ^ 195 + 64 * 2 ^ 179 + 8192 * 2 ^ 156 + 65536 * 2 ^ 64)])
def openSes : AccSession := ⟨100, 0x4000, 64, 0, [], false⟩
/-- One operation of every SPARSE row that is accepted, with the session it needs. -/
def sparseOps : List (Nat × Option AccSession) :=
  [(sbody 0x01 0x3000 0 0 0, none), (sbody 0x08 0x1000 0x100 0 2, none), (sbody 0x10 0 0 0 0 + 100 * 2 ^ 139, none), (sbody 0x11 0 64 0 2, some openSes),
   (sbody 0x12 0x1000 0x200 0x5000 0, some openSes), (sbody 0x13 0x6000 64 0 0, some openSes), (sbody 0x14 0x7000 0x7100 64 1, none)]
theorem witness_EngineOperationsIssue_sparse : (sparseOps.all fun o => isOk (sparseIssue sparseMem 0 0 [] o.2 (SparseOp.ofBody o.1))) = true ∧
    sparseOps.map (fun o => fld o.1 255 248) = sparseRows.map (·.2) ∧
    (atCore (3 * 2 ^ 56) (sbody 0x10 0 0 0 0) id).SeqAt 0 run0 ⟨3, false, false, 0, sbody 0x10 0 0 0 0, true⟩ :=
  ⟨by decide +kernel, by decide +kernel, at_core _ _ _ (by decide +kernel) rfl (by decide)⟩
theorem witness_EngineOperationsIssue_ready : (let op := ArrayOp.ofBody abody
      let rg := arrayRanges op op.kPass (!op.reuse)
      arrayReject op = none ∧ ((atCore 0 0 id).dev.core 0).hazard (boundRange rg.1) rg.2 = false) ∧
    ∀ x ∈ sparseReads sparseMem 0 (SparseOp.ofBody (sbody 0x12 0x1000 0x200 0x5000 0)), ((atCore 0 0 id).dev.core 0).hazard x (0, 0) = false := by
  decide +kernel
def busy : State := atCore 0 0 fun c => { c with board := [oneOnBoard] }
theorem witness_EngineOperationsFinish : (busy.dev.life = .on ∧ busy.clk.stage = .work) ∧ ((busy.dev.core 0).board.find? fun e => e.slot = (0 : Fin 64).val) = some oneOnBoard ∧
    oneOnBoard.out.statuses = [] ∧ oneOnBoard.out.writes = [⟨0x100, [7#8, 8#8], false⟩] := by decide +kernel
def sparseEntry (n : Nat) : BoardEntry := { oneOnBoard with slot := n, engine := .sparse, body := sbody 0x11 0 64 0 2 }
theorem witness_EngineOperationsFinish_order : let co := (atCore 0 0 fun c => { c with board := [sparseEntry 0, sparseEntry 1] }).dev.core 0
    co.board.find? (fun e => e.slot = (1 : Fin 64).val) = some (sparseEntry 1) ∧ co.mayFinish (sparseEntry 1) = false ∧
    co.mayFinish (sparseEntry 0) = true ∧ (busy.dev.core 0).mayFinish oneOnBoard = true := by decide +kernel
theorem test_engine_results_reach_the_well : ∃ t, exec (.engineOpFinished 0 0 ⟨.arith (.add 8 1 1 3 false), []⟩) busy = .next t ∧ t.dev.mem.byte (wellBase 0 + 0x101) = 8#8 ∧
    t.dev.mem.poisoned (wellBase 0 + 0x100) = true ∧ (t.dev.core 0).board = [] := ⟨_, rfl, by decide +kernel⟩
/-- R105, R106: ADD of FP32 1.0 and 2.0 is 3.0 in every element; here element 0. -/
theorem test_add : (match vectorIssue (words [(wellBase 0, 4, 0x3F800000), (wellBase 0 + 1024, 4, 0x40000000)]) 0 0 0 (VectorOp.ofBody (vbodyOf 1)) with
    | .ok o => leNat (((o.writes.map (·.data)).flatten).take 4) | .error _ => 0) = 0x40400000 := by decide +kernel
/-- R64, R66: 1/0 is +infinity. R53: 2^-132 is an FP32 subnormal and is not flushed. -/
theorem test_div_and_subnormals : f32Div 0x3F800000 0 = (0x7F800000, (f32Div 0x3F800000 0).2) ∧ (f32Mul 0x00800000 0x3C800000).1 = 0x00020000 := by decide +kernel
/-- R54: BF16 rounds to nearest, ties to even: 1 + 2^-8 to 1, 1 + 3 × 2^-8 to 1 + 2^-6. -/
theorem test_bf16_ties_to_even : (ffEncode bf16 .nearest (f32 0x3F808000)).1 = 0x3F80 ∧ (ffEncode bf16 .nearest (f32 0x3F818000)).1 = 0x3F82 := by decide +kernel
/-- R62: a dot product whose result is zero is +0, here of nothing. -/
theorem test_sum_of_nothing_is_plus_zero : (treeSum []).1 = 0 := by decide +kernel

/-! ### Valves, buckets, queues and streams -/

/-- A VALVE body (R236). -/
def valveBody (fop valve value queue hreg keep : Nat) : Nat :=
  fop * 2 ^ 252 + valve * 2 ^ 217 + value * 2 ^ 185 + queue * 2 ^ 175 + hreg * 2 ^ 171 + keep * 2 ^ 170
def atValve (b : Nat) (f : Core → Core) (g : Dev → Dev) : State := { atCore (5 * 2 ^ 56) b f with dev := g (atCore (5 * 2 ^ 56) b f).dev }
theorem at_valve (b : Nat) (f : Core → Core) (g : Dev → Dev) (ready : (atValve b f g).dev.seqNext 0 run0 = .got ⟨5, false, false, 0, b, true⟩ ∧
      (atValve b f g).dev.life = .on ∧ ((atValve b f g).dev.core 0).run = some run0 ∧ ((atValve b f g).dev.core 0).switchTo = none ∧
      ((atValve b f g).dev.core 0).signalAsked = none ∧ (atValve b f g).dev.mayRun 5 = true)
    (known : opReserved ⟨5, false, false, 0, b, true⟩ = none ∧ (ValveBody.ofBody b).ok = true) :
    (atValve b f g).ValveAt 0 run0 ⟨5, false, false, 0, b, true⟩ (ValveBody.ofBody b) :=
  have ⟨next, on, running, settled, unasked, may⟩ := ready
  ⟨⟨on, rfl, running, settled, unasked, may, next, rfl, fun _ h => absurd (show 5 ≤ 4 from h) (by decide), known.1⟩, rfl, rfl, known.2⟩
/-- The device with valve 3 at 10 and two buckets of 4 KiB class 0 in partition 0's pool on H-die 0, bucket 0 allocated. -/
def pooled (n : Nat) (d : Dev) : Dev :=
  ((d.setValve 3 10).setV 0x5200 2 0 2).setBucket (bucketKey 0 0) (some ⟨n, 5⟩)

theorem witness_ValvesCountSignalsAndHoldWaits : (∀ b ∈ [valveBody 1 3 7 0 0 0, valveBody 2 3 11 0 0 0, valveBody 3 3 10 0 0 0, valveBody 3 3 11 0 0 0],
    (atValve b id (pooled 1)).dev.seqNext 0 run0 = .got ⟨5, false, false, 0, b, true⟩ ∧ (ValveBody.ofBody b).ok = true ∧ opReserved ⟨5, false, false, 0, b, true⟩ = none) ∧
    (ValveBody.ofBody (valveBody 1 3 7 0 0 0)).fop = 1 ∧ (ValveBody.ofBody (valveBody 1 3 7 0 0 0)).remote = false ∧
    (let d := (atValve (valveBody 1 3 7 0 0 0) id (pooled 1)).dev
     d.valve 3 = 10 ∧ d.valveUsable 5 3 = true ∧ d.clusterFaulted 0 = false ∧ (d.core 0).planQuiet run0 = true ∧ d.valveBad.contains 3 = false) := by decide +kernel
theorem witness_ValveAt : (atValve (valveBody 1 3 7 0 0 0) id (pooled 1)).ValveAt 0 run0 ⟨5, false, false, 0, valveBody 1 3 7 0 0 0, true⟩ (ValveBody.ofBody (valveBody 1 3 7 0 0 0)) :=
  at_valve _ _ _ (by decide +kernel) (by decide +kernel)
/-- Core 0's plan waits on valve 3; a queue command waits on valve 4. -/
def waitsFor (n : Nat) (granted : Bool) (take : Bool) : State :=
  atValve (valveBody (if take then 3 else 2) 3 n 0 0 0) (fun c => { c with valveWait := some ⟨3, n, take, granted, false⟩ }) fun d =>
    { pooled 1 d with valvePend := [⟨0, 5, 4, 1, false, false⟩] }
theorem witness_ValveWaits : ∀ x ∈ [(10, false, true), (11, false, true), (10, false, false), (11, false, false), (10, true, true), (10, true, false)],
    let s := waitsFor x.1 x.2.1 x.2.2
    s.dev.seqNext 0 run0 = .got ⟨5, false, false, 0, valveBody (if x.2.2 then 3 else 2) 3 x.1 0 0 0, true⟩ ∧ (s.dev.core 0).run = some run0 ∧
    (s.dev.core 0).valveWait = some ⟨3, x.1, x.2.2, x.2.1, false⟩ ∧ s.dev.valve 3 = 10 ∧ (∀ w ∈ s.dev.valvePend, w.valve ≠ 3) := by decide +kernel
/-- R230: a SIGNAL of 2^32 − 1 on a valve at 10 leaves 2^32 − 1 and raises VALVE_OVERFLOW. -/
theorem test_signal_saturates : ∃ t, exec (.signal 0 false) (atValve (valveBody 1 3 0xFFFFFFFF 0 0 0) id (pooled 1)) = .next t ∧ t.dev.valve 3 = 4294967295 ∧
    ((t.dev.ctx 5).statuses.map (·.st)).contains .valveOverflow = true := ⟨_, rfl, by decide +kernel⟩
theorem test_wait_take_takes : ∃ t, exec (.waitTake 0 false) (atValve (valveBody 3 3 10 0 0 0) id (pooled 1)) = .next t ∧ t.dev.valve 3 = 0 := ⟨_, rfl, by decide +kernel⟩

def withHreg (h : Nat) (c : Core) : Core := { c with hregs := [(2, h)] }
theorem witness_BucketsAreGrantedAndCounted : (∀ b ∈ [valveBody 8 0 0 0 2 0, valveBody 8 0 4096 0 2 0, valveBody 9 0 65535 0 2 0, valveBody 10 0 0 0 2 0],
    (atValve b id (pooled 1)).dev.seqNext 0 run0 = .got ⟨5, false, false, 0, b, true⟩ ∧ (ValveBody.ofBody b).ok = true ∧ opReserved ⟨5, false, false, 0, b, true⟩ = none) ∧
    ((atValve 0 id (pooled 1)).dev.core 0).hreg 2 = nullHandle ∧ ((atValve 0 id (pooled 1)).dev.core 0).poolWait = false ∧ classFor 0 = none ∧ classFor 1 = some 0 ∧
    (let d := (atValve 0 (withHreg 0) (pooled 1)).dev
     (d.pool (poolKey 0 0 0)).next (d.poolCount 0 0 0) = some (0, ⟨[], 1, []⟩) ∧ (d.pool (poolKey 0 1 0)).next (d.poolCount 0 1 0) = none ∧
     (d.core 0).hreg 2 = 0 ∧ d.handleOk 5 0 = true ∧ d.bucket (bucketKey 0 0) = some ⟨1, 5⟩) ∧
    (atValve 0 id (pooled 65535)).dev.bucket (bucketKey 0 0) = some ⟨65535, 5⟩ := by decide +kernel
/-- R223, R226: two references, released once, leave one; a bucket is free at the last. -/
theorem test_release_counts_down : (∃ t, exec (.bucketRelease 0 false) (atValve (valveBody 10 0 0 0 2 0) (withHreg 0) (pooled 2)) = .next t ∧
      t.dev.bucket (bucketKey 0 0) = some ⟨1, 5⟩ ∧ (t.dev.core 0).hreg 2 = nullHandle) ∧
    ∃ t, exec (.bucketRelease 0 false) (atValve (valveBody 10 0 0 0 2 0) (withHreg 0) (pooled 1)) = .next t ∧ t.dev.bucket (bucketKey 0 0) = none ∧
      (t.dev.pool (poolKey 0 0 0)).freed = [0] :=
  ⟨⟨_, rfl, by decide +kernel⟩, ⟨_, rfl, by decide +kernel⟩⟩
def aStream (n : Nat) : Stream := { Stream.fresh 5 0x1000 0 (StreamBody.ofBody 0) (some 9) with desc := 0x2000, descRead := true, pos := n, valve := none }
theorem witness_PoolEmptyRetries : ((atCore 0 0 fun c => { c with active := [(1, some { aStream 0 with poolWait := true })] }).dev.stream 0 1) =
      some { aStream 0 with poolWait := true } ∧
    ((atValve (valveBody 8 0 1 0 2 0) (fun c => { c with poolWait := true }) (pooled 1)).dev.core 0).poolWait = true ∧
    (0 : HdieId).val ∈ ({ served with packWait := [0] } : Dev).packWait := by decide +kernel

def queued (n : Nat) (d : Dev) : Dev := (pooled 1 d).setHq 4 ⟨List.replicate n 0, some 5⟩
theorem witness_HandleQueuesPushAndPop : (∀ b ∈ [valveBody 11 0 0 4 2 0, valveBody 11 0 0 4 2 1, valveBody 12 0 0 4 2 0],
    (atValve b id (pooled 1)).dev.seqNext 0 run0 = .got ⟨5, false, false, 0, b, true⟩ ∧ (ValveBody.ofBody b).ok = true ∧ opReserved ⟨5, false, false, 0, b, true⟩ = none) ∧
    (∀ n ∈ [0, 255, 256], (atValve 0 (withHreg 0) (queued n)).dev.queueBar 5 4 = none ∧ ((atValve 0 (withHreg 0) (queued n)).dev.hq 4).handles.length = n) ∧
    (atValve 0 (withHreg 0) (queued 1)).dev.handleOk 5 (((atValve 0 (withHreg 0) (queued 1)).dev.core 0).hreg 2) = true ∧
    ((atValve 0 id (queued 1)).dev.core 0).hreg 2 = nullHandle ∧ ((atValve 0 id (queued 1)).dev.hq 4).handles = [0] := by decide +kernel

/-- A STREAM body: channel 1, no valve, descriptor at VA 0x1000 (R196); `next` as its field. -/
def streamBody (sop next : Nat) : Nat := sop * 2 ^ 252 + 1 * 2 ^ 248 + 256 * 2 ^ 239 + next * 2 ^ 230 + 0x1000
/-- A descriptor of an IN stream of one byte from VA 0x2000 to well address 0 (R193) at VA 0x1000. -/
def atStream (b : Nat) (f : Core → Core) : State :=
  { atCore 0 0 f with dev := { (atCore 0 0 f).dev with
      mem := words (tables ++ [(0x200000, 8, 4 * 2 ^ 56), (0x200008, 32, b), (0x201000, 64, 0x2000), (0x202000, 1, 0x5A)]) } }
def okIs (e : Except α β) [DecidableEq β] (b : β) : Bool :=
  match e with
  | .ok x => x = b
  | .error _ => false
theorem witness_StreamsStart : ∀ x ∈ [(1, 256), (2, 256), (3, 1)],
    let s := atStream (streamBody x.1 x.2) id
    let b := StreamBody.ofBody (streamBody x.1 x.2)
    s.dev.seqNext 0 run0 = .got ⟨4, false, false, 0, streamBody x.1 x.2, true⟩ ∧ opReserved ⟨4, false, false, 0, streamBody x.1 x.2, true⟩ = none ∧ b.sop = x.1 ∧
    s.dev.valveReject 5 b.valve = none ∧ s.dev.stream 0 b.channel = none ∧ (s.dev.core 0).boardUse < 64 ∧ (s.dev.core 0).armedSlot b.channel = none ∧
    okIs (s.dev.load (whoStream 0 b.channel (Stream.fresh 5 b.descAddr 0 b (some 9))) b.descAddr 64) (natLe 64 0x2000, false) = true ∧
    s.dev.descReject 5 (leNat (natLe 64 0x2000)) = none ∧
    (if x.1 = 3 then s.dev.relayReject 5 0 (leNat (natLe 64 0x2000)) b.prev b.next = none else True) ∧
    (s.dev.core 0).hazard (0, 0) (sdWellRange (leNat (natLe 64 0x2000))) = false := by decide +kernel
theorem witness_ArmsFillTheArmedSlot : ((atStream (streamBody 2 256) fun c => c.setArmed 1 (some ⟨5, 0x2000, 0x1000, none, none, none, false, false⟩)).dev.core 0).armedSlot 1 ≠ none := by
  decide +kernel
theorem witness_StreamsComplete : (∀ v ∈ [none, some 3], let x := { aStream 1 with valve := v }
    (atCore 0 0 fun c => { c with active := [(1, some x)] }).dev.stream 0 1 = some x ∧
    (atCore 0 0 fun c => { c with active := [(1, some x)] }).dev.streamFinished 0 1 x = true ∧ x.handle = none) ∧ on.clk.stage = .work := by decide +kernel
/-- R199: a START of one byte moves it: the byte at VA 0x2000 is in the well, and the stream is finished. -/
theorem test_start_moves_its_byte : ∃ t, exec (.start 0 [] 0) (atStream (streamBody 1 256) fun c => { c with compute := false }) = .next t ∧
    t.dev.mem.byte (wellBase 0) = 0x5A#8 ∧ (t.dev.stream 0 1).any (fun x => t.dev.streamFinished 0 1 x) = true := ⟨_, rfl, by decide +kernel⟩

/-! ### Queue commands -/

/-- A command of queue 0, of context 5 and the running stroke. -/
def cmdOf (op payload : Nat) : QCmd := { q := 0, index := 0, env := op * 2 ^ 504 + payload, poison := false, ctx := 5, stroke := 0 }
/-- The served device with its queue 0 at a command; `l` are words in memory, by device address. -/
def atCmd (op payload : Nat) (l : List (Nat × Nat × Nat)) : State :=
  { on with dev := { served with inForce := [cmdOf op payload], mem := words (tables ++ l) } }
theorem cmd_at (s : State) (q op : Nat) (x : QCmd) (h : s.dev.life = .on ∧ s.clk.stage = .work ∧ s.dev.nextCmd q = some x ∧
    s.dev.mayRun x.ctx = true ∧ s.dev.gate x = .run ∧ envOp x.env = op) : s.CmdAt q op x :=
  ⟨h.1, h.2.1, h.2.2.1, h.2.2.2.1, h.2.2.2.2.1, h.2.2.2.2.2⟩

theorem witness_CoresTakePlans_owned : (atCmd 1 (7 * 2 ^ 248) []).CmdAt 0 1 (cmdOf 1 (7 * 2 ^ 248)) := cmd_at _ _ _ _ (by decide +kernel)
/-- Core 1's plan: a STEALABLE item of one instruction, and END_PLAN (R94, R101); core 0 has ended its own. -/
def stealing : State :=
  { on with dev := { served with
      ctxs := [(5, { state := .running, tableRoot := 0x10000, clusters := 1, slot := some 0, loadBalance := true })]
      mem := words (tables ++ [(0x200000, 8, 7 * 2 ^ 56 + 3 * 2 ^ 48), (0x200028, 8, 0x0F * 2 ^ 56)])
      cores := [(0, { seqDone := [9] }), (1, { run := some run0 })] } }
theorem witness_CoresTakeItems : (stealing.dev.cluster 0).holder = some 5 ∧ (stealing.dev.ctx 5).loadBalance = true ∧ stealing.dev.mayRun 5 = true ∧
    (stealing.dev.core 0).run = none ∧ (stealing.dev.core 0).waiting = [] ∧ (stealing.dev.core 0).seqDone ≠ [] ∧ (stealing.dev.core 0).switchTo = none ∧
    stealing.dev.planWaits 0 = false ∧ stealing.dev.richest 5 ((List.range 8).map fun j => 0 / 8 * 8 + j) = some (1, [(0, 1)]) ∧
    (stealing.dev.core 1).run = some run0 := by decide +kernel
theorem witness_CommandsIssue : (atCmd 0x0B 0 []).CmdAt 0 0x0B (cmdOf 0x0B 0) ∧ (atCmd 0x11 0 []).CmdAt 0 0x11 (cmdOf 0x11 0) ∧
    envWaitMode (cmdOf 0x0B 0).env = 0 := ⟨cmd_at _ _ _ _ (by decide +kernel), cmd_at _ _ _ _ (by decide +kernel), by decide +kernel⟩
/-- An envelope with a signal of 1 on valve 3 when the command completes (R376). -/
def signalled : Nat := 2 ^ 399 + 3 * 2 ^ 384 + 2 ^ 332
def worked (x : QCmd) (d : Dev) : State := { on with dev := { d with inForce := [{ x with issued := true, work := true }] } }
theorem witness_CommandsComplete : ∀ x ∈ [cmdOf 0x0B 0, cmdOf 0x0B signalled, { cmdOf 0x0B signalled with status := some .commandInvalid }],
    let s := worked x (served.setValve 3 10)
    s.dev.cmd (0 * 65536 + 0) = some { x with issued := true, work := true } ∧ envOp x.env = 0x0B ∧
    (if x.status = none ∧ x.env % 2 ^ 504 ≠ 0 then envSigEn x.env = true ∧ envSigRemote x.env = false ∧ s.dev.valveUsable 5 (envSigValve x.env) = true ∧
      (worked x { served with val := [(ctr 0x3100 1 0, 0)] }).dev.valveUsable 5 (envSigValve x.env) = false ∧ s.dev.clusterFaulted (envSigValve x.env / 512) = false
     else x.status.isSome = true ∨ envSigEn x.env = false) := by decide +kernel
/-- R231: the completion's signal of 1 brings valve 3 from 10 to 11. -/
theorem test_completion_signals : ∃ t, exec (.commandComplete 0 0) (worked (cmdOf 0x0B signalled) (served.setValve 3 10)) = .next t ∧ t.dev.valve 3 = 11 :=
  ⟨_, rfl, by decide +kernel⟩

/-- An ATOMIC descriptor: target VA 0x2000, result VA 0x3000 (R263). -/
def atomicBody (aop size64 a b : Nat) : Nat := aop * 2 ^ 252 + size64 * 2 ^ 251 + 0x2000 * 2 ^ 176 + 0x3000 * 2 ^ 128 + b * 2 ^ 64 + a
def atomicReady (s : State) (x : QCmd) : Bool :=
  let a := AtomicDesc.ofWord (envPayload x.env)
  let d := s.dev.issuedCmd x
  atomicDescOk (envPayload x.env) && (d.fetched.find? (fun y => y.cmd = x.id)).isNone && !(d.reqs.any fun r => decide (r.owner = .atomic x.id)) &&
    (match d.locate x.ctx a.target true with
     | .ok m => (match m.frame with | .here _ => true | _ => false) && (d.cisternBar (m.addr a.target) (atomicBytes a.size64)).isNone
     | .error _ => false) && isOk (d.atomicResult s.clk x a (natLe (atomicBytes a.size64) 0) false)
theorem witness_AtomicsReplaceTheirTarget : ∀ row ∈ atomicRows, ∀ size64 ∈ [0, 1],
    let x := cmdOf 8 (atomicBody row.2 size64 5 0)
    let s := atCmd 8 (atomicBody row.2 size64 5 0) [(0x202000, 8, 10)]
    s.dev.nextCmd 0 = some x ∧ s.dev.mayRun 5 = true ∧ s.dev.gate x = .run ∧ envOp x.env = 8 ∧ atomicReady s x = true := by decide +kernel
def memAfter (i : Instr) (s : State) (a n : Nat) : Option Nat :=
  match exec i s with
  | .next t => some (t.dev.mem.le a n)
  | _ => none
/-- R262, R263, worked by hand on the 32-bit word 0xFFFFFFFE (−2 as a signed number): the new value, and the old one returned. -/
theorem test_atomics : ∀ x ∈ [(Instr.fetchAdd (.clean 0), 1, 3, 0, 1), (.swap (.clean 0), 2, 3, 0, 3), (.cmpSwap (.clean 0), 3, 7, 0xFFFFFFFE, 7),
      (.cmpSwap (.clean 0), 3, 7, 0xFFFFFFFD, 0xFFFFFFFE), (.minS (.clean 0), 4, 3, 0, 0xFFFFFFFE), (.maxS (.clean 0), 5, 3, 0, 3), (.minU (.clean 0), 6, 3, 0, 3), (.maxU (.clean 0), 7, 3, 0, 0xFFFFFFFE)],
    memAfter x.1 (atCmd 8 (atomicBody x.2.1 0 x.2.2.1 x.2.2.2.1) [(0x202000, 4, 0xFFFFFFFE)]) 0x202000 4 = some x.2.2.2.2 ∧
    memAfter x.1 (atCmd 8 (atomicBody x.2.1 0 x.2.2.1 x.2.2.2.1) [(0x202000, 4, 0xFFFFFFFE)]) 0x203000 4 = some 0xFFFFFFFE := by decide +kernel

/-! ### Scoring, rounds, updates and collectives -/

/-- Layer slot 0 chooses one expert, no spares (R162). -/
def layered (s : State) : State := { s with dev := { s.dev with val := (ctr 0x6100 1 0, 1) :: s.dev.val } }
/-- A SELECT of one token over 2 experts (FP32): scores at VA 0x2000, list at VA 0x4000, descriptor at VA 0x1000 (R142). -/
def selectWord : Nat := 0x2000 * 2 ^ 464 + 0x4000 * 2 ^ 416 + 64 * 2 ^ 336 + 1 * 2 ^ 318 + 1 * 2 ^ 284
def selecting : State := layered (atCmd 2 0x1000 [(0x201000, 64, selectWord), (0x202000, 4, 0x3F800000), (0x202004, 4, 0x40000000)])
def okWord (e : Except Bar (Option Nat)) (w : Nat) : Bool :=
  match e with
  | .ok x => x = some w
  | .error _ => false
def selectCmd : QCmd := { cmdOf 2 0x1000 with issued := true }
theorem witness_SelectsRun : selecting.CmdAt 0 2 (cmdOf 2 0x1000) ∧ selecting.dev.cmd 0 = some (cmdOf 2 0x1000) ∧ selecting.dev.selects = [] ∧
    (let d := ({ selecting.dev.issuedCmd (cmdOf 2 0x1000) with selects := [{ cmd := 0, ctx := 5 }] } : Dev).updCmd 0 fun z => { z with found := [], steps := [] }
     let y := SelectDesc.ofWord selectWord
     let r : SelectRun := { cmd := 0, ctx := 5, desc := some y }
     okWord (d.loadWord (whoCmd (cmdOf 2 0x1000)) 0x1000 64) selectWord = true ∧ selectOk (d.layer y.layer) y = true ∧
     d.clusterOwner y.sorter = some (d.ctx 5).partition ∧ d.clusterFaulted y.sorter = false ∧ y.t = 1 ∧
     isOk (({ d with selects := [r], fetched := [] } : Dev).selectOne selecting.clk selectCmd r y) = true) :=
  ⟨cmd_at _ _ _ _ (by decide +kernel), by decide +kernel⟩
/-- R146: of two experts with scores 1.0 and 2.0 the list names expert 1 (its tag's expert field, R152). -/
theorem test_select_takes_the_higher_score : (memAfter (.select (.clean 0) ⟨[], []⟩) selecting 0x204000 8).map tagExpert = some 1 := by decide +kernel

/-- A ROUND descriptor (R167) of no tokens, one expert, one member: group at VA 0x3000, owner map 0x4000, inbox table 0x5000. -/
def roundWord : Nat := 1 * 2 ^ 597 + 1 * 2 ^ 581 + 4 * 2 ^ 480 + 4 * 2 ^ 456 + 64 * 2 ^ 432 + 64 * 2 ^ 408 + 64 * 2 ^ 384 +
  0x5000 * 2 ^ 288 + 0x4000 * 2 ^ 240 + 0x3000 * 2 ^ 192
def rounding (m : Nat) : State := layered (atCmd 3 0x1000 [(0x201000, 128, roundWord), (0x203000, 4, m), (0x203004, 4, served.geid),
  (0x204000, 2, 0), (0x205000, 16, 8 * 2 ^ 64 + 0x8000)])
def opened (s : State) (x : QCmd) : Option Bool :=
  match (s.dev.issuedCmd x).openRound x with
  | .ok d => some (d.rounds.find? fun r => r.cmd = x.id).isSome
  | .error _ => none
def formed (s : State) (x : QCmd) : Option Bool :=
  match (s.dev.issuedCmd x).formRound (whoCmd x) x with
  | .ok r => some r.isSome
  | .error _ => none
theorem witness_RoundsRun : (∀ m ∈ [0, 1], (rounding m).dev.nextCmd 0 = some (cmdOf 3 0x1000) ∧ (rounding m).dev.gate (cmdOf 3 0x1000) = .run ∧
    ((rounding m).dev.issuedCmd (cmdOf 3 0x1000)).rounds = [] ∧ (rounding m).dev.tridalHeld = [] ∧ opened (rounding m) (cmdOf 3 0x1000) = some (m == 1) ∧
    formed (rounding m) (cmdOf 3 0x1000) = some (m == 1)) ∧ envOp (cmdOf 3 0x1000).env = 3 := by decide +kernel
/-- A round that is open on its one member: expert 0 has one accepted row, and the grant list has been written. -/
def aRound : RoundRun :=
  { cmd := 77, ctx := 5, partition := 0, desc := RoundDesc.ofWord (roundWord + 2 * 2 ^ 504), layer := (layered on).dev.layer 0, members := [served.geid], self := 0
    owner := [0], experts := [{ e := 0, entry := 8 * 2 ^ 64 + 0x8000, a := 1 }], recs := [], lpass := 1, begun := true, opass := 1, packers := [{ wrote := 2 }, {}] }
def returnBody : Nat := 1 * 2 ^ 178 + 1 * 2 ^ 162 + 64 * 2 ^ 138 + 0x6000
/-- The expert's rows unclaimed, or claimed by the command `by_`. -/
def claimed (by_ : Option Nat) : RoundRun := { aRound with experts := aRound.experts.map fun e => { e with returned := by_ } }
def returning (by_ : Option Nat) : State := let s := layered (atCmd 4 returnBody [])
  { s with dev := { s.dev with rounds := [claimed by_] } }
theorem witness_ReturnsRun : ∀ by_ ∈ [none, some 9], (returning by_).CmdAt 0 4 (cmdOf 4 returnBody) ∧
    (let d := (returning by_).dev.issuedCmd (cmdOf 4 returnBody)
     d.roundOf 1 1 = some (claimed by_) ∧ (claimed by_).ctx = 5 ∧ passCount (claimed by_).layer ≤ (claimed by_).lpass ∧
     fld (envPayload (cmdOf 4 returnBody).env) 255 202 = 0 ∧ fld (envPayload (cmdOf 4 returnBody).env) 137 48 = 0 ∧
     ((claimed by_).experts.map fun e => (e.e, e.returned, isOk ((d.setRound (claimed (some 0))).returnRecords ⟨5, 0, .packer 0, 32⟩ (claimed (some 0)) e 0x6000 64)))
       = [(0, by_, true)]) := by
  intro by_ h
  simp only [List.mem_cons, List.not_mem_nil, or_false] at h
  rcases h with rfl | rfl <;> exact ⟨cmd_at _ _ _ _ (by decide +kernel), by decide +kernel⟩

/-- A COMBINE of `n` records of one FP32 element on cluster 0's unit (R182). -/
def combineBody (n : Nat) : Nat := 1 * 2 ^ 184 + n * 2 ^ 166 + 1 * 2 ^ 140 + 1 * 2 ^ 124 + 64 * 2 ^ 100 + 0x6000
def combining (n : Nat) : State := let s := layered (atCmd 5 (combineBody n) [])
  { s with dev := { s.dev with rounds := [aRound] } }
theorem witness_CombinesIssue : (combining 1).CmdAt 0 5 (cmdOf 5 (combineBody 1)) ∧ (let d := (combining 1).dev.issuedCmd (cmdOf 5 (combineBody 1))
    d.combines = [] ∧ d.combineOk (cmdOf 5 (combineBody 1)) (CombineDesc.ofWord (combineBody 1)) = true ∧ d.clusterFaulted 0 = false) :=
  ⟨cmd_at _ _ _ _ (by decide +kernel), by decide +kernel⟩
def records (n : Nat) : State := let s := combining n
  { s with dev := { s.dev with inForce := [{ cmdOf 5 (combineBody n) with issued := true }], combines := [{ cmd := 0, ctx := 5, desc := CombineDesc.ofWord (combineBody n) }]
                               clusters := [(0, { holder := some 5, combines := [0] })] } }
theorem witness_RecordsStart : ∀ n ∈ [1, 2], ∀ residue ∈ [false, true], let s := records n
    let k : CombineRun := { cmd := 0, ctx := 5, desc := CombineDesc.ofWord (combineBody n) }
    let k1 : CombineRun := { k with begun := true, seen := if residue then some (.mul 2 3 7) else none }
    (s.dev.cluster 0).combines = [0] ∧ s.dev.combines.find? (fun k => k.cmd = 0) = some k ∧ s.dev.roundOf 1 1 = some aRound ∧ k.desc.count = n ∧
    k.desc.unit = 0 ∧ (s.dev.cmd 0).all (fun x => x.status.isNone) = true ∧ aRound.ctx = k.ctx ∧
    combineReady aRound (aRound.record 0) 0 = true ∧ isOk ((s.dev.setCombine k1).combineOne s.clk (whoCombine k1) aRound k1) = true := by decide +kernel

/-- An UPDATE of 1,024 FP32 parameters by the rule of a code, β1 = 0.5, ε = 1.0 (R273); `rows` for FACTORED. -/
def updWord (rule rows : Nat) : Nat := rule * 2 ^ 684 + rows * 2 ^ 644 + 1024 * 2 ^ 608 + 0x3F000000 * 2 ^ 576 + 0x3F000000 * 2 ^ 544 + 0x3F800000 * 2 ^ 512 +
  0x3F800000 * 2 ^ 480 + (if rule = 2 then 0x90000 else 0) * 2 ^ 432 + (if rule = 0 ∨ rule = 3 then 0 else 0x80000 * 2 ^ 288 + 0x70000 * 2 ^ 240) +
  0x60000 * 2 ^ 192 + 0x50000 * 2 ^ 144 + 0x40000 * 2 ^ 96 + 0x30000 * 2 ^ 48 + 0x20000
/-- If unit 0 alone has a step, and none after it, the units run. -/
theorem units_run {c : Clock} {d e : Dev} {w : Who} (h : d.updStep c 0 = some (w, .ok e)) (r : ∀ u, u < 32 → e.updStep c u = none) : UnitsRun c d e := by
  refine ⟨fun u => if u = 0 then d else e, rfl, rfl, fun u hu => ?_⟩
  by_cases z : u = 0
  · subst z; exact ⟨1, by decide, .more h (.rest _), r 0 hu⟩
  · exact ⟨0, by decide, by simpa [z] using Steps.rest e, by simpa using r u hu⟩
/-- Unit 0's step, where it meets no bar and leaves no unit another one. -/
def oneStep (c : Clock) (d : Dev) : Option Dev :=
  match d.updStep c 0 with
  | some (_, .ok e) => if (List.range 32).all fun u => (e.updStep c u).isNone then some e else none
  | _ => none
theorem units_run_of {c : Clock} {d : Dev} (h : (oneStep c d).isSome = true) : ∃ e, UnitsRun c d e := by
  unfold oneStep at h
  split at h
  · next w e s =>
      split at h
      · next r => exact ⟨e, units_run s fun u hu => by simpa using List.all_eq_true.1 r u (List.mem_range.2 hu)⟩
      · cases h
  · cases h
/-- An UPDATE by SIGN whose gradient is poisoned in every line (R281) and whose results go to a page of the module in slot 1
of the board (R251); memory written out in its canonical form. -/
def updFar : Nat := updWord 3 0 + 2 ^ 669 + 2 ^ 668 + 0x260000 * 2 ^ 192 - 0x60000 * 2 ^ 192 + 0x230000 * 2 ^ 48 - 0x30000 * 2 ^ 48
def farMem : Memory :=
  { cells := [(65537, 0x10#8), (65538, 0x01#8), (65543, 0x80#8), (69633, 0x20#8), (69634, 0x01#8), (69639, 0x80#8), (73728, 0x20#8), (73735, 0xc8#8),
      (73736, 0x20#8), (73739, 0x02#8), (73743, 0xc8#8), (2101250, 0x02#8), (2101256, 0x23#8), (2101262, 0x04#8), (2101268, 0x05#8), (2101274, 0x26#8),
      (2101310, 0x80#8), (2101311, 0x3f#8), (2101314, 0x80#8), (2101315, 0x3f#8), (2101319, 0x3f#8), (2101323, 0x3f#8), (2101325, 0x04#8), (2101331, 0x30#8), (2101333, 0x30#8)]
    poison := (List.range 32).map fun l => (0x240000 / 64 + l, true), gen := [0, 0, 0] }
def updating : State := { on with dev := { served with inForce := [cmdOf 6 0x1000], mem := farMem } }
def updEntered : Dev :=
  ({ updating.dev.issuedCmd (cmdOf 6 0x1000) with updates := [{ cmd := 0, ctx := 5 }] } : Dev).updCmd 0 fun z => { z with steps := [] }
def updRun : UpdateRun := { cmd := 0, ctx := 5, desc := some (UpdDesc.ofWord updFar) }
theorem witness_UpdatesRun : (let s := updating
    let x := cmdOf 6 0x1000
    s.dev.nextCmd 0 = some x ∧ s.dev.mayRun 5 = true ∧ s.dev.gate x = .run ∧ envOp x.env = 6 ∧ s.dev.cmd 0 = some x ∧ s.dev.updates = [] ∧
    okWord (updEntered.loadWord (whoCmd x) 0x1000 128) updFar = true ∧ updOk (UpdDesc.ofWord updFar) = true ∧ (UpdDesc.ofWord updFar).advance = false ∧
    updEntered.schedBad = []) := by decide +kernel
theorem witness_UpdatesRun_units : (oneStep updating.clk { updEntered with updates := [updRun], fetched := [] }).isSome = true := by decide +kernel
/-- A unit that may not reach its gradient ends the command (R285). -/
theorem witness_UpdatesRun_denied : let d : Dev := { updEntered with updates := [updRun], ctxs := [(5, { state := .running, tableRoot := 0x2000000, clusters := 1, slot := some 0 })] }
    (d.cmd 0).any (fun x => !x.completed && !x.ran) = true ∧ (updRun.unit 0).done < (UpdDesc.ofWord updFar).share 1 0 ∧
    (match d.updItem on.clk 0 (UpdDesc.ofWord updFar) (d.updEnv 5 (UpdDesc.ofWord updFar) []) updRun with
     | .error .denied => true
     | _ => false) = true := by decide +kernel

/-- A FACTORED command on one row of 1,024 that has finished phase 1 or 2. -/
def factoredDone (ph : Nat) : UpdateRun :=
  { cmd := 0, ctx := 5, desc := some (UpdDesc.ofWord (updWord 2 1)), phase := ph, units := (List.replicate 32 {}).set 0 { done := 1 } }
def phased (ph : Nat) : State :=
  { on with dev := { served with inForce := [{ cmdOf 6 0x1000 with issued := true }], updates := [factoredDone ph] } }
theorem witness_FactoredPhases : ∀ ph ∈ [1, 2], let s := phased ph
    let r := factoredDone ph
    s.dev.updates = [r] ∧ s.dev.updLive r = true ∧ r.phaseDone = true ∧ r.phase < (UpdDesc.ofWord (updWord 2 1)).phases ∧ s.dev.storesOut 0 = false ∧
    (oneStep s.clk (({ s.dev with updates := [{ r with phase := r.phase + 1, units := List.replicate 32 {} }] } : Dev).updCmd 0 fun z =>
      { z with steps := [] })).isSome = true := by decide +kernel

/-- The device's group in slot 3, of context 5, with one child (R316, R317). -/
def aGroup : CollGroup :=
  { state := .inForce, groupId := 21, ctx := 5, partition := 0, m := 2, f := 2, self := ⟨0, served.geid, 0⟩, parent := none, children := [⟨1, 9, 0⟩] }
/-- An ALLSUM of one FP32 element from VA 0x2000 to VA 0x3000 in slot 3 (R320). -/
def allsumWord : Nat := 3 * 2 ^ 132 + 1 * 2 ^ 96 + 0x3000 * 2 ^ 48 + 0x2000
def summing : State := let s := atCmd 7 0x1000 [(0x201000, 64, allsumWord)]
  { s with dev := { s.dev with groups := [(3, some aGroup)] } }
def okBytes (e : Except Bar (List Byte × Bool)) (p : List Byte → Bool) : Bool :=
  match e with
  | .ok (bs, bad) => !bad && p bs
  | .error _ => false
/-- The same with a descriptor of all zeros: no element to sum (R320). -/
def summingNone : State := { summing with dev := { summing.dev with mem := words tables } }
theorem witness_AllsumsJoin : (∀ s ∈ [summing, summingNone], s.CmdAt 0 7 (cmdOf 7 0x1000)) ∧ ∀ x ∈ [(summing, true), (summingNone, false)],
    (let d : Dev := { x.1.dev.issuedCmd (cmdOf 7 0x1000) with allsums := x.1.dev.allsums ++ [Allsum.unread (cmdOf 7 0x1000)] }
     x.1.dev.allsum 0 = none ∧ d.group 3 = some aGroup ∧ okBytes (d.load (whoCmd (cmdOf 7 0x1000)) 0x1000 64) (fun bs =>
      (d.allsumOk (leNat bs) (Allsum.ofWord 0 5 (leNat bs)) == x.2) && (!x.2 || (Allsum.ofWord 0 5 (leNat bs)).slot = 3)) = true) := by
  refine ⟨fun s h => ?_, by decide +kernel⟩
  simp only [List.mem_cons, List.not_mem_nil, or_false] at h
  rcases h with rfl | rfl <;> exact cmd_at _ _ _ _ (by decide +kernel)
/-- A GROUP_CREATE of 2 members, this device first, FANIN 2, in slot 3 (R318). -/
def creating : State := atCmd 9 0x1000 [(0x201000, 4, 2), (0x201004, 2, 21), (0x201006, 1, 2), (0x201007, 1, 3), (0x201040, 4, served.geid), (0x201044, 4, 9)]
theorem witness_GroupsForm : creating.CmdAt 0 9 (cmdOf 9 0x1000) ∧ (let d := creating.dev.issuedCmd (cmdOf 9 0x1000)
    okBytes (d.load (whoCmd (cmdOf 9 0x1000)) 0x1000 64) (fun head => leNat (head.take 4) = 2 && (head.getD 6 0#8).toNat = 2 &&
      okBytes (d.load (whoCmd (cmdOf 9 0x1000)) 0x1040 8) (fun list =>
        ((d.formGroup 5 head (memberList list)).map fun x => (x.1, x.2.children.length)) = some (3, 1))) = true) :=
  ⟨cmd_at _ _ _ _ (by decide +kernel), by decide +kernel⟩
theorem witness_GroupDestroys : ((let s := atCmd 0x0A 3 []; { s with dev := { s.dev with groups := [(3, some aGroup)] } } : State)).CmdAt 0 0x0A (cmdOf 0x0A 3) ∧
    aGroup.ctx = (cmdOf 0x0A 3).ctx ∧ aGroup.state ≠ .pendingCreate := ⟨cmd_at _ _ _ _ (by decide +kernel), rfl, by decide⟩
/-- R317 with 7 members and FANIN 2: member 1's children are members 3 and 4, member 3 has none. -/
theorem test_tree_of_seven : treeChildren 2 7 1 = [3, 4] ∧ treeChildren 2 7 3 = [] ∧ treeChildren 8 10 1 = [9] := by decide

/-! ### The dictionary -/

/-- The device with its host at work. -/
def hosted : State := { on with dev := { served with perstHigh := true } }
def reqOk (s : State) (p : Path) (h : Nat) (data : List Byte) : Bool :=
  decide (s.dev.life = .on) && !s.dev.boot.recovery && s.dev.primeOf 0 == 1 && ((pathFn p).all fun f => s.dev.hostUp && (s.dev.reg f).state != 1) &&
    (headerBar p h).isNone && !rqRemote h && s.dev.kept.isEmpty && s.dev.takesFrame p && s.dev.reqQueue.isEmpty && !s.dev.slotOn &&
    (s.dev.received p h data).mayRequest ((s.dev.received p h data).pathRight p) (rqOp h) (rqIndex h) (rqSub h) (rqOffset h) (rqLength h) (s.dev.heard p h data)
theorem req_of (s : State) (p : Path) (h : Nat) (data : List Byte) (g : reqOk s p h data = true) : s.Req p h data := by
  simp only [reqOk, Bool.and_eq_true, decide_eq_true_eq, Bool.not_eq_true', beq_iff_eq, Option.isNone_iff_eq_none, List.isEmpty_iff] at g
  obtain ⟨⟨⟨⟨⟨⟨⟨⟨⟨⟨h1, h2⟩, h3⟩, h4⟩, h5⟩, h6⟩, h7⟩, h9⟩, h10⟩, h11⟩, h8⟩ := g
  refine ⟨h1, h2, h3, fun f hf => ?_, h9, h10, .inl h11, h5, h6, fun k hk => by simp [h7] at hk, h8⟩
  rw [hf] at h4; simpa using h4
theorem reqs_of (s : State) (p : Path) (l : List (Nat × List Byte)) (g : (l.all fun x => reqOk s p x.1 x.2) = true) : ∀ x ∈ l, s.Req p x.1 x.2 :=
  fun x hx => req_of _ _ _ _ (List.all_eq_true.1 g x hx)

/-- One request of every row the host or the management port sends. -/
def requestsOfEach : List Instr :=
  [Instr.read .pf (BitVec.ofNat 128 (rqHeader 1 7 0x2000 1 0 4)), .write port5 (BitVec.ofNat 128 (rqHeader 2 7 0x2030 1 0 1)) [1#8],
   .describe .pf (BitVec.ofNat 128 (rqHeader 3 7 0x2000 1 0 8)), .memRead .pf (BitVec.ofNat 128 (rqHeader 4 7 0 0 0x202000 64)) [],
   .memWrite (.vf 0) (BitVec.ofNat 128 (rqHeader 5 7 0 0 0x202000 2)) [1#8, 2#8], .periodChange .pf 7 (natLe 4 20000 ++ natLe 8 64),
   .routeLoad .pf 7 [1#8], .epochChange .pf 7 (natLe 1 3 ++ natLe 8 16), .domainDrain .pf 7 (natLe 2 9), .portRetrain port5 7 (natLe 4 1),
   .define .pf 7 5, .remove .pf 7 5, .abort .pf 7 5, .resume .pf 7 5, .seqDropsClear .pf 7 [1#8], .logClear 10 .pf 7 [1#8], .lsClear .pf 7 [1#8],
   .deviceReset .pf 7 [1#8], .flashRead .pf 7 (natLe 8 1), .flashProgram .pf 7 (natLe 8 2), .flashErase .pf 7 (natLe 8 3), .svnAdvance .pf 7 (natLe 4 1),
   .keyRevoke .pf 7 [3#8], .bootPreference .pf 7 [1#8], .attestNonce .pf 7 (List.replicate 32 0)]
/-- `i` is a request that `s` takes. -/
def takes (s : State) (i : Instr) : Bool :=
  match requestOf i with
  | some (p, h, data, _) => reqOk s p h data
  | none => false
theorem hosted_takes_all : requestsOfEach.all (takes hosted) = true := by decide +kernel
/-- The physical function and a management source ask for everything; so does partition 0's function within its rights. -/
theorem witness_RequestsArePerformed : ∀ i ∈ requestsOfEach,
    ∃ p h data ecc, requestOf i = some (p, h, data, ecc) ∧ hosted.Req p h data := by
  intro i hi
  have all := List.all_eq_true.1 hosted_takes_all i hi
  unfold takes at all
  split at all
  · next p h data ecc e => exact ⟨p, h, data, ecc, e, req_of _ _ _ _ all⟩
  · cases all

def hd (op idx sub off len : Nat) : Nat := rqHeader op 7 idx sub off len
def answered : State :=
  { hosted with dev := { hosted.dev with kept := [⟨pathSource port5, hd 2 0x2000 2 0 12, hd 2 0x2000 2 0 12, []⟩] } }
theorem witness_RequestsAreAnsweredAgain : requestOf (.periodChange port5 7 (List.replicate 12 0)) = some (port5, hd 2 0x2000 2 0 12, List.replicate 12 0, []) ∧
    answered.dev.life = .on ∧ answered.dev.primeOf 0 = 1 ∧ pathFn port5 = none ∧ answered.dev.takesFrame port5 = true ∧ answered.dev.reqQueue = [] ∧
    answered.dev.slotOn = false ∧
    (answered.dev.kept.find? fun k => k.src = pathSource port5 && k.request = hd 2 0x2000 2 0 12) = some ⟨pathSource port5, hd 2 0x2000 2 0 12, hd 2 0x2000 2 0 12, []⟩ := by decide +kernel
/-- A frame for the module in slot 1; and 64 requests that wait. -/
theorem witness_RequestsAreDiscarded : hosted.dev.takesFrame (.mgmt ⟨5, 0x02594C000001, 0x88B5, 0x1014B⟩) = false ∧ hosted.dev.takesFrame (.fabric 9 0x2014B) = false ∧
    (let d : Dev := { hosted.dev with slotOn := true, reqQueue := List.replicate 64 ⟨port5, hd 4 0 0 0x202000 64, [], []⟩ }
     d.takesFrame port5 = true ∧ 64 ≤ (d.reqQueue.filter fun x => keeps x.src).length) := by decide +kernel
def entryOf (h : Nat) : Option Entry := findEntry (rqIndex h) (rqSub h)
/-- READ of a readable entry, DESCRIBE; then each refusal: no entry, no subindex, a write-only entry read, a read-only one
written, and ranges beyond the entry. -/
theorem witness_ReadsAnswerAndRefusalsChangeNothing : (∀ x ∈ [hd 1 0x2000 1 0 4, hd 3 0x2000 1 0 8, hd 1 0x0FFF 1 0 4, hd 1 0x2000 0xFE 0 4, hd 1 0x2000 2 0 12,
      hd 2 0x8070 1 0 4, hd 1 0x2000 1 1 4, hd 2 0x2030 1 1 4].map fun h => (h, []), hosted.Req port5 x.1 x.2) ∧
    (entryOf (hd 1 0x2000 1 0 4)).any (fun e => e.acc != 3 && e.rangeOk false 0 4) = true ∧ (entryOf (hd 3 0x2000 1 0 8)).isSome = true ∧
    rqOffset (hd 3 0x2000 1 0 8) = 0 ∧ rqLength (hd 3 0x2000 1 0 8) = 8 ∧
    (entryOf (hd 1 0x0FFF 1 0 4) = none ∧ indexDefined 0x0FFF = false) ∧ (entryOf (hd 1 0x2000 0xFE 0 4) = none ∧ indexDefined 0x2000 = true) ∧
    (entryOf (hd 1 0x2000 2 0 12)).any (fun e => e.acc = 3) = true ∧ (entryOf (hd 2 0x8070 1 0 4)).any (fun e => e.acc = 0) = true ∧
    (entryOf (hd 1 0x2000 1 1 4)).any (fun e => e.acc != 3 && !e.rangeOk false 1 4) = true ∧
    (entryOf (hd 2 0x2030 1 1 4)).any (fun e => e.acc != 0 && !e.rangeOk true 1 4) = true :=
  ⟨reqs_of _ _ _ (by decide +kernel), by decide +kernel⟩
def writes : List (Nat × Nat × List Byte × Nat) := [(0x4010, 1, natLe 8 64, 1), (0x2030, 1, natLe 1 1, 2), (0x2040, 1, natLe 1 1, 3)]
/-- A WRITE that takes effect at once, one that waits for the turnover, and an action. -/
theorem witness_WritesTakeEffectAsTheirAccessSays : (∀ x ∈ writes.map fun x => (hd 2 x.1 x.2.1 0 x.2.2.1.length, x.2.2.1), hosted.Req port5 x.1 x.2) ∧
    ∀ x ∈ writes, let h := hd 2 x.1 x.2.1 0 x.2.2.1.length
      let d := hosted.dev.received port5 h x.2.2.1
      (entryOf h).any (fun e => e.rangeOk true 0 (rqLength h) && e.acc = x.2.2.2 && (let els := e.elements 0 x.2.2.1
        !d.unprimedEntry x.1 x.2.1 els && !d.faultedEntry x.1 x.2.1 els && (elementBar e x.1 x.2.1 els).isNone &&
          (e.acc != 3 || (actionBar hosted.clk d x.1 x.2.1 x.2.2.1).isNone))) = true :=
  ⟨reqs_of _ _ _ (by decide +kernel), by decide +kernel⟩
/-- R361: a WRITE of ROUTE_IMAGE_ADDR takes effect at once; one of an RS entry only at the turnover. -/
theorem test_writes_take_effect : (∃ t, exec (.write port5 (BitVec.ofNat 128 (hd 2 0x4010 1 0 8)) (natLe 8 64)) hosted = .next t ∧ t.dev.v 0x4010 1 0 = 64) ∧
    ∃ t, exec (.write port5 (BitVec.ofNat 128 (hd 2 0x2030 1 0 1)) [1#8]) hosted = .next t ∧ t.dev.v 0x2030 1 0 = hosted.dev.v 0x2030 1 0 :=
  ⟨⟨_, rfl, by decide +kernel⟩, ⟨_, rfl, by decide +kernel⟩⟩
def dirty : State := { hosted with dev := { hosted.dev with mem := { hosted.dev.mem with poison := [(0x202000 / 64, true)] } } }
theorem witness_MemoryRequestsReachMemory : (∀ s ∈ [hosted, dirty], (s.dev.received port5 (hd 4 0 0 0x202000 64) []).memBar 0x202000 64 = none ∧
      reqOk s port5 (hd 4 0 0 0x202000 64) [] = true ∧ reqOk s port5 (hd 5 0 0 0x202000 2) [1#8, 2#8] = true ∧
      (s.dev.heard port5 (hd 5 0 0 0x202000 2) [1#8, 2#8]).take 2 = [1#8, 2#8]) ∧
    hosted.dev.memNow.anyPoison 0x202000 64 = false ∧ dirty.dev.memNow.anyPoison 0x202000 64 = true ∧
    hosted.dev.burstOn = false ∧ ({ hosted.dev with burstOn := true } : Dev).burstOn = true := by decide +kernel
theorem test_mem_write_writes : ∃ t, exec (.memWrite port5 (BitVec.ofNat 128 (hd 5 0 0 0x2FF 2)) [1#8, 2#8]) hosted = .next t ∧
    t.dev.mem.byte 0x2FF = 1#8 ∧ t.dev.mem.byte 0x300 = 2#8 ∧ t.dev.mem.byte 0x301 = 0#8 := ⟨_, rfl, by decide +kernel⟩
theorem witness_DictionaryActionsDoTheirWork : hosted.dev.routeBusy = false ∧ (∃ bs : List Byte, leNat bs = 1) ∧
    (∀ st ∈ [CtxState.running, .suspended, .defined], let x : Ctx := { state := st }
      x.gone = false ∧ x.state ≠ .aborting ∧ x.state ≠ .aborted ∧ (st = .suspended ∨ x.state ≠ .suspended)) := ⟨by decide +kernel, ⟨[1#8], by decide⟩, by decide +kernel⟩

/-! ### Mailboxes, doorbells, the host and resets -/

def withReg (r : RegBlock) (s : State) : State := { s with dev := s.dev.setReg 0 r }
theorem witness_MailboxDoorbells : hosted.dev.life = .on ∧ hosted.dev.hostUp = true ∧
    ((withReg { state := 1 } hosted).dev.hostUp = true ∧ ((withReg { state := 1 } hosted).dev.reg 0).state = 1) ∧
    ((hosted.dev.reg 0).state ≠ 1 ∧ ({ hosted.dev with prime := [(3, 1)] } : Dev).primeOf 0 ≠ 1 ∧ ({ hosted.dev with prime := [(3, 1)] } : Dev).hostUp = true) ∧
    reqOk (withReg { reqHdr := hd 1 0x2000 1 0 4 } hosted) .pf (hd 1 0x2000 1 0 4) [] = true ∧ (0#32 : BitVec 32) ≠ 1#32 := by decide +kernel
/-- A request of the host for device 9 (R367). -/
def toFar : Nat := hd 2 0x2030 1 0 1 + 9 * 2 ^ 60 + 2 ^ 59
theorem witness_RemoteRequestsLeaveAndEnd : (hosted.dev.boot.recovery = false ∧ hosted.dev.primeOf 0 = 1 ∧ (hosted.dev.reg 0).state ≠ 1 ∧ headerBar .pf toFar = none ∧
      rqRemote toFar = true ∧ hosted.dev.kept = [] ∧ hosted.dev.reqQueue = []) ∧
    (∀ n ∈ [39, 40], let s := withReg { state := 1, remote := some ⟨9, toFar, [], n⟩ } hosted
      (s.dev.reg 0).remote = some ⟨9, toFar, [], n⟩ ∧ (s.dev.reg 0).irq % 2 = 0) ∧ (9 : BitVec 20).toNat = 9 ∧ (BitVec.ofNat 128 toFar).toNat / 2 ^ 80 = toFar / 2 ^ 80 := by
  decide +kernel
def queues : State := { hosted with dev := { hosted.dev with val := [(ctr 0x3400 3 0, 64), (ctr 0x3800 3 0, 64)] } }
theorem witness_QueueDoorbells : queues.dev.hostUp = true ∧ (63#32).toNat < queues.dev.sqSize 0 ∧ queues.dev.sqFunction 0 = 0 ∧ queues.dev.sqSize 0 ≤ (64#32).toNat ∧
    (63#32).toNat < queues.dev.cqSize 0 ∧ queues.dev.cqFunction 0 = 0 ∧ queues.dev.cqSize 0 ≤ (64#32).toNat ∧ queues.dev.heldCq = [] := by decide +kernel
/-- R371: a doorbell write of a value that is not below the queue's size is an error and moves no tail. -/
theorem test_tail_must_be_below_the_size : (∃ t, exec (.sqTail 0 0 63#32) queues = .next t ∧ (t.dev.sq 0).tail = 63) ∧
    ∃ t, exec (.sqTail 0 0 64#32) queues = .next t ∧ (t.dev.sq 0).tail = 0 := ⟨⟨_, rfl, by decide +kernel⟩, ⟨_, rfl, by decide +kernel⟩⟩

/-- Function 1 belongs to partition 0, whose share has no range here; the physical function reaches all of memory. -/
theorem witness_HostAccessesThroughBar2 : hosted.dev.life = .on ∧ hosted.dev.hostUp = true ∧ hosted.dev.slotOn = false ∧
    (({ hosted.dev with slotOn := true } : Dev).slotOn = true ∧ ({ hosted.dev with slotOn := true } : Dev).bar2Addr 0 64 < cisternEnd) ∧
    ({ hosted with dev := { hosted.dev with val := [(ctr 0x3100 2 1, 0x1FFFFF)] } } : State).dev.hostRefused 1 0x202000 64 = true ∧
    (let a := hosted.dev.bar2Addr 0 (cisternEnd - 64)
     a = cisternEnd - 64 ∧ hosted.dev.hostRefused 0 a 64 = false ∧ a + 64 ≤ cisternEnd ∧ (∀ i ∈ List.range 64, hosted.dev.primeOf (64 + hosted.dev.cisternOf (a + i)) = 1) ∧
     (hosted.dev.cisternsOf a 64).all (fun ci => hosted.dev.primeOf (64 + ci) == 1) = true) := by decide +kernel
theorem witness_FunctionResets : hosted.dev.life = .on ∧ hosted.dev.hostUp = true ∧ (1 : FunctionId).val ≠ 0 ∧ 5 ∈ hosted.dev.ctxIds := by decide +kernel
def living (l : Life) (f : Dev → Dev) : State := { on with dev := f { served with life := l } }
theorem witness_FullResets : on.dev.flashOp = none ∧ on.dev.life ≠ .off ∧ (living .on fun d => { d with resetAsked := true }).dev.resetAsked = true ∧
    ((living .fatal fun d => d.setV 0x7200 4 0 1).dev.life = .fatal ∧ (living .fatal fun d => d.setV 0x7200 4 0 1).dev.resetAsked = false ∧
      (living .fatal fun d => d.setV 0x7200 4 0 1).dev.v 0x7200 4 0 = 1) ∧
    ((living (.held .command) fun d => { d with resetPinHigh := true }).dev.life = .held .command ∧ (living (.held .command) fun d => { d with resetPinHigh := true }).dev.resetPinHigh = true) ∧
    (living (.held .command) fun d => { d with resetPinHigh := false }).dev.resetPinHigh = false ∧
    (off.dev.life = .off ∧ 40 ≤ f32Rat (0x42200000#32).toNat ∧ f32Rat (0x421FFFFF#32).toNat < 40) := by decide +kernel
/-- R382: MODULE_RESET_N low resets the module and keeps the flash. -/
theorem test_reset_pin : ∃ t, exec (.moduleResetN false) (living .on fun d => { d with flash := [(3, 7#8)] }) = .next t ∧ t.dev.life = .held .resetPin ∧
    t.dev.flashByte 3 = 7#8 ∧ (t.dev.ctx 5).state = .undefined := ⟨_, rfl, by decide +kernel⟩

/-! ### Boot, priming, flash, reports -/

def booted (done : Bool) (l : List (Nat × Nat)) : State :=
  { on with dev := { State.reset.dev with life := .on, perstHigh := true, prime := l, boot := { State.reset.dev.boot with done := done } } }
/-- Neither slot of an erased flash holds an image. The key digests fused at manufacture are constants without a body, so no flash
can be written here whose image boots. -/
theorem witness_Boots : (booted false []).dev.life = .on ∧ (booted false []).dev.boot.done = false ∧ (booted true []).dev.boot.done = true ∧
    (booted false []).dev.slotResult 0 true ≠ 0 ∧ (booted false []).dev.slotResult 1 true ≠ 0 := by decide +kernel
theorem witness_PrimingEnds : (∀ fn ∈ [PrimeFn.mgmt, .stroke, .security, .pcie, .hdie 1, .cluster 31, .cistern 31, .port 31],
      (booted true []).dev.mayPrime fn = true ∧ (booted true [(primeKey fn, 2)]).dev.mayPrime fn = false) ∧
    ∀ f ∈ List.range 9, ((booted true []).dev.reg f).waiting = none := by decide +kernel
theorem witness_FlashOperationsEnd : ∀ op ∈ [1, 2, 3], (living .fatal fun d => { d with flashOp := some ⟨op, 4096, []⟩ }).dev.flashOp = some ⟨op, 4096, []⟩ := by
  decide +kernel
theorem witness_ReportsAreReady : on.dev.attest.forming = [] ∧ (living .on fun d => { d with attest := { d.attest with forming := [[1#8]] } }).dev.attest.forming = [1#8] :: [] := by
  decide +kernel

/-! ### Power, heat, the test port -/

def powered (f : Power → Power) : State := living .on fun d => { d with power := f d.power }
theorem witness_PowerTargetsStayWithinTheirBounds : (powered id).dev.life = .on ∧ (powered id).dev.power.current * f32Rat 0x42400000 ≤ (powered id).dev.power.thermal ∧
    (powered id).dev.power.warning = false ∧ ¬ f32Rat 0x42400000 < 40 ∧ (powered id).dev.power.current * f32Rat 0x42400000 ≤ 4600 := by decide +kernel
/-- Samples whose every sensor shows one FP32 temperature. -/
def warm (d l c : F32) : Thermal := ⟨List.replicate 6 d, List.replicate 32 l, List.replicate 32 c⟩
theorem witness_PowerAndCoolantAreWatched : (41 < f32Rat ((living .on fun d => d.setV 0x8100 1 0 0x42240001).dev.v 0x8100 1 0) ∧ f32Rat (on.dev.v 0x8100 1 0) ≤ 41) ∧
    thermalShutdown (warm 0x42E60000 0 0) = true ∧ thermalShutdown (warm 0 0 0x42D20000) = true ∧ thermalShutdown (warm 0x42E5FFFF 0x42E5FFFF 0x42D1FFFF) = false ∧
    on.clk.extended = false ∧ on.dev.power.hot = none ∧
    (powered fun p => { p with throttling := true }).dev.power.throttling = true ∧ ((powered id).dev.power.throttling = false ∧ (powered id).dev.power.released = true) ∧
    ((powered fun p => { p with released := false }).dev.power.throttling = false ∧ (powered fun p => { p with released := false }).dev.power.released = false) ∧
    17 ≤ f32Rat 0x41880000 ∧ f32Rat 0x42340000 ≤ 45 ∧ 6 ≤ f32Rat 0x40C00000 ∧ f32Rat 0x41200000 ≤ 10 ∧ f32Rat 0x4187FFFF < 17 ∧ 45 < f32Rat 0x42340001 ∧
    f32Rat 0x40BFFFFF < 6 ∧ 10 < f32Rat 0x41200001 := by decide +kernel
/-- R438: the throttle starts at 100 °C on a die and at 95 °C in a DRAM stack, and takes a fiftieth of the cap each step. -/
theorem test_throttle : after (.thermalSample (warm 0x42C80000 0 0)) on (·.dev.power.throttling) = true ∧
    after (.thermalSample (warm 0x42C7FFFF 0 0x42BDFFFF)) on (!·.dev.power.throttling) = true ∧
    after .thermalLimitStep (powered fun p => { p with throttling := true }) (fun t => t.dev.power.thermal = 4600 - 4600 / 50) = true := by decide +kernel
def ported (pin : Bool) (t : TapInstr) : State := living .on fun d => { d with resetPinHigh := pin, tap := { d.tap with trst := true, instr := t } }
theorem witness_TestPortInstructionsNeedTheReset : ∀ pin ∈ [false, true], (ported pin .clamp).dev.life ≠ .off ∧ (ported pin .clamp).dev.tap.trst = true ∧
    (ported pin .clamp).dev.resetPinHigh = pin ∧ (ported pin .clamp).dev.tap.instr ∈ tapRows.map (·.2.1) := by decide +kernel

/-! ### Failures, lock-step, contexts, jobs -/

theorem witness_FailuresStopOrDisable : on.dev.life = .on ∧ UnitName.core 255 ∉ on.dev.unitResets ∧
    (∀ u ∈ [UnitName.core 255, .cluster 3, .hdie 1], u ∈ (living .on fun d => { d with unitResets := [u] }).dev.unitResets) ∧ unitCluster (.core 255) = some 31 ∧
    (on.dev.port 0).state ≠ .disabled := by decide +kernel
theorem test_bridge_replays_16_times : (∃ t, exec (.bridgeFlitReplay 1 15) on = .next t ∧ t.dev.life = .on) ∧
    ∃ t, exec (.bridgeFlitReplay 1 16) on = .next t ∧ t.dev.life = .fatal := ⟨⟨_, rfl, by decide +kernel⟩, ⟨_, rfl, by decide +kernel⟩⟩
def stepped : State := living .on fun d => d.setV 0x7100 1 0 1
def signatures (n : Nat) : List Byte := (natLe 16 (0x4C * 2 ^ 56) ++ List.replicate n 0#8)
theorem witness_SignaturesAreKeptForTheVerdict : (signaturesOf (signatures 528)).isSome = true ∧ stepped.dev.lsOn = true ∧ stepped.dev.lsPort = 0 ∧
    signaturesOf (signatures 527) = none ∧ on.dev.lsOn = false := by decide +kernel
def switching (w : SwitchOver) : State := living .on fun d => { d with clusters := [(0, { holder := none, switch := some w })] }
/-- A switch-over that completes at the start of its stroke's turnover, or in a later stroke. -/
theorem witness_SwitchOversEnd_late : let w : SwitchOver := ⟨none, some 5, 0, []⟩
    let s := switching w
    (s.dev.cluster 0).switch = some w ∧ (turn .deadline).clk.held = false ∧ w.began ≤ (turn .deadline).clk.stroke ∧ (turn .deadline).clk.stage ≠ .work ∧
    ¬((turn .deadline).clk.stroke = w.began ∧ (turn .deadline).clk.stage ≠ .work ∧ (turn .deadline).clk.phase = 0) ∧
    ({ on.clk with stroke := 1 } : Clock).held = false ∧ w.began < ({ on.clk with stroke := 1 } : Clock).stroke := by decide +kernel
theorem witness_SwitchOversEnd : ∀ w ∈ [(⟨some 5, none, 0, []⟩ : SwitchOver), ⟨none, some 5, 0, []⟩],
    ((switching w).dev.cluster 0).switch = some w ∧ (switching w).clk.held = false ∧ w.began ≤ (switching w).clk.stroke ∧ (switching w).clk.stage = .work ∧
    bit ((switching w).dev.ctx 5).spilled 0 = false := by decide +kernel
theorem witness_AbortsEnd : ((living .on fun d => d.updCtx 5 fun k => { k with state := .aborting }).dev.ctx 5).state = .aborting ∧ (on.dev.ctx 5).state ≠ .aborting := by
  decide +kernel
/-- Queue 0 with one envelope in its ring at 0x208000: a JOB_START alone in its batch (STROKE_END), for a stroke. -/
def jobEnv (start bad : Nat) : Nat := 0x10 * 2 ^ 504 + 2 ^ 503 + start * 2 ^ 192 + bad
def jobAt (start bad : Nat) : State :=
  { on with
    clk := { on.clk with stage := .changed, phase := 999200 }
    dev := ({ served with
      val := [(ctr 0x3100 1 0, 1), (ctr 0x3100 2 1, 0xFFFFFF), (ctr 0x3400 1 0, 0x208000), (ctr 0x3400 3 0, 16), (ctr 0x3400 4 0, 5)]
      mem := words [(0x208000, 64, jobEnv start bad)] }).setSq 0 { served.sq 0 with tail := 1, sampled := 1 } }
def jobCmd (start bad : Nat) : QCmd := { q := 0, index := 0, env := jobEnv start bad, poison := false, ctx := 5, stroke := 1 }
theorem witness_JobStartsAreExamined : (∀ x ∈ [(0, 1), (0, 0), (1, 0)], (jobAt x.1 x.2).dev.life = .on ∧ (jobAt x.1 x.2).clk.running = true ∧
      (jobAt x.1 x.2).clk.stage.formed = true ∧ (jobAt x.1 x.2).dev.nextBatch 0 1 = [jobCmd x.1 x.2] ∧ (jobCmd x.1 x.2).examined = true ∧
      ((jobAt x.1 x.2).dev.sq 0).batch = 0 ∧ ((jobAt x.1 x.2).dev.ctx 5).gone = false) ∧
    jobStartBad (jobEnv 0 1) = true ∧ (jobStartBad (jobEnv 0 0) = false ∧ (jobAt 0 0).dev.jobNote (jobAt 0 0).clk 5 0 0 0 = some .startMissed) ∧
    jobStartBad (jobEnv 1 0) = false ∧ (jobAt 1 0).dev.jobNote (jobAt 1 0).clk 5 0 1 0 = none ∧ ((jobAt 1 0).dev.sq 0).arrived = [] := by decide +kernel

/-! ### Packets for units, memory requests, bulk transfers -/

theorem witness_TaggedPacketsWait : (turn .judged).dev.life = .on ∧ (turn .judged).clk.open = false ∧ taggedRow (.grant ⟨0, 0, [], []⟩) = true ∧
    taggedRow (.memReq ⟨⟨7, 0, 0, .load 0 1⟩, []⟩) = true ∧ taggedRow (.bulkAck 7 0 true false) = true := by decide +kernel
/-- A Tridal message of a type for round 1 of group 1 (R171). -/
def message (type : Nat) : TridalIn := ⟨BitVec.ofNat 64 (thMake type 1 1 0 0 0), 0, [], []⟩
def inRound : State := { on with dev := { served with rounds := [aRound] } }
theorem witness_TridalPacketsReachTheirRound : (on.clk.open = true ∧ on.clk.stage = .work ∧ on.dev.roundOf 1 1 = none) ∧ inRound.dev.roundOf 1 1 = some aRound ∧
    (∀ s ∈ [on, inRound], s.dev.tridalWait = [] ∧ s.dev.ingressFull (message 1) = false) ∧
    ({ on.dev with tridalWait := [(message 2, [])] } : Dev).tridalWait ≠ [] ∧
    ((turn .deadline).clk.open = true ∧ (turn .deadline).clk.stage = .deadline) ∧
    (∀ t ∈ [0, 1, 2, 3, 4, 5, 6, 7], let h := (message t).header.toNat; thType h = t ∧ thGroup h = 1 ∧ thRound h = 1) := by decide +kernel
/-- A COLLECTIVE packet of an operation for group 21 from a member (R326). -/
def packet (op sender : Nat) : CollIn := ⟨0, BitVec.ofNat 128 (op * 2 ^ 124 + 21 * 2 ^ 108 + sender * 2 ^ 86), []⟩
def inGroup : State := { on with dev := { served with groups := [(3, some { aGroup with parent := some ⟨2, 8, 0⟩ })] } }
theorem witness_CollectivePacketsReachTheirNode : (∀ op ∈ [0, 1, 2, 3, 4, 5, 6], chOp (packet op 0).header.toNat = op ∧ on.dev.collSlot (packet op 0) = none) ∧
    (∀ x ∈ [(1, 1), (2, 2), (4, 1), (5, 2)], inGroup.dev.collSlot (packet x.1 x.2) = some 3) ∧ inGroup.clk.stage = .work ∧ (turn .deadline).clk.open = true := by
  decide +kernel
theorem test_unknown_collective_packets_are_counted : after (.up (packet 1 0) ⟨none, false⟩) on (fun t => t.dev.v 0x80C0 6 0 = 1) = true := by decide +kernel
/-- Remote access entry 0 (R257): READ, WRITE and ATOMIC for GEID 7 and partition 0, signals to partition 0, addresses 0x202000 to 0x202FFF. -/
def entry : Nat := 15 * 2 ^ 252 + 1 * 2 ^ 244 + 7 * 2 ^ 221 + 7 * 2 ^ 201 + 0x202FFF * 2 ^ 64 + 0x202000
def shared (f : Dev → Dev) : State := { on with dev := f ((List.range 32).foldl (fun d j => d.setV 0x5100 1 j (entry / 256 ^ j % 256)) served) }
theorem witness_RemoteRequestsAreServedOrRefused : (shared id).dev.life = .on ∧ (shared id).clk.open = true ∧
    (∀ x ∈ [(0x202000, 1), (0x202FFF, 1), (0x202000, 4096)], ∀ r ∈ [RemoteRight.load, .store, .atomic], (shared id).dev.remoteBar 7 0 x.1 x.2 r = none) ∧
    (∀ x ∈ [(0x201FFF, 1), (0x203000, 1), (0x202FFF, 2)], ∀ r ∈ [RemoteRight.load, .store], (shared id).dev.remoteBar 7 0 x.1 x.2 r = some .denied) ∧
    (shared id).dev.remoteBar 6 0 0x202000 1 .load = some .denied ∧ (shared id).dev.remoteBar 7 1 0x202000 1 .load = some .denied ∧
    ({ (shared id).dev with slotOn := true } : Dev).remoteBar 7 0 0x202000 1 .load = some .waits ∧
    ((({ (shared id).dev with respCaches := [⟨7, [(1, some (1, 5))]⟩] } : Dev).respCache 7).any fun c => SMap.get (fun _ => none) c.entries (1 % 64) == some (1, 5)) = true ∧
    ((shared id).dev.respCache 7 = none ∧ ({ (shared id).dev with atomicTop := [(7, 65536)] } : Dev).respCache 7 = none ∧
      65536 ≤ (({ (shared id).dev with atomicTop := [(7, 65536)] } : Dev).atomicNumber 7 0).2) ∧
    ((shared id).dev.cluster 0).holder = some 5 ∧ (shared fun d => { d with clusters := [] }).dev.clusterOwner (3 / 512) = some 0 ∧
    ((shared fun d => { d with clusters := [] }).dev.cluster 0).holder = none ∧
    ((shared id).dev.clusterOwner (3 / 512) = some 0 ∧ remoteSignalOk (shared id).dev.remoteEntries 7 0 0 = true ∧ (shared id).dev.clusterFaulted 0 = false) ∧
    (shared fun d => d.setV 0x3100 1 0 0).dev.clusterOwner (3 / 512) = none := by decide +kernel
theorem test_remote_store_and_signal : after (.memReq ⟨⟨7, 0, 9, .store 0x202FFF [9#8] false⟩, []⟩) (shared id) (fun t => t.dev.mem.byte 0x202FFF = 9#8) = true ∧
    after (.memReq ⟨⟨7, 0, 9, .store 0x202FFF [9#8, 9#8] false⟩, []⟩) (shared id) (fun t => t.dev.mem.byte 0x202FFF = 0#8 && t.dev.v 0x8090 3 0 = 1) = true ∧
    after (.memReq ⟨⟨7, 0, 9, .signal 3 5⟩, []⟩) (shared id) (fun t => t.dev.valve 3 = 5) = true := by decide +kernel
def waitingFor (o : ReqOwner) (k : MemReqKind) : State :=
  { on with dev := { served with reqs := [⟨0, o, 5, 0, 4, true, 0, .memReq ⟨0, 0, 4, k⟩, false, 0⟩] } }
theorem witness_RequestsEndByAnswerOrTimeout : ∀ x ∈ [(ReqOwner.unitLoad 0 (.command 0), MemReqKind.load 0x2000 8), (.unitStore 0 (.command 0), .store 0x2000 [1#8] false),
      (.atomic 0, .atomic 1 false 0x2000 1 0 0)],
    let s := waitingFor x.1 x.2
    (s.dev.reqOf 0 4).any (fun r => (r.load.isSome == decide (x.1 = .unitLoad 0 (.command 0))) && (r.load.isSome || r.owner.loadKey.isSome || r.owner = .unitStore 0 (.command 0)) && (s.dev.resend s.clk r).2) = true ∧ s.dev.reqOf 0 5 = none ∧ s.clk.stage = .work ∧
    ({ s with clk := (turn .deadline).clk } : State).clk.stage ≠ .work := by decide +kernel
def aBulk : SentBulk := ⟨0, .command 0, 7, 2, 4, 5, 8, []⟩
def bulked : State := { on with dev := { served with sentBulks := [aBulk] } }
def theBulk (seq : BitVec 16) : BulkIn := ⟨7, 0, seq, [⟨0x202000, [1#8, 2#8], false⟩]⟩
theorem witness_BulkTransfersApplyInOrder : (shared id).dev.bulkHeld = [] ∧ SMap.get (fun _ => 0) (shared id).dev.bulkSeen 7 = 0 ∧ (theBulk 1).seq.toNat ≠ 0 ∧ (theBulk 0).seq.toNat = 0 ∧
    (∀ r ∈ (theBulk 0).ranges, (shared id).dev.remoteBar 7 0 r.addr.toNat r.data.length .store ≠ some .waits ∧
      ({ (shared id).dev with slotOn := true } : Dev).remoteBar 7 0 r.addr.toNat r.data.length .store = some .waits) ∧
    bulked.dev.sentBulks.find? (fun b => b.dest = 7 && b.seq = 2) = some aBulk ∧ bulked.dev.sentBulks.find? (fun b => b.dest = 7 && b.seq = 3) = none ∧
    bulked.dev.sentBulks.find? (fun b => b.dest = 7 && b.e2e = 4) = some aBulk ∧ bulked.dev.reqOf 7 4 = none := by decide +kernel

/-! ### The fabric -/

/-- A device with link 3 up on port 3 (short) and link 4 on port 4 (long), entries for GEIDs 11 (here), 12 (link 3) and 13 (link 4). -/
def fabric (k : Link → Link) (p : Port → Port) : State :=
  { on with dev := { served with
      ports := [(3, p { state := .up, signal := true, link := some 3, partner := some ⟨9, 0, 1, 3, 0⟩ }), (4, { state := .up, signal := true, link := some 4, partner := some ⟨10, 0, 2, 4, 0⟩ })]
      links := [(3, k { ports := [3] }), (4, { ports := [4], long := true, reserved := 1048576 })]
      routes := [(64 + 11, 2 ^ 30), (64 + 12, 2 * 2 ^ 30 + 3), (64 + 13, 2 * 2 ^ 30 + 4)] } }
/-- A packet's header (R300): type, tag (tagged when some), hops left, source and destination GEID. -/
def header (type : Nat) (tag : Option Nat) (epoch hops src dest : Nat) : Nat :=
  type * 2 ^ 124 + 2 ^ 123 + epoch * 2 ^ 112 + (match tag with | some t => 2 ^ 111 + t * 2 ^ 107 | none => 0) + src * 2 ^ 69 + dest * 2 ^ 49 + hops * 2 ^ 43
def drainOf (dom : Nat) : Link → Link := fun k => { k with drains := [⟨dom, []⟩] }
theorem witness_RoutersJudgePacketsInOrder : let d := (fabric id id).dev.setPort 3 (((fabric id id).dev.port 3).carry 0)
    ((((fabric (drainOf 0) id).dev.port 3).link.isSome && ((fabric (drainOf 0) id).dev.link 3).discards 0) = true ∧ (d.link 3).discards 0 = false) ∧
    (phEpoch (header 0 none 1 5 9 11) ≠ d.v 0x4010 5 0 ∧ phEpoch (header 0 none 0 5 9 11) = d.v 0x4010 5 0 ∧ phType (header 6 none 1 5 9 11) = 6) ∧
    (phHops (header 0 none 0 0 9 12) = 0 ∧ d.route (header 0 none 0 0 9 12) ≠ .here) ∧ (phHops (header 0 none 0 0 9 11) = 0 ∧ d.route (header 0 none 0 0 9 11) = .here) ∧
    tagCheck on.clk (header 0 (some 1) 0 5 9 11) = .discard ∧ tagCheck (turn .deadline).clk (header 0 (some 1) 0 5 9 11) = .hold ∧ tagCheck on.clk (header 0 (some 0) 0 5 9 11) = .pass ∧
    8 ≤ phType (header 8 none 0 5 9 11) ∧ phType (header 7 none 0 5 9 11) < 8 ∧
    (d.route (header 0 none 0 5 9 12) = .link 3 (header 0 none 0 5 9 12) ∧ (d.link 3).long = false) ∧
    (d.route (header 0 none 0 5 9 13) = .link 4 (header 0 none 0 5 9 13) ∧ (d.link 4).long = true ∧ longOk 0 = false ∧ longOk 2 = true) ∧ d.route (header 0 none 0 5 9 14) = .none := by
  decide +kernel
theorem witness_RoutersJudgePacketsInOrder_own : (phGeidRoute (header 0 none 0 5 0 0) = true ∧ phDest (header 0 none 0 5 0 0) = (fabric id id).dev.geid) ∧
    ((fabric id id).dev.route (header 0 none 0 5 9 12) = .link 3 (header 0 none 0 5 9 12) ∧ phDest (header 0 none 0 5 9 12) ≠ (fabric id id).dev.geid) ∧
    ((fabric id id).dev.route (header 0 none 0 5 0 14) = .none ∧ phSrc (header 0 none 0 5 0 14) = (fabric id id).dev.geid) ∧
    (phSrc (header 0 none 0 5 9 14) ≠ (fabric id id).dev.geid ∧ phVc (header 0 none 0 5 9 14) / 2 = 0) ∧ phVc (header 0 none 0 5 9 14 + 2 * 2 ^ 120) / 2 = 1 := by decide +kernel
/-- R412: a parity error of a routing table is recorded in the DEVICE domain, and the packet goes its way. -/
theorem test_table_parity_is_recorded : after (.packetForward none ⟨⟨BitVec.ofNat 128 (header 0 none 0 5 9 12), []⟩, some 1⟩) (fabric id id) (fun t =>
    t.dev.logCount == [(0, 1)] && t.dev.out.length == 1) = true := by decide +kernel
/-- R303: a forwarded packet leaves with HOPS_LEFT one lower, and on its link alone. -/
theorem test_forwarding_counts_hops : after (.packetForward (some 4) ⟨⟨BitVec.ofNat 128 (header 0 none 0 5 9 12), []⟩, none⟩) (fabric id id) (fun t =>
    t.dev.out.map (fun o => match o with
      | .frame l f ack xoff _ => (l, f.packet, f.seq, f.first, f.bytes, ack, xoff)
      | _ => (0, ⟨0, .raw [], none⟩, 0, 0, 0, 0, 0)) == [(3, ⟨header 0 none 0 4 9 12, .raw [], none⟩, 0, 0, 16, 0, 0)]) = true := by decide +kernel

def frameOf (seq ack : BitVec 16) (crc nack : Bool) : FrameIn := ⟨seq, ack, 0, crc, nack, []⟩
def unacked : Link → Link := fun k => { k with rxSeq := 5, unacked := [⟨0, 3, ⟨0, .raw [], none⟩, 0, 16⟩] }
theorem witness_FramesAreTakenInSequence : on.clk.upstream = none ∧ (on.dev.port 3).link = none ∧ ((fabric unacked id).dev.port 3).link = some 3 ∧
    (∀ n ∈ [0, 6, 7], let s := fabric unacked fun p => { p with replays := n }
      let rest := (s.dev.link 3).unacked.filter fun x => !ackedBy x.seq (0#16 : BitVec 16).toNat
      rest ≠ [] ∧ rest.length = (s.dev.link 3).unacked.length ∧ (s.dev.port 3).replays = n) ∧
    ((fabric unacked id).dev.link 3).unacked.filter (fun x => !ackedBy x.seq (1#16 : BitVec 16).toNat) = [] ∧
    (5#16 : BitVec 16).toNat = 5 ∧ ackedBy 4 5 = true ∧ ackedBy 6 5 = false ∧ ackedBy 5 5 = false := by decide +kernel
theorem test_frames : after (.frame 3 (frameOf 5 1 true false)) (fabric unacked id) (fun t => (t.dev.link 3).rxSeq == 6 && (t.dev.link 3).unacked.isEmpty) = true ∧
    after (.frame 3 (frameOf 6 0 true false)) (fabric unacked id) (fun t => (t.dev.link 3).rxSeq == 5 && decide (t.dev.out = [.linkAck 3 5 true])) = true := by decide +kernel

def training : State := { on with dev := { served with ports := [(5, { state := .training, signal := true })], val := [(ctr 0x4000 3 0, 3)] } }
/-- An offer of versions 1 to `most`, from a GEID (R292). -/
def offer (least most geid : Nat) : BitVec 128 := BitVec.ofNat 128 (least * 2 ^ 112 + most * 2 ^ 96 + geid * 2 ^ 76)
theorem witness_PortsTrain : (training.dev.port 5).state = .training ∧ (let d := training.dev.setPort 5 { training.dev.port 5 with signal := true }
    (∀ x ∈ [(1, 0), (4, 4)], let v := min (d.v 0x4000 3 0) (fld (offer x.1 x.2 9).toNat 111 96); v < 1 ∨ v < fld (offer x.1 x.2 9).toNat 127 112) ∧
    (∀ x ∈ [(1, 1, 0), (3, 3, 9), (1, 9, 9)], let b := (offer x.1 x.2.1 x.2.2).toNat; let v := min (d.v 0x4000 3 0) (fld b 111 96)
      1 ≤ v ∧ fld b 127 112 ≤ v ∧ fld b 95 76 = x.2.2 ∧ d.sameLink 5 (offerOf b) = none) ∧ d.geid = 0 ∧
    (∀ x ∈ [(20931, true), (20930, false)], decide (33554432 < (d.setPort 5 { d.port 5 with
        state := .joining, partner := some (offerOf (offer 1 9 9).toNat), refusal := 0, version := 3, rtt := x.1 }).storeUsed (portHdie 5)) = x.2)) := by decide +kernel
theorem test_link_offer : after (.linkOffer 5 (offer 1 9 9) 900) training (fun t => (t.dev.port 5).state == .joining && (t.dev.port 5).version == 3) = true ∧
    after (.linkOffer 5 (offer 4 9 9) 900) training (fun t => (t.dev.port 5).state == .refused && (t.dev.port 5).refusal == 1) = true := by decide +kernel
def lone (sync : Sync) : State :=
  { on with clk := { on.clk with sync := sync, upstream := some 3 }, dev := { served with ports := [(3, { state := .up, signal := true, link := some 3 })], links := [(3, { ports := [3] })] } }
theorem witness_PortsLeave : (∀ sync ∈ [Sync.locked, .priming], let s := lone sync
      let d := (s.dev.setPort 3 { s.dev.port 3 with signal := false }).portOut 3
      s.clk.upstream = some 3 ∧ (d.port 3).link = none ∧ (∀ p : Fin 32, (d.port p.val).link = none)) ∧
    (let s := { fabric id id with clk := { on.clk with upstream := some 4 } }
     (((s.dev.setPort 3 { s.dev.port 3 with signal := false }).portOut 3).port 4).link.isSome = true) ∧ on.clk.upstream = none ∧
    ((fabric id id).dev.port 3).state ≠ .down ∧ (on.dev.port 7).state = .down ∧
    (on.dev.setPort 7 { on.dev.port 7 with signal := true }).portUsable 7 = true ∧
    ((living .on fun d => d.setV 0x4030 1 7 0).dev.setPort 7 { on.dev.port 7 with signal := true }).portUsable 7 = false := by decide +kernel
def loading (base : Nat) : State := living .on fun d => { d with routeLoad := some (base, d.mem) }
theorem witness_RouteLoadsEnd : (∀ x ∈ [(0x202000, true), (0x202001, false)], (loading x.1).dev.routeLoad = some (x.1, served.mem) ∧
      (readImage (imageSeen served.mem (loading x.1).dev.mem x.1 (loading x.1).dev.freeCtr) x.1).isSome = x.2) ∧ on.dev.routeLoad = none := by decide +kernel
theorem witness_DrainsEnd : ((fabric (drainOf 9) id).dev.link 3).drains = [⟨9, []⟩] ∧ (9 : BitVec 12).toNat = 9 ∧ ((fabric id id).dev.link 3).drains = [] ∧
    ((fabric id id).dev.link 3).ports ≠ [] ∧ (on.dev.link 3).ports = [] := by decide +kernel

/-! ### Translation, pages, scrubbing, rates -/

def cached (l : List (Nat × Nat)) : State := living .on fun d => { d with clusters := [(0, { holder := some 5, tlb := l })] }
def locates (s : State) (va : Nat) : Option Nat :=
  match s.dev.locate 5 va true with
  | .ok m => some m.bits
  | .error _ => none
theorem witness_TranslationWalks : locates (cached []) 0x1234 = some 21 ∧ locates (cached []) 0x200000 = none ∧ ((cached [(5, 0)]).dev.cluster 0).tlb.contains (5, 0) = true ∧
    ((cached []).dev.cluster 0).tlb.contains (5, 0) = false ∧ ((cached []).dev.cluster 0).tlb.length < 4096 ∧
    ((cached (List.replicate 4096 (6, 0))).dev.cluster 0).tlb.contains (5, 0) = false ∧ 4096 ≤ ((cached (List.replicate 4096 (6, 0))).dev.cluster 0).tlb.length := by decide +kernel
/-- VA 0x400000 is an absent page of 64 KiB with BACKING ZERO (1) or HOST (2), and the partition's reserve holds the frame 0x300000 (R253). -/
def absent (backing left : Nat) : State :=
  living .on fun d => { ((d.setV 0x5300 1 0 0x14000).setV 0x5300 2 0 1).setV 0x5300 3 0 left with
    mem := words (tables ++ [(0x12010, 8, 2 ^ 63 + 0x13000), (0x13000, 8, backing * 2 ^ 60 + 2 ^ 59), (0x14000, 8, 0x300000)]) }
theorem witness_PagesAreBroughtIn : (∀ b ∈ [1, 2], walk (absent b 1).dev.mem ((absent b 1).dev.share 0) (absent b 1).dev.straps 0x10000 0x400000 = .absent 0x13000 (b * 2 ^ 60 + 2 ^ 59) ∧
      (absent b 1).dev.reserveNext 0 = some 0x300000 ∧ (absent b 1).dev.badPages = [] ∧ fld (b * 2 ^ 60 + 2 ^ 59) 61 60 = b) ∧
    (absent 1 0).dev.v (0x5300 + 0) 3 0 = 0 ∧ (absent 1 0).dev.reserveNext 0 = none := by decide +kernel
def scrubbing (f : Dev → Dev) : State := living .on fun d => f (d.setV 0x7200 1 0 1)
theorem witness_Scrubs : (scrubbing id).dev.v 0x7200 1 0 ≠ 0 ∧ (scrubbing id).dev.primeOf (64 + 31) = 1 ∧ (scrubbing id).dev.slotOn = false ∧ (scrubbing id).clk.stage = .work ∧
    (scrubbing id).dev.mem.poisoned (scrubLine (scrubbing id).dev.splits 31 0) = false ∧
    (scrubbing fun d => { d with mem := d.mem.setPoison (scrubLine d.splits 31 0 / 64) true }).dev.mem.poisoned (scrubLine (scrubbing id).dev.splits 31 0) = true ∧
    (scrubbing fun d => { d with slotOn := true }).dev.slotOn = true ∧ (scrubbing fun d => d.setV 0x7200 1 0 0).dev.v 0x7200 1 0 = 0 := by decide +kernel
def rated (l : List RateEntry) : State := { on with dev := { served with rates := l, val := [(ctr 0x4020 2 0, 1), (ctr 0x4020 3 0, 1000), (ctr 0x4020 4 0, 50), (ctr 0x4020 5 0, 50000)] } }
def sentOne : State := living .on fun d => { d with regHeld := [(3, ⟨header 0 none 0 5 0 12, .raw [], none⟩)] }
theorem witness_WindowsAndRatesAreKept : sentOne.dev.regHeld = [(3, ⟨header 0 none 0 5 0 12, .raw [], none⟩)] ∧ on.dev.regHeld = [] ∧ (rated []).dev.rates = [] ∧
    0 < sentOne.dev.fabricAllowance 0 ∧ (living .on fun d => d.setV 0x3100 6 0 0).dev.fabricAllowance 0 = 0 ∧
    (∀ e ∈ [(⟨0, some 7, 40000, none, 0⟩ : RateEntry), ⟨0, some 7, 40000, some (0, 0), 0⟩], rateIndex (rated [e]).dev.rates ((rated [e]).dev.sendHdie 7) 7 = some 0 ∧ (rated [e]).dev.rates[0]? = some e) ∧
    on.dev.shapeHeld = [] ∧ ({ on.dev with shapeHeld := [⟨7, 3, ⟨header 0 none 0 5 0 12, .raw [], none⟩⟩] } : Dev).shapeHeld = [⟨7, 3, ⟨header 0 none 0 5 0 12, .raw [], none⟩⟩] ∧
    (nsSince { on.clk with phase := 49 } (0, 0) < (rated []).dev.v 0x4020 4 0 ∧ (rated []).dev.v 0x4020 4 0 ≤ nsSince { on.clk with phase := 50 } (0, 0)) ∧
    7 ∉ on.dev.echoes ∧ 7 ∈ (living .on fun d => { d with echoes := [7] }).dev.echoes := by decide +kernel
theorem test_congestion_halves_the_rate : after (.congestion 7) (rated [⟨0, some 7, 40000, none, 0⟩]) (fun t => t.dev.rates == [⟨0, some 7, 20000, some (0, 0), 0⟩]) = true := by decide +kernel

/-! ### Order of selection, memory, headers -/

/-- R146: among equal scores the lower index is ahead, and a NaN is behind every number. -/
theorem test_rank : (rankRow 3 [0x3F800000, 0x7FC00000, 0x40000000, 0x3F800000]).map (·.1) = [2, 0, 3] := by decide +kernel
theorem test_memory_write : (Memory.reset.write 0x3F [1#8, 0#8, 3#8] true).cells = [(0x3F, 1#8), (0x41, 3#8)] ∧ (Memory.reset.write 0x3F [1#8, 0#8, 3#8] true).poisoned 0x7F = true := by decide +kernel
theorem witness_HeadersAndOffersReadBack : on.dev.geid < 2 ^ 20 ∧ on.dev.v 0x4010 5 0 < 256 ∧ training.dev.v 0x4000 3 0 < 2 ^ 16 ∧ on.dev.straps < 8 ∧ (3 : Nat) < 4 := by decide +kernel
/-- Codes of every narrow width, runs that end within a group, and the last element of each. The hypotheses are met, and
the run stored at an odd address reads back. -/
theorem witness_NarrowElementsArePackedDensely :
    (∀ c ∈ [63, 1, 32, 21, 42], c < 2 ^ fmtBits 5) ∧ (∀ c ∈ [15, 1, 8], c < 2 ^ fmtBits 9) ∧ (3 : Nat) < 4 ∧
    ((Memory.reset.write 5 (packElems 6 0xFF#8 [63, 1, 32, 21, 42]) false).read 5 4).map (·.toNat) = [0x7F, 0x00, 0x56, 0xEA] ∧
    elemAt (Memory.reset.write 5 (packElems 6 0xFF#8 [63, 1, 32, 21, 42]) false) 5 6 4 = 42 ∧
    ((Memory.reset.write 5 (packElems 7 0x50#8 [15, 1, 8]) true).read 5 2).map (·.toNat) = [0x1F, 0x58] := by decide +kernel
/-- SM3 of "abc" (GB/T 32905, example 1). -/
theorem test_sm3 : sm3 [0x61#8, 0x62#8, 0x63#8] = natBe 32 0x66c7f0f462eeedd9d1f2d46bdc10e4e24167c4875cf2f7a2297da02b8f4ba8e0 := by decide +kernel

end Sys2Proof.Tests
end

section
/-! PROOFS. Packed elements (R47). A run of bytes is one little-endian number; an element is a slice of it, wherever the
slice starts, and a packed run is the number whose digits in base 2^bits are the codes. -/

namespace Sys2Proof.Machine

/-! ### Slices of a number -/

theorem fld_eq_div_mod (w lo b : Nat) (hb : 0 < b) : fld w (lo + b - 1) lo = w / 2 ^ lo % 2 ^ b := by
  rw [fld, Nat.shiftRight_eq_div_pow, show lo + b - 1 + 1 - lo = b by omega]

/-- A slice of `b` bits that ends below bit `q` depends on the number modulo 2^q only. -/
theorem div_mod_of_mod_eq {x y q t b : Nat} (hq : t + b ≤ q) (h : x % 2 ^ q = y % 2 ^ q) :
    x / 2 ^ t % 2 ^ b = y / 2 ^ t % 2 ^ b := by
  have hd : 2 ^ (t + b) ∣ 2 ^ q := Nat.pow_dvd_pow 2 hq
  rw [← Nat.mod_mul_right_div_self x, ← Nat.mod_mul_right_div_self y, ← Nat.pow_add, ← Nat.mod_mod_of_dvd x hd, h,
    Nat.mod_mod_of_dvd y hd]

/-! ### A number given by its digits -/

/-- The number whose digits of `b` bits are `cs`, the lowest first. A run of bytes is one (`leNat_eq_digitsNat`), and so is a
packed run (`packElems_spec`). -/
def digitsNat (b : Nat) : List Nat → Nat
  | [] => 0
  | c :: cs => c + 2 ^ b * digitsNat b cs

theorem two_pow_mul_succ (b n : Nat) : 2 ^ (b * (n + 1)) = 2 ^ b * 2 ^ (b * n) := by
  rw [Nat.mul_succ, Nat.add_comm, Nat.pow_add]

theorem digitsNat_append (b : Nat) (xs ys : List Nat) :
    digitsNat b (xs ++ ys) = digitsNat b xs + 2 ^ (b * xs.length) * digitsNat b ys := by
  induction xs with
  | nil => rw [List.nil_append, digitsNat, List.length_nil, Nat.mul_zero, Nat.pow_zero, Nat.one_mul, Nat.zero_add]
  | cons c xs ih =>
    rw [List.cons_append, digitsNat, digitsNat, ih, List.length_cons, two_pow_mul_succ, Nat.mul_add, Nat.add_assoc, Nat.mul_assoc]

theorem digitsNat_lt (b : Nat) (cs : List Nat) (hc : ∀ c ∈ cs, c < 2 ^ b) : digitsNat b cs < 2 ^ (b * cs.length) := by
  induction cs with
  | nil => exact Nat.two_pow_pos _
  | cons c cs ih =>
    have hfirst : c < 2 ^ b := hc c List.mem_cons_self
    have hrest := ih fun x hx => hc x (List.mem_cons_of_mem c hx)
    rw [digitsNat, List.length_cons, two_pow_mul_succ]
    calc c + 2 ^ b * digitsNat b cs
        < 2 ^ b * (digitsNat b cs + 1) := by rw [Nat.mul_succ]; omega
      _ ≤ 2 ^ b * 2 ^ (b * cs.length) := Nat.mul_le_mul_left _ hrest

/-- Each digit is read by a shift and a mask. -/
theorem digitsNat_digit (b : Nat) (cs : List Nat) (hc : ∀ c ∈ cs, c < 2 ^ b) (i : Nat) (hi : i < cs.length) :
    digitsNat b cs / 2 ^ (b * i) % 2 ^ b = cs[i] := by
  induction cs generalizing i with
  | nil => exact absurd hi (Nat.not_lt_zero i)
  | cons c cs ih =>
    have hfirst : c < 2 ^ b := hc c List.mem_cons_self
    cases i with
    | zero =>
      rw [digitsNat, Nat.mul_zero, Nat.pow_zero, Nat.div_one, Nat.add_mul_mod_self_left, Nat.mod_eq_of_lt hfirst]
      rfl
    | succ i =>
      rw [digitsNat, two_pow_mul_succ, ← Nat.div_div_eq_div_mul, Nat.add_mul_div_left _ _ (Nat.two_pow_pos b),
        Nat.div_eq_of_lt hfirst, Nat.zero_add]
      exact ih (fun x hx => hc x (List.mem_cons_of_mem c hx)) i (Nat.lt_of_succ_lt_succ hi)

/-! ### Bytes as a little-endian number -/

theorem leNat_eq_digitsNat (bs : List Byte) : leNat bs = digitsNat 8 (bs.map (·.toNat)) := by
  induction bs with
  | nil => rfl
  | cons b bs ih => exact congrArg (b.toNat + 256 * ·) ih

theorem leNat_append (xs ys : List Byte) : leNat (xs ++ ys) = leNat xs + 2 ^ (8 * xs.length) * leNat ys := by
  rw [leNat_eq_digitsNat, leNat_eq_digitsNat, leNat_eq_digitsNat, List.map_append, digitsNat_append, List.length_map]

theorem leNat_lt (bs : List Byte) : leNat bs < 2 ^ (8 * bs.length) := by
  have hbyte : ∀ c ∈ bs.map (·.toNat), c < 2 ^ 8 := fun c hc => by
    obtain ⟨b, _, rfl⟩ := List.mem_map.1 hc
    exact b.isLt
  have := digitsNat_lt 8 _ hbyte
  rwa [← leNat_eq_digitsNat, List.length_map] at this

/-- The low bits of a run that begins with `xs`: all of `xs`, then the low bits of the rest. -/
theorem leNat_append_mod (xs ys : List Byte) (n : Nat) :
    leNat (xs ++ ys) % 2 ^ (8 * xs.length + n) = leNat xs + 2 ^ (8 * xs.length) * (leNat ys % 2 ^ n) := by
  have hlt := leNat_lt xs
  rw [leNat_append, Nat.pow_add, Nat.mod_mul, Nat.add_mul_mod_self_left, Nat.add_mul_div_left _ _ (Nat.two_pow_pos _),
    Nat.div_eq_of_lt hlt, Nat.mod_eq_of_lt hlt, Nat.zero_add]

@[simp] theorem natLe_length (n w : Nat) : (natLe n w).length = n := by
  induction n generalizing w with
  | zero => rfl
  | succ n ih => rw [natLe, List.length_cons, ih]

theorem leNat_natLe (n w : Nat) : leNat (natLe n w) = w % 2 ^ (8 * n) := by
  induction n generalizing w with
  | zero => exact (Nat.mod_one w).symm
  | succ n ih =>
    calc leNat (natLe (n + 1) w)
        = w % 2 ^ 8 + 2 ^ 8 * (w / 2 ^ 8 % 2 ^ (8 * n)) := congrArg (w % 2 ^ 8 + 2 ^ 8 * ·) (ih (w / 256))
      _ = w % (2 ^ 8 * 2 ^ (8 * n)) := Nat.mod_mul.symm
      _ = w % 2 ^ (8 * (n + 1)) := congrArg (w % ·) (two_pow_mul_succ 8 n).symm

@[simp] theorem Memory.read_length (m : Memory) (a n : Nat) : (m.read a n).length = n := by
  induction n generalizing a with
  | zero => rfl
  | succ n ih => rw [Memory.read, List.length_cons, ih]

theorem Memory.read_add (m : Memory) (a j k : Nat) : m.read a (j + k) = m.read a j ++ m.read (a + j) k := by
  induction j generalizing a with
  | zero => rw [Nat.zero_add, Memory.read, List.nil_append, Nat.add_zero]
  | succ j ih =>
    rw [Nat.succ_add, Memory.read, ih, Memory.read, List.cons_append, Nat.add_assoc a 1 j, Nat.add_comm 1 j]

theorem Memory.read_getElem (m : Memory) (a n i : Nat) (hi : i < (m.read a n).length) : (m.read a n)[i] = m.byte (a + i) := by
  induction n generalizing a i with
  | zero => exact absurd hi (Nat.not_lt_zero i)
  | succ n ih =>
    cases i with
    | zero => rfl
    | succ i =>
      have := ih (a + 1) i (Nat.lt_of_succ_lt_succ hi)
      rwa [Nat.add_assoc, Nat.add_comm 1 i] at this

/-- The bytes of a write read back as one list. -/
theorem Memory.read_write_self (m : Memory) (a : Nat) (bs : List Byte) (p : Bool) : (m.write a bs p).read a bs.length = bs := by
  refine List.ext_getElem (Memory.read_length _ a bs.length) fun i _ hi => ?_
  rw [Memory.read_getElem, Memory.byte_write, Memory.byte_writeBytes m a bs i hi]

/-! ### An element is a slice of any run that holds it -/

theorem Memory.le_add (m : Memory) (a j k : Nat) : m.le a (j + k) = m.le a j + 2 ^ (8 * j) * m.le (a + j) k := by
  rw [Memory.le, Memory.read_add, leNat_append, Memory.read_length]
  rfl

theorem Memory.le_lt (m : Memory) (a n : Nat) : m.le a n < 2 ^ (8 * n) := by
  have := leNat_lt (m.read a n)
  rwa [Memory.read_length] at this

theorem Memory.le_div (m : Memory) (a j k : Nat) : m.le a (j + k) / 2 ^ (8 * j) = m.le (a + j) k := by
  rw [Memory.le_add, Nat.add_mul_div_left _ _ (Nat.two_pow_pos _), Nat.div_eq_of_lt (m.le_lt a j), Nat.zero_add]

theorem Memory.le_mod (m : Memory) (a j k : Nat) : m.le a (j + k) % 2 ^ (8 * j) = m.le a j := by
  rw [Memory.le_add, Nat.add_mul_mod_self_left, Nat.mod_eq_of_lt (m.le_lt a j)]

theorem elemAt_eq (m : Memory) (a fmt i : Nat) (hb : 0 < fmtBits fmt) :
    elemAt m a fmt i = m.le (a + fmtBits fmt * i / 8) (ceilDiv (fmtBits fmt * i % 8 + fmtBits fmt) 8) /
      2 ^ (fmtBits fmt * i % 8) % 2 ^ fmtBits fmt :=
  fld_eq_div_mod _ _ _ hb

/-- Element `i`, `s` bits into the bytes from the run's byte `p` on, is the slice at `s` of any `n` of those bytes that hold it. -/
theorem elemAt_eq_slice (m : Memory) (a fmt i p n s : Nat) (hb : 0 < fmtBits fmt) (hs : fmtBits fmt * i = 8 * p + s)
    (hn : s + fmtBits fmt ≤ 8 * n) : elemAt m a fmt i = m.le (a + p) n / 2 ^ s % 2 ^ fmtBits fmt := by
  rw [elemAt_eq m a fmt i hb, hs]
  generalize fmtBits fmt = b at *
  have hbyte : (8 * p + s) / 8 = p + s / 8 := by omega
  have hbit : (8 * p + s) % 8 = s % 8 := by omega
  rw [hbyte, hbit]
  obtain ⟨k, hk⟩ : ∃ k, k = ceilDiv (s % 8 + b) 8 := ⟨_, rfl⟩
  rw [← hk]
  rw [ceilDiv] at hk
  obtain ⟨r, rfl⟩ : ∃ r, n = s / 8 + (k + r) := ⟨n - s / 8 - k, by omega⟩
  have hpow : 2 ^ s = 2 ^ (8 * (s / 8)) * 2 ^ (s % 8) := by rw [← Nat.pow_add, Nat.div_add_mod]
  rw [hpow, ← Nat.div_div_eq_div_mul, Memory.le_div, Nat.add_assoc]
  refine div_mod_of_mod_eq (q := 8 * k) (by omega) ?_
  rw [Memory.le_mod, Nat.mod_eq_of_lt (m.le_lt _ k)]

/-! ### A packed run is the number whose digits are its codes -/

/-- The sum that packing forms, element by element. -/
theorem packFold_eq_digitsNat (b : Nat) (g : List Nat) (v o : Nat) :
    (g.foldl (fun (p : Nat × Nat) c => (p.1 + c * 2 ^ p.2, p.2 + b)) (v, o)).1 = v + 2 ^ o * digitsNat b g := by
  induction g generalizing v o with
  | nil => exact (Nat.add_zero v).symm
  | cons c g ih =>
    rw [List.foldl_cons, ih, digitsNat, Nat.pow_add, Nat.mul_add, Nat.mul_comm c, Nat.add_assoc, Nat.mul_assoc]

theorem packedBytes_zero (fmt : Nat) : packedBytes fmt 0 = 0 := by
  rw [packedBytes, Nat.zero_mul]
  decide

theorem packOne_length (fmt : Nat) (old : Byte) (g : List Nat) : (packOne fmt old g).length = packedBytes fmt g.length :=
  natLe_length _ _

/-- The codes are the low bits of one group's bytes; the spare bits of the last byte lie above them. -/
theorem leNat_packOne_mod (fmt : Nat) (old : Byte) (g : List Nat) (hg : ∀ c ∈ g, c < 2 ^ fmtBits fmt) :
    leNat (packOne fmt old g) % 2 ^ (fmtBits fmt * g.length) = digitsNat (fmtBits fmt) g := by
  have hlt := digitsNat_lt (fmtBits fmt) g hg
  simp only [packOne, leNat_natLe, packFold_eq_digitsNat, Nat.zero_add, Nat.pow_zero, Nat.one_mul]
  generalize fmtBits fmt = b at *
  generalize hV : digitsNat b g = v at *
  rw [Nat.mul_comm g.length b]
  generalize b * g.length = t at *
  have hdvd : 2 ^ t ∣ 2 ^ (8 * ceilDiv t 8) := Nat.pow_dvd_pow 2 (by unfold ceilDiv; omega)
  rw [Nat.mod_mod_of_dvd _ hdvd]
  split
  · exact Nat.mod_eq_of_lt hlt
  · rename_i hspare
    rw [show t % 8 + 8 * (ceilDiv t 8 - 1) = t by unfold ceilDiv; omega, Nat.add_mul_mod_self_right, Nat.mod_eq_of_lt hlt]

/-! ### Cutting into groups -/

/-- Any fuel from the length on cuts the whole list. -/
theorem chunksAux_eq_of_length_le {α : Type} (n : Nat) (hn : 0 < n) (f₁ f₂ : Nat) (l : List α) (h₁ : l.length ≤ f₁) (h₂ : l.length ≤ f₂) :
    chunksAux n f₁ l = chunksAux n f₂ l := by
  induction f₁ generalizing f₂ l with
  | zero =>
    obtain rfl : l = [] := List.length_eq_zero_iff.1 (by omega)
    cases f₂ <;> rfl
  | succ f₁ ih =>
    cases l with
    | nil => cases f₂ <;> rfl
    | cons x l =>
      rw [List.length_cons] at h₁ h₂
      obtain ⟨f₂, rfl⟩ : ∃ f, f₂ = f + 1 := ⟨f₂ - 1, by omega⟩
      have hdrop : ((x :: l).drop n).length ≤ l.length := by
        rw [List.length_drop, List.length_cons]
        omega
      exact congrArg ((x :: l).take n :: ·) (ih f₂ _ (by omega) (by omega))

theorem chunks_of_ne_nil {α : Type} (n : Nat) (hn : 0 < n) (l : List α) (hl : l ≠ []) :
    chunks n l = l.take n :: chunks n (l.drop n) := by
  cases l with
  | nil => exact absurd rfl hl
  | cons x l =>
    have hdrop : ((x :: l).drop n).length ≤ l.length := by
      rw [List.length_drop, List.length_cons]
      omega
    exact congrArg ((x :: l).take n :: ·) (chunksAux_eq_of_length_le n hn _ _ _ hdrop (Nat.le_refl _))

theorem packElems_nil (fmt : Nat) (old : Byte) : packElems fmt old [] = [] := rfl

/-- The first group, then the rest. -/
theorem packElems_of_ne_nil (fmt : Nat) (old : Byte) (codes : List Nat) (hk : 0 < packGroup fmt) (hc : codes ≠ []) :
    packElems fmt old codes = packOne fmt old (codes.take (packGroup fmt)) ++ packElems fmt old (codes.drop (packGroup fmt)) := by
  rw [packElems, chunks_of_ne_nil _ hk codes hc, List.map_cons, List.flatten_cons]
  rfl

@[simp] theorem packOne_nil (fmt : Nat) (old : Byte) : packOne fmt old [] = [] := by
  have hlen : (packOne fmt old []).length = 0 := (packOne_length fmt old []).trans (packedBytes_zero fmt)
  exact List.length_eq_zero_iff.1 hlen

/-- A run of at most one group. -/
theorem packElems_of_length_le (fmt : Nat) (old : Byte) (codes : List Nat) (hk : 0 < packGroup fmt)
    (hl : codes.length ≤ packGroup fmt) : packElems fmt old codes = packOne fmt old codes := by
  by_cases hc : codes = []
  · rw [hc, packElems_nil, packOne_nil]
  · rw [packElems_of_ne_nil fmt old codes hk hc, List.take_of_length_le hl, List.drop_of_length_le hl, packElems_nil, List.append_nil]

/-! ### A packed run -/

/-- A format whose groups are whole bytes: every group but the last of a run ends where the next begins. -/
def WholeGroups (fmt : Nat) : Prop := 0 < fmtBits fmt ∧ 0 < packGroup fmt ∧ 8 ∣ fmtBits fmt * packGroup fmt

theorem wholeGroups_of_narrow : ∀ fmt ∈ [5, 6, 7, 9], WholeGroups fmt := by
  unfold WholeGroups
  decide

/-- Elements that fill whole bytes take exactly those, and any further ones take what they would take alone. -/
theorem packedBytes_add_of_whole (fmt k n w : Nat) (hw : fmtBits fmt * k = 8 * w) : packedBytes fmt (k + n) = w + packedBytes fmt n := by
  have : (k + n) * fmtBits fmt = 8 * w + n * fmtBits fmt := by rw [Nat.add_mul, Nat.mul_comm k, hw]
  simp only [packedBytes, ceilDiv]
  omega

/-- A group that fills its bytes is the number of its codes. -/
theorem leNat_packOne_of_whole (fmt : Nat) (old : Byte) (g : List Nat) (w : Nat) (hg : ∀ c ∈ g, c < 2 ^ fmtBits fmt)
    (hw : fmtBits fmt * g.length = 8 * w) :
    (packOne fmt old g).length = w ∧ leNat (packOne fmt old g) = digitsNat (fmtBits fmt) g := by
  have hlen : (packOne fmt old g).length = w := by
    rw [packOne_length, ← Nat.add_zero g.length, packedBytes_add_of_whole fmt _ 0 w hw]
    rw [packedBytes_zero, Nat.add_zero]
  have hlt := leNat_lt (packOne fmt old g)
  rw [hlen, ← hw] at hlt
  exact ⟨hlen, by rw [← leNat_packOne_mod fmt old g hg, Nat.mod_eq_of_lt hlt]⟩

/-- A packed run takes its elements' whole bytes, and its low bits are the number whose digits are the codes: group by
group, a group of whole bytes and then the rest of the run. -/
theorem packElems_spec (fmt : Nat) (old : Byte) (hw : WholeGroups fmt) (codes : List Nat) (hc : ∀ c ∈ codes, c < 2 ^ fmtBits fmt) :
    (packElems fmt old codes).length = packedBytes fmt codes.length ∧
    leNat (packElems fmt old codes) % 2 ^ (fmtBits fmt * codes.length) = digitsNat (fmtBits fmt) codes := by
  obtain ⟨-, hk, w, hkw⟩ := hw
  induction hn : codes.length using Nat.strongRecOn generalizing codes with
  | ind n ih =>
    subst hn
    by_cases hl : codes.length ≤ packGroup fmt
    · rw [packElems_of_length_le fmt old codes hk hl]
      exact ⟨packOne_length fmt old codes, leNat_packOne_mod fmt old codes hc⟩
    · obtain ⟨g, rest, rfl, hg⟩ : ∃ g rest, codes = g ++ rest ∧ g.length = packGroup fmt :=
        ⟨_, _, (List.take_append_drop (packGroup fmt) codes).symm, List.length_take_of_le (by omega)⟩
      rw [← hg] at hkw hk
      have hne : g ++ rest ≠ [] := List.append_ne_nil_of_left_ne_nil (List.ne_nil_of_length_pos hk) rest
      have hshorter : rest.length < (g ++ rest).length := by
        rw [List.length_append]
        omega
      have hcut : packElems fmt old (g ++ rest) = packOne fmt old g ++ packElems fmt old rest := by
        rw [packElems_of_ne_nil fmt old _ (hg ▸ hk) hne, List.take_left' hg, List.drop_left' hg]
      obtain ⟨hlen, hval⟩ := leNat_packOne_of_whole fmt old g w (fun c h => hc c (List.mem_append_left rest h)) hkw
      obtain ⟨hlen', hval'⟩ := ih rest.length hshorter rest (fun c h => hc c (List.mem_append_right g h)) rfl
      rw [hcut, List.length_append, List.length_append, hlen, hlen', packedBytes_add_of_whole fmt _ _ w hkw]
      have hbits : fmtBits fmt * (g.length + rest.length) = 8 * (packOne fmt old g).length + fmtBits fmt * rest.length := by
        rw [hlen, Nat.mul_add, hkw]
      refine ⟨rfl, ?_⟩
      rw [hbits, leNat_append_mod, hval, hval', hlen, ← hkw, digitsNat_append]

/-- Each element of a stored run reads back as its code. -/
theorem elemAt_write_packElems (m : Memory) (a fmt : Nat) (old : Byte) (codes : List Nat) (p : Bool) (hw : WholeGroups fmt)
    (hc : ∀ c ∈ codes, c < 2 ^ fmtBits fmt) (i : Nat) (hi : i < codes.length) :
    elemAt (m.write a (packElems fmt old codes) p) a fmt i = codes[i] := by
  obtain ⟨hlen, hval⟩ := packElems_spec fmt old hw codes hc
  have hend : fmtBits fmt * i + fmtBits fmt ≤ fmtBits fmt * codes.length := Nat.mul_le_mul_left (fmtBits fmt) hi
  have hbytes : fmtBits fmt * codes.length ≤ 8 * (packElems fmt old codes).length := by
    rw [hlen, Nat.mul_comm, packedBytes, ceilDiv]
    omega
  have hdigits : leNat (packElems fmt old codes) % 2 ^ (fmtBits fmt * codes.length) =
      digitsNat (fmtBits fmt) codes % 2 ^ (fmtBits fmt * codes.length) := by
    rw [← hval, Nat.mod_mod]
  calc elemAt (m.write a (packElems fmt old codes) p) a fmt i
      = leNat (packElems fmt old codes) / 2 ^ (fmtBits fmt * i) % 2 ^ fmtBits fmt := by
        rw [elemAt_eq_slice _ a fmt i 0 (packElems fmt old codes).length _ hw.1 (Nat.zero_add _).symm (by omega), Memory.le,
          Nat.add_zero, Memory.read_write_self]
    _ = digitsNat (fmtBits fmt) codes / 2 ^ (fmtBits fmt * i) % 2 ^ fmtBits fmt := div_mod_of_mod_eq hend hdigits
    _ = codes[i] := digitsNat_digit _ codes hc i hi

/-! ### Where an element stands (R47) -/

/-- Four-bit elements stand in pairs, the even one in the low half of the byte. -/
theorem elemAt_pair (m : Memory) (a fmt i : Nat) (hb : fmtBits fmt = 4) :
    elemAt m a fmt (2 * i) = (m.byte (a + i)).toNat % 16 ∧ elemAt m a fmt (2 * i + 1) = (m.byte (a + i)).toNat / 16 := by
  have hle : m.le (a + i) 1 = (m.byte (a + i)).toNat := Nat.add_zero _
  rw [elemAt_eq_slice m a fmt (2 * i) i 1 0 (by omega) (by rw [hb]; omega) (by omega),
    elemAt_eq_slice m a fmt (2 * i + 1) i 1 4 (by omega) (by rw [hb]; omega) (by omega), hle, hb]
  have := (m.byte (a + i)).isLt
  omega

/-- Six-bit elements stand in fours, in three bytes read as one little-endian number. -/
theorem elemAt_triple (m : Memory) (a fmt g j : Nat) (hb : fmtBits fmt = 6) (hj : j < 4) :
    elemAt m a fmt (4 * g + j) = ((m.byte (a + 3 * g)).toNat + (m.byte (a + 3 * g + 1)).toNat * 2 ^ 8 +
      (m.byte (a + 3 * g + 2)).toNat * 2 ^ 16) / 2 ^ (6 * j) % 64 := by
  have hle : m.le (a + 3 * g) 3 = (m.byte (a + 3 * g)).toNat + (m.byte (a + 3 * g + 1)).toNat * 2 ^ 8 +
      (m.byte (a + 3 * g + 2)).toNat * 2 ^ 16 := by
    simp only [Memory.le, Memory.read, leNat, Nat.add_assoc, Nat.reduceAdd]
    omega
  have hslice := elemAt_eq_slice m a fmt (4 * g + j) (3 * g) 3 (6 * j) (by omega) (by rw [hb]; omega) (by omega)
  rw [hle, hb] at hslice
  exact hslice

end Sys2Proof.Machine

open Sys2Proof.Machine
namespace Sys2Proof

/-- Settles O60: each element is a slice of the little-endian number of its bytes, and a packed run is the number whose
digits are its codes. -/
theorem narrowElementsArePackedDensely : Obligations.NarrowElementsArePackedDensely := by
  have hfour : ∀ fmt ∈ [7, 9], fmtBits fmt = 4 := by decide
  have hsix : ∀ fmt ∈ [5, 6], fmtBits fmt = 6 := by decide
  refine ⟨fun m a i fmt hf => elemAt_pair m a fmt i (hfour fmt hf), fun m a g j hj fmt hf => elemAt_triple m a fmt g j (hsix fmt hf) hj,
    fun m a old codes p fmt hf hc => ?_⟩
  have hw := wholeGroups_of_narrow fmt hf
  exact ⟨(packElems_spec fmt old hw codes hc).1, elemAt_write_packElems m a fmt old codes p hw hc⟩

end Sys2Proof
end

section
/-! PROOFS. Engine operations issue (R97, R98). What the sequencer does at an instruction of each engine is said once for all
rows of that engine; an operation with room then takes its scoreboard entry, and the plan goes on without completing, since
the board is not empty. -/

namespace Sys2Proof.Machine

/-! ### The rows of an engine -/

/-- A core's command does its work at an instruction of its own that may issue. -/
theorem onDev_seqStep_at {s : State} {c : Nat} {r : PlanRun} {i : SeqInstr} (h : s.SeqAt c r i) {mine : SeqInstr → Bool}
    (hm : mine i = true) (f : Dev → PlanRun → SeqInstr → Dev) :
    onDev s (fun clk d => d.seqStep clk c mine f) = .next { s with dev := f s.dev r i } := by
  rw [onDev_on h.on, Dev.seqStep_at h, if_pos hm]

/-- The VECTOR rows differ in their operation code alone. -/
theorem exec_vectorRow (c : CoreId) (s : State) : ∀ x ∈ vectorRows, exec (x.1 c) s =
    onDev s fun clk d => d.seqStep clk c.val (fun i => i.op = 2 && fld i.body 255 248 = x.2) fun d r i => d.issueVector c.val r i :=
  List.map_inj_left.mp rfl

/-- The SPARSE rows differ in their operation code alone. -/
theorem exec_sparseRow (c : CoreId) (s : State) : ∀ x ∈ sparseRows, exec (x.1 c) s =
    onDev s fun clk d => d.seqStep clk c.val (fun i => i.op = 3 && fld i.body 255 248 = x.2) fun d r i => d.issueSparse c.val r i :=
  List.map_inj_left.mp rfl

theorem exec_vectorRow_at {s : State} {c : CoreId} {r : PlanRun} {i : SeqInstr} (h : s.SeqAt c.val r i) (op : i.op = 2)
    {x : (CoreId → Instr) × Nat} (hx : x ∈ vectorRows) (code : fld i.body 255 248 = x.2) :
    exec (x.1 c) s = .next { s with dev := s.dev.issueVector c.val r i } := by
  rw [exec_vectorRow c s x hx, onDev_seqStep_at h (by simp [op, code])]

theorem exec_sparseRow_at {s : State} {c : CoreId} {r : PlanRun} {i : SeqInstr} (h : s.SeqAt c.val r i) (op : i.op = 3)
    {x : (CoreId → Instr) × Nat} (hx : x ∈ sparseRows) (code : fld i.body 255 248 = x.2) :
    exec (x.1 c) s = .next { s with dev := s.dev.issueSparse c.val r i } := by
  rw [exec_sparseRow c s x hx, onDev_seqStep_at h (by simp [op, code])]

theorem exec_array_at {s : State} {c : CoreId} {r : PlanRun} {i : SeqInstr} (h : s.SeqAt c.val r i) (op : i.op = 1) :
    exec (.array c) s = .next { s with dev := s.dev.issueArray c.val r i } :=
  onDev_seqStep_at h (mine := fun i => i.op = 1) (decide_eq_true op) fun d r i => d.issueArray c.val r i

/-! ### A scoreboard entry is taken -/

/-- With an operation on its core's board a plan goes on behind its instruction, and does not complete (R95). -/
theorem Dev.advance_board {d : Dev} {c : Nat} {r : PlanRun} (i : SeqInstr) (run : (d.core c).run = some r)
    (board : (d.core c).board ≠ []) : d.advance c i = (d.afterFetch c r).goesOn c (r.after i) := by
  rw [Dev.advance_passed i run]
  refine Dev.settle_board ?_
  obtain ⟨l, hcore⟩ := (d.loaded_cachesOnly (whoSeq c r) ((r.va + 40 * r.pc) % 2 ^ 48) 40).2 c
  rw [Dev.core_goesOn_self, Dev.afterFetch, hcore]
  exact board

/-- An engine operation with room takes the free entry, where what the engine keeps on the core is not its plan. -/
theorem Dev.boardIssue_room {d : Dev} {c slot : Nat} {r : PlanRun} (i : SeqInstr) {e : EngineKind} {out : EngOut} {keep : Core → Core}
    (run : (d.core c).run = some r) (hr : (d.core c).RoomFor e out slot) (hk : ∀ co, (keep co).run = co.run) :
    d.boardIssue c r i e out keep = d.onBoard c r i ⟨slot, e, r.ctx, out, i.body, d.freeCtr⟩ keep := by
  simp only [Dev.boardIssue, hr.room, hr.free, hr.phase, Bool.not_true, Bool.false_eq_true, if_false]
  refine Dev.advance_board i ?_ ?_
  · rw [Dev.core_updCore_self]
    exact (hk _).trans run
  · rw [Dev.core_updCore_self]
    exact List.append_ne_nil_of_right_ne_nil _ (List.cons_ne_nil _ _)

/-! ### Accepted operations reach the board -/

theorem Core.RoomFor.isNone_boardRoom {co : Core} {e : EngineKind} {out : EngOut} {slot : Nat} (h : co.RoomFor e out slot) :
    (co.boardRoom e).isNone = false := by
  rw [h.room, Option.isNone_some]

theorem Dev.issueVector_onBoard {d : Dev} {c slot : Nat} {r : PlanRun} {i : SeqInstr} {out : EngOut} (run : (d.core c).run = some r)
    (ok : vectorIssue d.mem c (d.ctx r.ctx).srSeed d.freeCtr (VectorOp.ofBody i.body) = .ok out)
    (room : (d.core c).RoomFor .vector out slot) :
    d.issueVector c r i = d.onBoard c r i ⟨slot, .vector, r.ctx, out, i.body, d.freeCtr⟩ id := by
  rw [Dev.issueVector, ok]
  exact Dev.boardIssue_room i run room fun _ => rfl

theorem Dev.issueArray_onBoard {d : Dev} {c slot : Nat} {r : PlanRun} {i : SeqInstr} {op : ArrayOp} {rects : List Rect} {out : EngOut}
    (run : (d.core c).run = some r) (body : ArrayOp.ofBody i.body = op) (kept : arrayReject op = none)
    (ready : (d.core c).hazard (boundRange (arrayRanges op op.kPass (!op.reuse)).1) (arrayRanges op op.kPass (!op.reuse)).2 = false)
    (ok : arrayIssue d.mem c d.freeCtr (d.core c).rects op = .ok (rects, out)) (room : (d.core c).RoomFor .array out slot) :
    d.issueArray c r i = d.onBoard c r i ⟨slot, .array, r.ctx, out, i.body, d.freeCtr⟩ fun co => { co with rects := rects } := by
  subst body
  simp only [Dev.issueArray, kept, room.isNone_boardRoom, ready, ok, Bool.or_self, Bool.false_eq_true, if_false]
  exact Dev.boardIssue_room i run room fun _ => rfl

theorem Dev.issueSparse_onBoard {d : Dev} {c slot : Nat} {r : PlanRun} {i : SeqInstr} {rects : List Rect} {ses : Option AccSession}
    {out : EngOut} (run : (d.core c).run = some r)
    (ready : ∀ x ∈ sparseReads d.mem c (SparseOp.ofBody i.body), (d.core c).hazard x (0, 0) = false)
    (ok : sparseIssue d.mem c d.freeCtr (d.core c).rects (d.core c).session (SparseOp.ofBody i.body) = .ok (rects, ses, out))
    (room : (d.core c).RoomFor .sparse out slot) :
    d.issueSparse c r i = d.onBoard c r i ⟨slot, .sparse, r.ctx, out, i.body, d.freeCtr⟩ fun co =>
      { co with rects := rects, session := ses } := by
  have waits : ((sparseReads d.mem c (SparseOp.ofBody i.body)).any fun x => (d.core c).hazard x (0, 0)) = false := by
    simpa using ready
  simp only [Dev.issueSparse, room.isNone_boardRoom, waits, ok, Bool.or_self, Bool.false_eq_true, if_false]
  exact Dev.boardIssue_room i run room fun _ => rfl

end Sys2Proof.Machine

open Sys2Proof.Machine
namespace Sys2Proof

/-- Settles O15: each row does its engine's issue, an accepted operation goes to the board, and one with room stands there
with its plan behind it. -/
theorem engineOperationsIssue : Obligations.EngineOperationsIssue := by
  refine ⟨fun s c r i out slot hs op ok room x hx code => ?_, fun s c r i rects out slot hs op kept ready ok room => ?_,
    fun s c r i rects ses out slot hs op ready ok room x hx code => ?_⟩
  · rw [exec_vectorRow_at hs op hx code, Dev.issueVector_onBoard hs.run ok room]
  · rw [exec_array_at hs op, Dev.issueArray_onBoard hs.run rfl kept ready ok room]
  · rw [exec_sparseRow_at hs op hx code, Dev.issueSparse_onBoard hs.run ready ok room]

end Sys2Proof
end

section
/-! PROOFS. The scoreboards under the pumps (R97, R201, R208). The pumps run after whatever may let a stream move on. They reach far, into
the fabric, the pools, the queues and the plans, and change cores; what a core's board holds they leave alone. -/

namespace Sys2Proof.Machine

/-! ### What the fabric does leaves the cores alone (R268, R291, R303, R310, R336) -/

theorem Dev.foldl_cores {α : Type} {step : Dev → α → Dev} (h : ∀ d x, (step d x).cores = d.cores) (xs : List α) (d : Dev) :
    (xs.foldl step d).cores = d.cores := by
  induction xs generalizing d with
  | nil => rfl
  | cons x xs ih => rw [List.foldl_cons, ih, h]

theorem Dev.sameBut.cores_eq {d d' : Dev} (h : d.sameBut d') : d'.cores = d.cores := by
  obtain ⟨_, _, rfl⟩ := h
  rfl

@[simp] theorem Dev.countStatus_cores (d : Dev) (st : Status) : (d.countStatus st).cores = d.cores := (d.countStatus_same st).cores_eq
@[simp] theorem Dev.raiseAt_cores (d : Dev) (k : Nat) (st : Status) (x : Nat) (y : UnitKind) (z : Nat) :
    (d.raiseAt k st x y z).cores = d.cores := (d.raiseAt_same k st x y z).cores_eq
@[simp] theorem Dev.raise_cores (d : Dev) (k : Nat) (st : Status) : (d.raise k st).cores = d.cores := (d.raiseAt_same k st _ _ _).cores_eq
@[simp] theorem Dev.unreachable_cores (d : Dev) (k : Nat) : (d.unreachable k).cores = d.cores := d.raise_cores k _

@[simp] theorem Dev.planStatus_cores (d : Dev) (r : PlanRun) (st : Status) : (d.planStatus r st).cores = d.cores := rfl
@[simp] theorem Dev.cmdWork_cores (d : Dev) (id : Nat) : (d.cmdWork id).cores = d.cores := rfl
@[simp] theorem Dev.cmdIssue_cores (d : Dev) (id : Nat) : (d.cmdIssue id).cores = d.cores := rfl
@[simp] theorem Dev.cmdFault_cores (d : Dev) (id k : Nat) (st : Status) (x : Nat) : (d.cmdFault id k st x).cores = d.cores := by
  simp [Dev.cmdFault]

@[simp] theorem Dev.frameOut_cores (d : Dev) (l port : Nat) (p : Sent) (b : Bool) : (d.frameOut l port p b).cores = d.cores := by
  unfold Dev.frameOut
  simp only
  split
  · refine (Dev.bump_cores _ _ _ _ _).trans ?_
    exact (Dev.foldl_cores (fun _ _ => by rfl) _ _).trans (Dev.setLink_cores _ _ _)
  · exact (Dev.foldl_cores (fun _ _ => by rfl) _ _).trans (Dev.setLink_cores _ _ _)

@[simp] theorem Dev.flushQueue_cores (l : Nat) (xs : List (Nat × Sent)) (d : Dev) : (Dev.flushQueue l xs d).cores = d.cores := by
  induction xs generalizing d with
  | nil => rfl
  | cons x xs ih =>
    unfold Dev.flushQueue
    simp only
    split
    · simp [ih]
    · split <;> simp [ih]

@[simp] theorem Dev.flushLink_cores (d : Dev) (l : Nat) : (d.flushLink l).cores = d.cores := by simp [Dev.flushLink]

@[simp] theorem Dev.sendOn_cores (d : Dev) (l : Nat) (p : Sent) : (d.sendOn l p).cores = d.cores := by
  unfold Dev.sendOn
  simp only
  split <;> simp

@[simp] theorem Dev.regulate_cores (d : Dev) (l : Nat) (p : Sent) : (d.regulate l p).cores = d.cores := by
  unfold Dev.regulate Dev.regPass
  simp only
  split
  · simp
  · split <;> simp

@[simp] theorem Dev.shape_cores (d : Dev) (x : Shaped) : (d.shape x).cores = d.cores := by
  unfold Dev.shape
  simp only
  split
  · simp
  · split
    · simp
    · split <;> simp

@[simp] theorem Dev.ownNoRoute_cores (d : Dev) (h : Nat) : (d.ownNoRoute h).cores = d.cores := by
  unfold Dev.ownNoRoute
  split <;> simp

@[simp] theorem Dev.launch_cores (d : Dev) (p : Sent) (dest : Nat) : (d.launch p dest).1.cores = d.cores := by
  unfold Dev.launch
  split
  · simp
  · split
    · simp
    · split <;> simp
    · simp

@[simp] theorem Dev.sendTo_cores (d : Dev) (c : Clock) (k : Option Nat) (part dest e2e : Nat) (x : Content) :
    (d.sendTo c k part dest e2e x).1.cores = d.cores := by simp [Dev.sendTo]

@[simp] theorem Dev.sendSlot_cores (d : Dev) (c : Clock) (k : Option Nat) (part slot dest e2e : Nat) (x : Content) :
    (d.sendSlot c k part slot dest e2e x).1.cores = d.cores := by simp [Dev.sendSlot]

@[simp] theorem Dev.takeE2e_cores (d : Dev) (g : Nat) : (d.takeE2e g).1.cores = d.cores := rfl
@[simp] theorem Dev.addReq_cores (d : Dev) (r : Req) : (d.addReq r).cores = d.cores := rfl

/-- A request of this device goes by GEID or by slot. -/
theorem Dev.sent_cores (d : Dev) (b : Bool) (c : Clock) (k : Option Nat) (part slot dest e2e : Nat) (x : Content) :
    (if b then d.sendTo c k part dest e2e x else d.sendSlot c k part slot dest e2e x).1.cores = d.cores := by
  cases b with
  | true => rw [if_pos rfl, Dev.sendTo_cores]
  | false => rw [if_neg Bool.false_ne_true, Dev.sendSlot_cores]

/-- A request that has been handed to the fabric is recorded where it found a route. -/
theorem Dev.recorded_cores {d : Dev} {x : Dev × Bool} (r : Req) (n : Nat) (h : x.1.cores = d.cores) :
    (if x.2 then (x.1.addReq r, some n) else (x.1, none)).1.cores = d.cores := by
  split <;> exact h

@[simp] theorem Dev.request_cores (d : Dev) (c : Clock) (w : Who) (o : ReqOwner) (f : Frame) (seq : Nat) (k : MemReqKind) :
    (d.request c w o f seq k).1.cores = d.cores := by
  unfold Dev.request
  split
  · exact d.bump_cores _ _ _ _
  · exact Dev.recorded_cores _ _ ((Dev.sent_cores (d.takeE2e _).1 _ _ _ _ _ _ _ _).trans (d.takeE2e_cores _))

/-- A bulk transfer that has been handed to the fabric is recorded where it found a route, and given up where it found none. -/
theorem Dev.transferred_cores {d : Dev} {x : Dev × Bool} (h : x.1.cores = d.cores) (bs : List SentBulk) (rs : List Req)
    (i j e n k : Nat) (st : Status) :
    (if x.2 then ({ x.1 with sentBulks := bs } : Dev).bump i j e n else ({ x.1 with reqs := rs } : Dev).raise k st).cores = d.cores := by
  split
  · exact h
  · exact (Dev.raise_cores _ _ _).trans h

@[simp] theorem Dev.pumpBulks_cores (d : Dev) (c : Clock) : (d.pumpBulks c).cores = d.cores := by
  refine Dev.foldl_cores (fun d b => ?_) _ d
  simp only
  split
  · rfl
  · refine Dev.transferred_cores ?_ _ _ _ _ _ _ _ _
    rw [Dev.sendTo_cores]
    rfl

@[simp] theorem Dev.closeBulks_cores (d : Dev) (c : Clock) (p : OpenBulk → Bool) : (d.closeBulks c p).cores = d.cores := by
  simp [Dev.closeBulks]

@[simp] theorem Dev.closeFor_cores (d : Dev) (c : Clock) (w : Who) : (d.closeFor c w).cores = d.cores := d.closeBulks_cores c _

@[simp] theorem Dev.gatewayStore_cores (d : Dev) (c : Clock) (w : Who) (o : ReqOwner) (g a : Nat) (bs : List Byte) (p : Bool) :
    (d.gatewayStore c w o g a bs p).cores = d.cores := by
  unfold Dev.gatewayStore
  simp only [Dev.closeBulks_cores]
  split <;> simp

/-! ### Stores on this device, pools and queues leave the cores alone (R206, R225, R226, R241, R420) -/

@[simp] theorem Dev.countPartial_cores (d : Dev) (a n : Nat) : (d.countPartial a n).cores = d.cores := by
  refine Dev.foldl_cores (fun d l => ?_) _ d
  split <;> simp

@[simp] theorem Dev.storeDev_cores (d : Dev) (k a : Nat) (bs : List Byte) (p : Bool) : (d.storeDev k a bs p).cores = d.cores := by
  unfold Dev.storeDev Dev.memStore
  split <;> simp

@[simp] theorem Dev.lsStore_cores (d : Dev) (c : Clock) (w : Who) (va : Nat) (bs : List Byte) (p : Bool) :
    (d.lsStore c w va bs p).cores = d.cores := by
  unfold Dev.lsStore
  split <;> rfl

@[simp] theorem Dev.freshen_cores (d : Dev) (w : Who) (f : Frame) (a : Nat) (bs : List Byte) (p : Bool) :
    (d.freshen w f a bs p).cores = d.cores := rfl

@[simp] theorem Dev.alloc_cores (d : Dev) (k n h : Nat) : (d.alloc k n h).1.cores = d.cores := by
  unfold Dev.alloc
  split
  · simp
  · simp only
    split <;> simp

@[simp] theorem Dev.addRefs_cores (d : Dev) (k h n : Nat) : (d.addRefs k h n).1.cores = d.cores := by
  unfold Dev.addRefs
  split
  · simp
  · simp only
    split
    · rfl
    · split <;> simp

theorem Dev.pushHandle_cores {d d' : Dev} {k q h : Nat} (e : d.pushHandle k q h = some d') : d'.cores = d.cores := by
  unfold Dev.pushHandle at e
  split at e
  · exact absurd e nofun
  · simp only [Option.some.injEq] at e
    rw [← e, Dev.setHq_cores]

theorem Dev.popHandle_cores {d : Dev} {k q : Nat} {x : Dev × Nat} (e : d.popHandle k q = some x) : x.1.cores = d.cores := by
  unfold Dev.popHandle at e
  split at e
  · exact absurd e nofun
  · simp only [Option.some.injEq] at e
    rw [← e, Dev.setHq_cores]

@[simp] theorem Dev.unitBar_cores (d : Dev) (c : Clock) (w : Who) (st : Status) (b : Bar) : (d.unitBar c w st b).cores = d.cores := by
  unfold Dev.unitBar
  simp only
  split
  · simp
  · simp
  · simp
  · split
    · simp
    · split
      · simp
      · split <;> simp

/-! ### The pumps leave every scoreboard alone (R97, R201, R208) -/

/-- The engine operations on each core's board. -/
def boardsOf (cs : SMap Core) (k : Nat) : List BoardEntry := (SMap.get (fun _ => ({} : Core)) cs k).board

theorem Dev.boardsOf_core (d : Dev) (k : Nat) : boardsOf d.cores k = (d.core k).board := rfl

@[simp] theorem Dev.boardsOf_setCore {d : Dev} {k : Nat} {co : Core} (h : co.board = (d.core k).board) :
    boardsOf (d.setCore k co).cores = boardsOf d.cores := by
  funext j
  rw [Dev.boardsOf_core, Dev.boardsOf_core]
  by_cases hj : j = k
  · rw [hj, Dev.core_setCore_self, h]
  · rw [Dev.core_setCore_other d k j co hj]

@[simp] theorem Dev.boardsOf_updCore {d : Dev} {k : Nat} {f : Core → Core} (h : ∀ co, (f co).board = co.board) :
    boardsOf (d.updCore k f).cores = boardsOf d.cores := Dev.boardsOf_setCore (h _)

theorem Dev.boardsOf_foldl {α : Type} {step : Dev → α → Dev} (h : ∀ d x, boardsOf (step d x).cores = boardsOf d.cores) (xs : List α)
    (d : Dev) : boardsOf (xs.foldl step d).cores = boardsOf d.cores := by
  induction xs generalizing d with
  | nil => rfl
  | cons x xs ih => rw [List.foldl_cons, ih, h]

/-! What caches hold -/

theorem Dev.cachesOnly.boardsOf {d d' : Dev} (h : d.cachesOnly d') : boardsOf d'.cores = boardsOf d.cores := by
  funext k
  obtain ⟨l, hcore⟩ := h.2 k
  rw [Dev.boardsOf_core, Dev.boardsOf_core, hcore]

@[simp] theorem Dev.boardsOf_loaded (d : Dev) (w : Who) (va n : Nat) : boardsOf (d.loaded w va n).cores = boardsOf d.cores :=
  (d.loaded_cachesOnly w va n).boardsOf

@[simp] theorem Dev.boardsOf_cacheStore (d : Dev) (core a : Nat) (bs : List Byte) (p : Bool) :
    boardsOf (d.cacheStore core a bs p).cores = boardsOf d.cores := by
  refine Dev.boardsOf_foldl (fun d l => ?_) _ d
  simp only
  rw [(Dev.cacheLine_cachesOnly _ _ _).boardsOf]
  exact Dev.boardsOf_foldl (fun _ _ => by simp) _ d

/-! Plans -/

@[simp] theorem Dev.boardsOf_settleOwn (d : Dev) (c : Nat) : boardsOf (d.settleOwn c).cores = boardsOf d.cores := by
  unfold Dev.settleOwn
  split
  · split <;> simp [Core.nextPlan]
  · rfl

@[simp] theorem Dev.boardsOf_settle (d : Dev) (c : Nat) : boardsOf (d.settle c).cores = boardsOf d.cores := by
  unfold Dev.settle
  split
  · rfl
  · split <;> simp [Core.nextPlan]

@[simp] theorem Dev.boardsOf_advance (d : Dev) (c : Nat) (i : SeqInstr) : boardsOf (d.advance c i).cores = boardsOf d.cores := by
  unfold Dev.advance
  simp only [Dev.boardsOf_settle, Dev.boardsOf_updCore, implies_true]
  split <;> simp

@[simp] theorem Dev.boardsOf_reject (d : Dev) (c : Nat) (r : PlanRun) (i : SeqInstr) (st : Status) :
    boardsOf (d.reject c r i st).cores = boardsOf d.cores := by simp [Dev.reject]

@[simp] theorem Dev.boardsOf_seqBar (d : Dev) (clk : Clock) (c : Nat) (r : PlanRun) (b : Bar) :
    boardsOf (d.seqBar clk c r b).cores = boardsOf d.cores := by
  unfold Dev.seqBar
  split
  · simp
  · simp
  · rfl

/-- A step of a sequencer leaves every board alone where the command's work does. -/
theorem Dev.boardsOf_seqStep (d : Dev) (clk : Clock) (c : Nat) (mine : SeqInstr → Bool) {f : Dev → PlanRun → SeqInstr → Dev}
    (hf : ∀ d r i, boardsOf (f d r i).cores = boardsOf d.cores) : boardsOf (d.seqStep clk c mine f).cores = boardsOf d.cores := by
  unfold Dev.seqStep
  simp only
  split
  · rfl
  · split
    · rfl
    · split
      · rfl
      · exact d.boardsOf_seqBar _ _ _ _
      · exact d.boardsOf_reject _ _ _ _
      · split
        · exact d.boardsOf_reject _ _ _ _
        · split
          · exact d.boardsOf_reject _ _ _ _
          · split
            · exact d.boardsOf_reject _ _ _ _
            · split
              · exact hf d _ _
              · rfl

theorem Dev.boardsOf_valveStep {d : Dev} (c : Nat) (r : PlanRun) (i : SeqInstr) {f : ValveBody → Dev}
    (hf : ∀ b, boardsOf (f b).cores = boardsOf d.cores) : boardsOf (d.valveStep c r i f).cores = boardsOf d.cores := by
  unfold Dev.valveStep
  simp only
  split
  · exact hf _
  · exact d.boardsOf_reject _ _ _ _

@[simp] theorem Dev.boardsOf_setHreg (d : Dev) (c h x : Nat) : boardsOf (d.setHreg c h x).cores = boardsOf d.cores := by simp [Dev.setHreg]

@[simp] theorem Dev.boardsOf_queueHold (d : Dev) (c : Nat) : boardsOf (d.queueHold c).cores = boardsOf d.cores := by simp [Dev.queueHold]

@[simp] theorem Dev.boardsOf_seqPush (d : Dev) (c : Nat) (r : PlanRun) (i : SeqInstr) :
    boardsOf (d.seqPush c r i).cores = boardsOf d.cores := by
  refine Dev.boardsOf_valveStep c r i fun b => ?_
  simp only
  split
  · simp
  · split
    · simp
    · split
      · simp
      · generalize ha : (if b.keep then d.addRefs r.ctx ((d.core c).hreg b.hreg) 1 else (d, true)) = a
        have refs : a.1.cores = d.cores := by
          rw [← ha]
          split <;> simp
        split
        · simp [refs]
        · split
          · rfl
          next hpush =>
            rw [Dev.boardsOf_advance, ← refs, ← Dev.pushHandle_cores hpush]
            split <;> simp

@[simp] theorem Dev.boardsOf_seqPop (d : Dev) (c : Nat) (r : PlanRun) (i : SeqInstr) :
    boardsOf (d.seqPop c r i).cores = boardsOf d.cores := by
  refine Dev.boardsOf_valveStep c r i fun b => ?_
  split
  · simp
  · split
    · simp
    · split
      · simp
      next hpop =>
        rw [Dev.boardsOf_advance, Dev.boardsOf_setHreg, Dev.popHandle_cores hpop]

/-! Streams -/

@[simp] theorem Dev.boardsOf_setStream (d : Dev) (c ch : Nat) (s : Option Stream) :
    boardsOf (d.setStream c ch s).cores = boardsOf d.cores := by simp [Dev.setStream, Core.setStream]

theorem Dev.boardsOf_storePiece {d e : Dev} {clk : Clock} {w : Who} {o : ReqOwner} {va : Nat} {bs : List Byte} {p : Bool}
    (h : d.storePiece clk w o va bs p = .ok e) : boardsOf e.cores = boardsOf d.cores := by
  unfold Dev.storePiece at h
  split at h
  · exact absurd h nofun
  · simp only at h
    split at h
    · split at h
      · exact absurd h nofun
      · obtain rfl := Except.ok.inj h
        split <;> simp
    · obtain rfl := Except.ok.inj h
      simp
    · obtain rfl := Except.ok.inj h
      split <;> simp

theorem Dev.boardsOf_store {d e : Dev} {clk : Clock} {w : Who} {o : ReqOwner} {va : Nat} {bs : List Byte} {p : Bool}
    (h : d.store clk w o va bs p = .ok e) : boardsOf e.cores = boardsOf d.cores := by
  have pieces := List.foldlRecOn (motive := fun r : Except Bar Dev => ∀ e, r = .ok e → boardsOf e.cores = boardsOf d.cores)
    (pieces va bs.length) (fun r p' => match r with
      | .error b => .error b
      | .ok d => d.storePiece clk w o p'.1 ((bs.drop (p'.1 - va)).take p'.2) p) (b := .ok d)
    (fun e he => by rw [Except.ok.inj he]) fun r hr x _ e he => by
      split at he
      · exact absurd he nofun
      next d1 => exact (Dev.boardsOf_storePiece he).trans (hr d1 rfl)
  exact pieces e h

theorem Dev.boardsOf_writeState {d e : Dev} {clk : Clock} {c ch : Nat} {s : Stream} {st n : Nat}
    (h : d.writeState clk c ch s st n = .ok e) : boardsOf e.cores = boardsOf d.cores := Dev.boardsOf_store h

@[simp] theorem Dev.boardsOf_stopStream (d : Dev) (c ch : Nat) (s : Stream) (st : Status) :
    boardsOf (d.stopStream c ch s st).cores = boardsOf d.cores := by
  unfold Dev.stopStream
  simp only [Dev.raiseAt_cores]
  split <;> simp

@[simp] theorem Dev.boardsOf_haltWrite (d : Dev) (clk : Clock) (c ch : Nat) : boardsOf (d.haltWrite clk c ch).cores = boardsOf d.cores := by
  unfold Dev.haltWrite
  split
  · rfl
  · split
    · rfl
    · split
      · rfl
      · split
        next hw => rw [Dev.boardsOf_setStream, Dev.boardsOf_writeState hw]
        · simp
        · rfl

@[simp] theorem Dev.boardsOf_haltStream (d : Dev) (clk : Clock) (c ch : Nat) (s : Stream) :
    boardsOf (d.haltStream clk c ch s).cores = boardsOf d.cores := by
  unfold Dev.haltStream
  split <;> simp

/-- The device after one try at moving a stream on. -/
def Move.dev : Move → Dev
  | .stuck d => d
  | .moved d => d

@[simp] theorem Move.dev_stuck (d : Dev) : (Move.stuck d).dev = d := rfl
@[simp] theorem Move.dev_moved (d : Dev) : (Move.moved d).dev = d := rfl

@[simp] theorem Dev.boardsOf_moveBar (d : Dev) (clk : Clock) (c ch : Nat) (s : Stream) (b : Bar) :
    boardsOf (d.moveBar clk c ch s b).dev.cores = boardsOf d.cores := by
  unfold Dev.moveBar
  split
  · simp
  · simp
  · rfl
  · split
    · rfl
    · split
      · simp
      · simp only
        split <;> simp

@[simp] theorem Dev.boardsOf_relayPass (d : Dev) (ch : Nat) (s : Stream) (bs : List Byte) (p : Bool) :
    boardsOf (d.relayPass ch s bs p).cores = boardsOf d.cores := by
  unfold Dev.relayPass
  split
  · rfl
  · split
    · rfl
    · simp only [Dev.boardsOf_setStream]
      split <;> rfl

@[simp] theorem Dev.boardsOf_accessDone (d : Dev) (c ch : Nat) (s : Stream) :
    boardsOf (d.accessDone c ch s).cores = boardsOf d.cores := by simp [Dev.accessDone]

@[simp] theorem Dev.boardsOf_elemDone (d : Dev) (c ch : Nat) (s : Stream) :
    boardsOf (d.elemDone c ch s).cores = boardsOf d.cores := d.boardsOf_accessDone c ch _

@[simp] theorem Dev.boardsOf_elemIn (d : Dev) (c ch : Nat) (s : Stream) (bs : List Byte) (p : Bool) :
    boardsOf (d.elemIn c ch s bs p).cores = boardsOf d.cores := by
  unfold Dev.elemIn
  simp only
  split <;> simp

theorem Dev.boardsOf_readElem1 (d : Dev) (clk : Clock) (c ch : Nat) (s : Stream) {f : Dev → List Byte → Bool → Dev}
    (hf : ∀ d bs p, boardsOf (f d bs p).cores = boardsOf d.cores) :
    boardsOf (d.readElem1 clk c ch s f).dev.cores = boardsOf d.cores := by
  unfold Dev.readElem1
  split
  · simp only
    split
    · exact hf d _ _
    · split
      · simp
      · exact hf d _ _
  · simp only
    split
    · simp
    · simp [hf]

@[simp] theorem Dev.boardsOf_moveIn (d : Dev) (clk : Clock) (c ch : Nat) (s : Stream) :
    boardsOf (d.moveIn clk c ch s).dev.cores = boardsOf d.cores := by
  unfold Dev.moveIn
  simp only
  split
  · simp
  · split
    · rfl
    · exact d.boardsOf_readElem1 _ _ _ _ fun d bs p => d.boardsOf_elemIn _ _ _ bs p
  · split
    · rfl
    · exact d.boardsOf_readElem1 _ _ _ _ fun d _ _ => d.boardsOf_accessDone _ _ _

@[simp] theorem Dev.boardsOf_moveOut (d : Dev) (clk : Clock) (c ch : Nat) (s : Stream) :
    boardsOf (d.moveOut clk c ch s).dev.cores = boardsOf d.cores := by
  unfold Dev.moveOut
  simp only
  split
  · rfl
  · split
    · simp
    · split
      · split
        · simp
        · simp
      · split
        · simp
        next hs =>
          rw [← Dev.boardsOf_store hs]
          simp

@[simp] theorem Dev.boardsOf_movePop (d : Dev) (c ch : Nat) : boardsOf (d.movePop c ch).dev.cores = boardsOf d.cores := by
  unfold Dev.movePop
  split
  · rfl
  · split
    · rfl
    · split
      · simp
      · split
        · rfl
        next hpop =>
          rw [← Dev.popHandle_cores hpop]
          split <;> simp

@[simp] theorem Dev.boardsOf_moveAlloc (d : Dev) (c ch : Nat) (s : Stream) :
    boardsOf (d.moveAlloc c ch s).dev.cores = boardsOf d.cores := by
  unfold Dev.moveAlloc
  split
  · rfl
  · simp only
    split <;> simp

@[simp] theorem Dev.boardsOf_movePush (d : Dev) (c ch : Nat) : boardsOf (d.movePush c ch).dev.cores = boardsOf d.cores := by
  unfold Dev.movePush
  split
  · rfl
  · split
    · rfl
    · split
      · simp
      · split
        · rfl
        · split
          · rfl
          next hpush =>
            rw [← Dev.pushHandle_cores hpush]
            simp

@[simp] theorem Dev.boardsOf_moveDesc (d : Dev) (clk : Clock) (c ch : Nat) (s : Stream) :
    boardsOf (d.moveDesc clk c ch s).dev.cores = boardsOf d.cores := by
  unfold Dev.moveDesc
  split
  · simp
  · simp only
    split
    · simp
    · split
      · rfl
      · simp

@[simp] theorem Dev.boardsOf_moveOne (d : Dev) (clk : Clock) (c ch : Nat) :
    boardsOf (d.moveOne clk c ch).dev.cores = boardsOf d.cores := by
  rw [← d.boardsOf_haltWrite clk c ch]
  unfold Dev.moveOne
  generalize d.haltWrite clk c ch = d
  simp only
  split
  · rfl
  next s _ =>
    split
    · rfl
    split
    · exact d.boardsOf_moveDesc clk c ch s
    split
    · rfl
    split
    · exact d.boardsOf_moveAlloc c ch s
    split
    · exact congrArg boardsOf (d.closeFor_cores clk _)
    split
    · exact d.boardsOf_moveOut clk c ch s
    · exact d.boardsOf_moveIn clk c ch s

theorem boardsOf_moveAccess (clk : Clock) (c ch n : Nat) (d : Dev) :
    boardsOf (moveAccess clk c ch n d).1.cores = boardsOf d.cores := by
  induction n generalizing d with
  | zero => rfl
  | succ n ih =>
    have one := d.boardsOf_moveOne clk c ch
    unfold moveAccess
    split
    next h => rwa [h] at one
    next h =>
      rw [h] at one
      split
      · split
        · exact (ih _).trans one
        · exact one
      · exact one

theorem boardsOf_serveOne (clk : Clock) (c : Nat) (chs : List Nat) (d : Dev) :
    boardsOf (serveOne clk c chs d).1.cores = boardsOf d.cores := by
  induction chs generalizing d with
  | nil => rfl
  | cons ch chs ih =>
    unfold serveOne
    simp only
    split
    · simp [boardsOf_moveAccess]
    · rw [ih, boardsOf_moveAccess]

theorem Dev.boardsOf_pumpTurn (d : Dev) (clk : Clock) (c : Nat) : boardsOf (d.pumpTurn clk c).1.cores = boardsOf d.cores :=
  boardsOf_serveOne _ _ _ _

theorem Dev.boardsOf_seqQueue (d : Dev) (clk : Clock) (c fop : Nat) {f : Dev → PlanRun → SeqInstr → Dev}
    (hf : ∀ d r i, boardsOf (f d r i).cores = boardsOf d.cores) : boardsOf (d.seqQueue clk c fop f).1.cores = boardsOf d.cores := by
  unfold Dev.seqQueue
  split
  · rfl
  · exact d.boardsOf_seqStep _ _ _ hf

theorem Dev.boardsOf_queueTurn (d : Dev) {one : Dev → Nat → Move} {seq : Dev → Dev × Bool}
    (hone : ∀ d ch, boardsOf (one d ch).dev.cores = boardsOf d.cores) (hseq : ∀ d, boardsOf (seq d).1.cores = boardsOf d.cores) :
    boardsOf (d.queueTurn one seq).1.cores = boardsOf d.cores := by
  unfold Dev.queueTurn
  refine (hseq _).trans (List.foldlRecOn (motive := fun r : Dev × Bool => boardsOf r.1.cores = boardsOf d.cores) _ _ rfl
    fun r hr ch _ => ?_)
  have move := hone r.1 ch
  split
  next h => rw [h] at move; exact move.trans hr
  next h => rw [h] at move; exact move.trans hr

theorem boardsOf_turns {f : Dev → Nat → Dev × Bool} (hf : ∀ d c, boardsOf (f d c).1.cores = boardsOf d.cores) (cores : List Nat)
    (r : Dev × Bool) : boardsOf (turns f cores r).1.cores = boardsOf r.1.cores :=
  List.foldlRecOn (motive := fun x : Dev × Bool => boardsOf x.1.cores = boardsOf r.1.cores) _ _ rfl fun x hx c _ => (hf x.1 c).trans hx

theorem Dev.boardsOf_pumpRound (d : Dev) (clk : Clock) : boardsOf (d.pumpRound clk).1.cores = boardsOf d.cores := by
  unfold Dev.pumpRound
  simp only
  rw [boardsOf_turns fun d c => d.boardsOf_queueTurn (fun d ch => d.boardsOf_movePop c ch) fun d =>
      d.boardsOf_seqQueue clk c 0x0C fun d r i => d.boardsOf_seqPop c r i,
    boardsOf_turns fun d c => d.boardsOf_queueTurn (fun d ch => d.boardsOf_movePush c ch) fun d =>
      d.boardsOf_seqQueue clk c 0x0B fun d r i => d.boardsOf_seqPush c r i,
    boardsOf_turns fun d c => d.boardsOf_pumpTurn clk c]

theorem boardsOf_pumpRounds (clk : Clock) (n : Nat) (d : Dev) : boardsOf (pumpRounds clk n d).cores = boardsOf d.cores := by
  induction n generalizing d with
  | zero => rfl
  | succ n ih =>
    unfold pumpRounds
    simp only
    split
    · rw [ih, Dev.boardsOf_pumpRound]
    · exact d.boardsOf_pumpRound clk

/-- The pumps leave every scoreboard alone. -/
theorem Dev.board_pump (d : Dev) (clk : Clock) (k : Nat) : ((d.pump clk).core k).board = (d.core k).board := by
  refine congrFun (f := boardsOf (d.pump clk).cores) (g := boardsOf d.cores) ?_ k
  unfold Dev.pump
  split
  · exact boardsOf_pumpRounds clk _ d
  · rfl

end Sys2Proof.Machine

end

section
/-! PROOFS. An engine operation finishes (R97, R104): in its turn, it leaves the board and delivers what it has. A board with two entries
in one slot shows that the board may hold such an entry again. -/

namespace Sys2Proof.Machine

/-! ### An engine operation finishes (R97, R104) -/

theorem exec_engineOpFinished {s : State} (h : s.Working) (c : CoreId) (slot : Fin 64) (seen : OpSeen) :
    exec (.engineOpFinished c slot seen) s = .next { s with dev := s.dev.finishOp s.clk c.val slot.val seen.check seen.ecc } := by
  have hexec : exec (.engineOpFinished c slot seen) s =
      onDev s fun clk d => if clk.stage = .work then d.finishOp clk c.val slot.val seen.check seen.ecc else d := rfl
  rw [hexec, onDev_on h.on, if_pos h.work]

/-- An operation that must come after another does not finish (R78, R117). -/
theorem Dev.finishOp_early {d : Dev} {clk : Clock} {c slot : Nat} {check : EngineCheck} {ecc : List EccFinding} {e0 : BoardEntry}
    (found : (d.core c).board.find? (fun e => e.slot = slot) = some e0) (early : (d.core c).mayFinish e0 = false) :
    d.finishOp clk c slot check ecc = d := by
  simp only [Dev.finishOp, found, early, Bool.not_false, if_true]

/-- What a finished operation delivers once it has left the board: what its checker saw, its flags, counts and statuses. -/
def Dev.delivered (d : Dev) (c : Nat) (e : BoardEntry) (check : EngineCheck) : Dev :=
  e.out.statuses.foldl (fun d st => d.raiseAt e.ctx st 0 .core c)
    (e.out.counts.foldl (fun d x => d.bumpKey x.1 x.2) (((d.checkSeen c e check).flagN e.ctx e.out.nflags).flagS e.ctx e.out.sflags))

/-- An operation whose turn has come leaves the board, delivers what it has, and its plan is settled. -/
theorem Dev.finishOp_due {d : Dev} {clk : Clock} {c slot : Nat} {check : EngineCheck} {ecc : List EccFinding} {e0 : BoardEntry}
    (found : (d.core c).board.find? (fun e => e.slot = slot) = some e0) (due : (d.core c).mayFinish e0 = true) :
    d.finishOp clk c slot check ecc =
      (((((d.eccAll clk (some e0.ctx) ecc).opDone c e0 (d.outcome clk c e0 ecc) (checkBad check)
        (!(e0.linesLost c ecc).isEmpty)).delivered c (d.outcome clk c e0 ecc) check).settle c).pump clk) := by
  simp only [Dev.finishOp, found, due, Bool.not_true, Bool.false_eq_true, if_false]
  rfl

end Sys2Proof.Machine

open Sys2Proof.Machine
namespace Sys2Proof

/-- Settles O16: an operation finishes only in its turn, and what it then delivers is said for each thing its checker may see. -/
theorem engineOperationsFinish : Obligations.EngineOperationsFinish := by
  intro s c slot check ecc e0 hs found
  refine ⟨fun early => ?_, fun due => ?_⟩
  · rw [exec_engineOpFinished hs, Dev.finishOp_early found early]
  · rw [exec_engineOpFinished hs, Dev.finishOp_due found due]
    cases check <;> rfl

end Sys2Proof

namespace Sys2Proof.Machine

/-! ### The board that a finished operation leaves (R68, R86) -/

@[simp] theorem Dev.raiseUncorrected_cores (d : Dev) (k : Nat) (st : Status) (x : UnitKind) (y : Nat) :
    (d.raiseUncorrected k st x y).cores = d.cores := (d.raiseUncorrected_same k st x y).cores_eq

@[simp] theorem Dev.checkSeen_cores (d : Dev) (c : Nat) (e : BoardEntry) (check : EngineCheck) : (d.checkSeen c e check).cores = d.cores := by
  unfold Dev.checkSeen
  split
  · rfl
  · split
    · rw [Dev.residueError, Dev.bump_cores, Dev.flagN, Dev.updCtx_cores, Dev.raiseUncorrected_cores]
    · rfl
  · exact d.raiseUncorrected_cores _ _ _ _

/-- What a finished operation delivers leaves the cores alone. -/
@[simp] theorem Dev.delivered_cores (d : Dev) (c : Nat) (e : BoardEntry) (check : EngineCheck) : (d.delivered c e check).cores = d.cores := by
  unfold Dev.delivered
  refine (Dev.foldl_cores (fun d _ => d.raiseAt_cores _ _ _ _ _) _ _).trans ?_
  refine (Dev.foldl_cores (fun _ _ => by rfl) _ _).trans ?_
  rw [Dev.flagS, Dev.updCtx_cores, Dev.flagN, Dev.updCtx_cores, Dev.checkSeen_cores]

/-- The board of the core on which an operation has finished, after all that its finish does. -/
theorem Dev.board_finished (d : Dev) (c : Nat) (e : BoardEntry) (check : EngineCheck) :
    (((d.delivered c e check).settle c).core c).board = (d.core c).board := by
  have h := (d.delivered c e check).boardsOf_settle c
  rw [Dev.delivered_cores] at h
  exact congrFun h c

/-! ### Two entries in one slot -/

/-- An array operation on rectangle (0, 0, 1, 1) in slot 0, with one byte to write. -/
def twin (poison : Bool) : BoardEntry :=
  { slot := 0, engine := .array, ctx := 0, out := { EngOut.start with writes := [⟨0, [0#8], poison⟩], rect := some (0, 0, 1, 1) } }

/-- A module in service in whose core 0 two operations of one rectangle stand in slot 0: the first writes poison, the second is like it
but for that. -/
def twins : State :=
  { State.reset with dev := { State.reset.dev with life := .on, cores := [(0, { board := [twin true, twin false] })] } }

theorem twins_working : twins.Working := ⟨rfl, rfl⟩

theorem twins_found : (twins.dev.core (0 : CoreId).val).board.find? (fun e => e.slot = (0 : Fin 64).val) = some (twin true) := by decide

theorem twins_due : (twins.dev.core (0 : CoreId).val).mayFinish (twin true) = true := by decide

/-- The first operation of the two has left the board, its check failed. -/
def twinsDone : Dev := twins.dev.opDone 0 (twin true) (twin true) true false

theorem twins_finish : exec (.engineOpFinished 0 0 ⟨.controlParity, []⟩) twins = .next { twins with
    dev := ((twinsDone.delivered 0 (twin true) .controlParity).settle 0).pump twins.clk } := by
  rw [exec_engineOpFinished twins_working, Dev.finishOp_due twins_found twins_due]
  rfl

/-- Its failed check has spoiled the second, which is now the entry that the first was. -/
theorem twin_returns : twin true ∈ (twinsDone.core 0).board := by decide

end Sys2Proof.Machine

open Sys2Proof.Machine
namespace Sys2Proof

/-- Refutes O17: its last clause fails where two entries stand in one slot, which `State.Working` does not shut out. An error in the
first spoils the second, and where the two differ in the poison of their results alone, the board holds the first again. The pumps,
which run last, leave every board alone, so no other device before them gives the same outcome. -/
theorem not_engineOperationsWriteTheirResultsAlone : ¬ Obligations.EngineOperationsWriteTheirResultsAlone := by
  unfold Obligations.EngineOperationsWriteTheirResultsAlone
  intro h
  obtain ⟨d, finish, -, -, -, -, gone⟩ := h twins 0 0 .controlParity [] (twin true) twins_working twins_found twins_due
  have pumped := congrArg State.dev (Host.Outcome.next.inj (twins_finish.symm.trans finish))
  have board : (twinsDone.core 0).board = (d.core 0).board := by
    calc (twinsDone.core 0).board
        = (((twinsDone.delivered 0 (twin true) .controlParity).settle 0).core 0).board := (Dev.board_finished _ _ _ _).symm
      _ = ((((twinsDone.delivered 0 (twin true) .controlParity).settle 0).pump twins.clk).core 0).board := (Dev.board_pump _ _ _).symm
      _ = ((d.pump twins.clk).core 0).board := congrArg (fun e : Dev => (e.core 0).board) pumped
      _ = (d.core 0).board := Dev.board_pump _ _ _
  exact gone (board ▸ twin_returns)

end Sys2Proof

end

section
/-! PROOFS. The core's phases (R98), and the plans and items that reach a core (R95, R101, R347). -/

namespace Sys2Proof.Machine

/-! ### Phases (R98) -/

theorem exec_compute_at {s : State} {c : CoreId} {r : PlanRun} {i : SeqInstr} (h : s.SeqAt c.val r i) (op : i.op = 6) (arg : i.arg = 0) :
    exec (.compute c) s = .next { s with dev := s.dev.issuePhase c.val i true } :=
  onDev_seqStep_at h (mine := fun i => i.op = 6 && i.arg = 0) (by simp [op, arg]) fun d _ i => d.issuePhase c.val i true

theorem exec_transfer_at {s : State} {c : CoreId} {r : PlanRun} {i : SeqInstr} (h : s.SeqAt c.val r i) (op : i.op = 6) (arg : i.arg = 1) :
    exec (.transfer c) s = .next { s with dev := s.dev.issuePhase c.val i false } :=
  onDev_seqStep_at h (mine := fun i => i.op = 6 && i.arg = 1) (by simp [op, arg]) fun d _ i => d.issuePhase c.val i false

theorem Dev.run_beginSwitch (d : Dev) (c : Nat) (b : Bool) : ((d.beginSwitch c b).core c).run = (d.core c).run := by
  rw [Dev.beginSwitch, (Dev.bump_same _ _ _ _ _).core, Dev.core_updCore_self]

/-- In the phase asked for the plan moves on. -/
theorem Dev.issuePhase_same {d : Dev} {c : Nat} {r : PlanRun} {b : Bool} (i : SeqInstr) (run : (d.core c).run = some r)
    (phase : (d.core c).compute = b) : d.issuePhase c i b = d.passed c r i := by
  rw [Dev.issuePhase, if_pos phase, Dev.advance_passed i run]

/-- In the other phase the switch begins, unless a TRANSFER finds an operation unfinished. -/
theorem Dev.issuePhase_switch {d : Dev} {c : Nat} {r : PlanRun} {b : Bool} (i : SeqInstr) (run : (d.core c).run = some r)
    (phase : (d.core c).compute ≠ b) (quiet : b = false → (d.core c).board = []) :
    d.issuePhase c i b = (d.beginSwitch c b).passed c r i := by
  have ready : (!b && !(d.core c).board.isEmpty) = false := by
    cases b with
    | true => rfl
    | false => simp [quiet rfl]
  simp only [Dev.issuePhase, if_neg phase, ready, Bool.false_eq_true, if_false]
  exact Dev.advance_passed i ((d.run_beginSwitch c b).trans run)

/-- A TRANSFER holds while an operation is unfinished. -/
theorem Dev.issuePhase_holds {d : Dev} {c : Nat} (i : SeqInstr) (phase : (d.core c).compute = true) (busy : (d.core c).board ≠ []) :
    d.issuePhase c i false = d := by
  simp [Dev.issuePhase, phase, busy]

theorem Dev.switchDone_some {d : Dev} {clk : Clock} {c : Nat} {b : Bool} (h : (d.core c).switchTo = some b) :
    d.switchDone clk c = (d.updCore c fun co => { co with compute := b, switchTo := none }).pump clk := by
  rw [Dev.switchDone, h]

end Sys2Proof.Machine

open Sys2Proof.Machine
namespace Sys2Proof

/-- Settles O14: what COMPUTE and TRANSFER do is said once for both, by the phase they ask for. -/
theorem phasesSwitch : Obligations.PhasesSwitch := by
  refine ⟨fun s c r i hs op => ⟨fun arg => ?_, fun arg quiet => ?_, fun arg phase busy => ?_⟩, fun s c b on sw => ?_⟩
  · rw [exec_compute_at hs op arg]
    split
    next phase => rw [Dev.issuePhase_same i hs.run phase]
    next phase => rw [Dev.issuePhase_switch i hs.run phase nofun]
  · rw [exec_transfer_at hs op arg]
    split
    next phase => rw [Dev.issuePhase_switch i hs.run (by simp [phase]) fun _ => quiet phase]
    next phase => rw [Dev.issuePhase_same i hs.run (by simpa using phase)]
  · rw [exec_transfer_at hs op arg, Dev.issuePhase_holds i phase busy]
  · rw [← Dev.switchDone_some sw]
    exact onDev_on on fun clk d => d.switchDone clk c.val

end Sys2Proof

namespace Sys2Proof.Machine

/-! ### Plans and items reach their cores (R95, R101, R347) -/

theorem exec_plan_at {s : State} {q : CmdRead} {x : QCmd} (h : s.CmdAt q.q.val 1 x) (refetch : Nat) :
    exec (.plan q refetch) s = .next { s with dev := (s.dev.readCmd s.clk x q).handPlan x refetch } := by
  have hexec : exec (.plan q refetch) s = onDev s fun clk d => d.issueRead clk q 1 fun d x => d.handPlan x refetch := rfl
  rw [hexec, onDev_on h.on, Dev.issueRead, Dev.issueCmd_at h]
  rfl

/-- Where an idle core finds an item to take: `x` is the richest core of its own cluster, or, where no core there has an item, of the
context's other clusters, with the items left. -/
def Dev.ItemSource (d : Dev) (k core : Nat) (x : Nat × List (Nat × Nat)) : Prop :=
  d.richest k ((List.range 8).map fun j => core / 8 * 8 + j) = some x ∨
    d.richest k ((List.range 8).map fun j => core / 8 * 8 + j) = none ∧
    d.richest k (((d.heldBy k).filter (· != core / 8)).flatMap fun x => (List.range 8).map fun j => x * 8 + j) = some x

/-- Core `core` is idle in a cluster of the balancing context `k`, and has completed a plan: it may take an item (R347). -/
structure Dev.MayTake (d : Dev) (k core : Nat) : Prop where
  holder : (d.cluster (core / 8)).holder = some k
  balance : (d.ctx k).loadBalance = true
  may : d.mayRun k = true
  idle : (d.core core).run = none
  waiting : (d.core core).waiting = []
  worked : (d.core core).seqDone ≠ []
  steady : (d.core core).switchTo = none
  free : d.planWaits core = false

theorem Dev.takeItem_mayTake {d : Dev} {clk : Clock} {k core o : Nat} {items : List (Nat × Nat)} {t : Nat × Nat} {r : PlanRun}
    (h : d.MayTake k core) (work : clk.stage = .work) (source : d.ItemSource k core (o, items)) (last : items.getLast? = some t)
    (run : (d.core o).run = some r) :
    d.takeItem clk core = ((d.updCore o fun x => { x with
        run := some { ({ r with taken := r.taken ++ [t] } : PlanRun).moveTo r.pc with takenOut := r.takenOut + 1 } }).updCore core fun x =>
      { x with run := some { cmd := r.cmd, ctx := k, va := r.va, pc := t.1, stopAt := some t.2, owner := some o } }).bump 0x8030 7 core 1 := by
  have worked : (d.core core).seqDone.isEmpty = false := by simp [h.worked]
  simp only [Dev.takeItem, h.holder, work, h.balance, h.may, h.idle, h.waiting, worked, h.steady, h.free]
  rcases source with near | ⟨near, far⟩
  · simp [near, last, run]
  · simp [near, far, last, run]

end Sys2Proof.Machine

open Sys2Proof.Machine
namespace Sys2Proof

/-- Settles O23: an eligible PLAN is handed to its core, and an idle core takes the last item of the core that `Dev.ItemSource` names. -/
theorem coresTakePlansAndItems : Obligations.CoresTakePlansAndItems := by
  refine ⟨fun s q x refetch hs => exec_plan_at hs refetch,
    fun s c k o items t r hs holder balance may idle waiting worked steady free source last run => ?_⟩
  have take : s.dev.MayTake k c.val := ⟨holder, balance, may, idle, waiting, worked, steady, free⟩
  rw [← Dev.takeItem_mayTake take hs.work source last run]
  exact onDev_on hs.on fun clk d => d.takeItem clk c.val

end Sys2Proof

end

section
/-! PROOFS. Plans move on, end and reject (R93 to R96, R128). END_PLAN marks its plan as ended before its own fetch goes through the
caches; what that fetch leaves there does not depend on the mark. -/

namespace Sys2Proof.Machine

/-! ### Writes of different keys -/

theorem SMap.insert_comm {α : Type} (m : SMap α) (j k : Nat) (v w : α) (h : j ≠ k) :
    SMap.insert (SMap.insert m j v) k w = SMap.insert (SMap.insert m k w) j v := by
  induction m with
  | nil => grind [SMap.insert]
  | cons x m ih => grind [SMap.insert]

/-- Key `c` stands before every key above it: its place in the list does not depend on them. -/
def SMap.Leads {α : Type} (c : Nat) : SMap α → Prop
  | [] => False
  | (k, _) :: m => k = c ∨ k < c ∧ SMap.Leads c m

theorem SMap.leads_insert_self {α : Type} (m : SMap α) (c : Nat) (v : α) : SMap.Leads c (SMap.insert m c v) := by
  induction m with
  | nil => exact .inl rfl
  | cons x m ih => 
    unfold SMap.insert
    split
    · exact .inl rfl
    · split
      · exact .inl rfl
      · exact .inr ⟨by omega, ih⟩

theorem SMap.leads_insert_other {α : Type} (m : SMap α) (c k : Nat) (v : α) (hk : k ≠ c) (h : SMap.Leads c m) :
    SMap.Leads c (SMap.insert m k v) := by
  induction m with
  | nil => exact h.elim
  | cons x m ih =>
    unfold SMap.insert
    split
    · rcases h with h | h
      · exact .inr ⟨by omega, .inl h⟩
      · exact .inr ⟨by omega, .inr h⟩
    · split
      · rcases h with h | h
        · omega
        · exact .inr ⟨by omega, h.2⟩
      · exact h.imp_right fun h => ⟨h.1, ih h.2⟩

theorem SMap.leads_remove {α : Type} (m : SMap α) (c k : Nat) (hk : k ≠ c) (h : SMap.Leads c m) :
    SMap.Leads c (m.filter fun kv => decide (kv.1 ≠ k)) := by
  induction m with
  | nil => exact h.elim
  | cons x m ih =>
    rw [List.filter_cons]
    split
    · exact h.imp_right fun h => ⟨h.1, ih h.2⟩
    · rcases h with h | h
      · simp_all
      · exact ih h.2

theorem SMap.remove_insert_other {α : Type} (m : SMap α) (c k : Nat) (v : α) (hk : k < c ∨ k ≠ c ∧ SMap.Leads c m) :
    ((SMap.insert m c v).filter fun kv => decide (kv.1 ≠ k)) = SMap.insert (m.filter fun kv => decide (kv.1 ≠ k)) c v := by
  induction m with
  | nil => grind [SMap.insert, SMap.Leads]
  | cons x m ih => grind [SMap.insert, SMap.Leads]

theorem SMap.leads_put_self {α : Type} [DecidableEq α] (d : Nat → α) (m : SMap α) (c : Nat) (v : α) (hv : v ≠ d c) :
    SMap.Leads c (SMap.put d m c v) := by
  rw [SMap.put, if_neg hv]
  exact SMap.leads_insert_self m c v

theorem SMap.leads_put_other {α : Type} [DecidableEq α] (d : Nat → α) (m : SMap α) (c k : Nat) (v : α) (hk : k ≠ c)
    (h : SMap.Leads c m) : SMap.Leads c (SMap.put d m k v) := by
  unfold SMap.put
  split
  · exact SMap.leads_remove m c k hk h
  · exact SMap.leads_insert_other m c k v hk h

/-- Writes of two keys may change places, where the first lists its key and the other's place in the list is below it or settled. -/
theorem SMap.put_comm {α : Type} [DecidableEq α] (d : Nat → α) (m : SMap α) (c k : Nat) (v w : α) (hv : v ≠ d c)
    (hk : k < c ∨ k ≠ c ∧ SMap.Leads c m) : SMap.put d (SMap.put d m c v) k w = SMap.put d (SMap.put d m k w) c v := by
  have hne : c ≠ k := by omega
  simp only [SMap.put, if_neg hv]
  split
  · exact SMap.remove_insert_other m c k v hk
  · exact SMap.insert_comm m c k v w hne

/-! ### What a load leaves in the caches does not depend on the plan that runs (R108) -/

/-- A core whose data cache holds the lines `l`. -/
def Core.caching (co : Core) (l : List Nat) : Core := { co with dcache := l }

/-- `f` changes a core apart from its data cache, and leaves it a plan where it has one. -/
structure ApartFromCache (f : Core → Core) : Prop where
  comm : ∀ co l, f (co.caching l) = (f co).caching l
  dcache : ∀ co, (f co).dcache = co.dcache
  runs : ∀ co, co.run.isSome = true → (f co).run.isSome = true

/-- `h` changes a core's data cache alone. -/
def CacheAlone (h : Core → Core) : Prop := ∃ g : List Nat → List Nat, ∀ co, h co = co.caching (g co.dcache)

theorem cacheAlone_filter (p : Nat → Bool) : CacheAlone fun co => { co with dcache := co.dcache.filter p } := ⟨(·.filter p), fun _ => rfl⟩

theorem cacheAlone_add (n l : Nat) :
    CacheAlone fun co => if co.dcache.contains l then co else { co with dcache := addBounded 1024 n co.dcache l } := by
  refine ⟨fun ls => if ls.contains l then ls else addBounded 1024 n ls l, fun co => ?_⟩
  by_cases hl : co.dcache.contains l = true <;> simp only [hl] <;> rfl

theorem Core.ne_default_of_run {co : Core} (h : co.run.isSome = true) : co ≠ {} := fun e => by
  rw [e] at h
  exact absurd h (by decide)

/-- Core `c` has a plan. -/
def Dev.HasRun (d : Dev) (c : Nat) : Prop := (d.core c).run.isSome = true

section
variable {f h : Core → Core} {c : Nat} (hf : ApartFromCache f)
include hf

theorem Dev.updCore_updCore_comm {d : Dev} {k : Nat} (run : d.HasRun c) (hk : k < c ∨ k ≠ c ∧ SMap.Leads c d.cores) :
    (d.updCore c f).updCore k h = (d.updCore k h).updCore c f := by
  have hne : k ≠ c := by omega
  have hput := SMap.put_comm (fun _ => ({} : Core)) d.cores c k (f (d.core c)) (h (d.core k))
    (Core.ne_default_of_run (hf.runs _ run)) hk
  unfold Dev.updCore
  rw [Dev.core_setCore_other d c k _ hne, Dev.core_setCore_other d k c _ hne.symm]
  exact congrArg (fun cs => { d with cores := cs }) hput

theorem Dev.updCore_updCore_self {d : Dev} (run : d.HasRun c) (hh : CacheAlone h) :
    (d.updCore c f).updCore c h = (d.updCore c h).updCore c f := by
  obtain ⟨g, hg⟩ := hh
  have hcomm : h (f (d.core c)) = f (h (d.core c)) := by rw [hg, hg, hf.dcache, hf.comm]
  have hrun : (h (d.core c)).run.isSome = true := by rw [hg]; exact run
  unfold Dev.updCore
  rw [Dev.core_setCore_self, Dev.core_setCore_self, Dev.setCore_setCore d c _ _ (hf.runs _ run), Dev.setCore_setCore d c _ _ hrun, hcomm]

end

theorem Dev.hasRun_updCore {d : Dev} {c k : Nat} {h : Core → Core} (run : d.HasRun c) (hh : CacheAlone h) : (d.updCore k h).HasRun c := by
  obtain ⟨g, hg⟩ := hh
  rw [Dev.HasRun, (d.updCore_cachesOnly k h fun co => ⟨_, hg co⟩).run c]
  exact run

theorem Dev.leads_updCore_self {d : Dev} {c : Nat} {h : Core → Core} (run : d.HasRun c) (hh : CacheAlone h) :
    SMap.Leads c (d.updCore c h).cores := by
  obtain ⟨g, hg⟩ := hh
  refine SMap.leads_put_self (fun _ => ({} : Core)) d.cores c _ (Core.ne_default_of_run ?_)
  rw [hg]
  exact run

/-- A cluster's cache once it has taken a line. -/
def Dev.cacheWith (d : Dev) (cl : Nat) (x : CacheLine) : List CacheLine :=
  match (d.cluster cl).cache.findIdx? fun y => y.line = x.line with
  | some i => (d.cluster cl).cache.set i x
  | none => addBounded 262144 (Config.freeChoice d.freeCtr) (d.cluster cl).cache x

/-- Can a cluster's cache take a line without giving one up? -/
def Dev.cacheRoom (d : Dev) (cl : Nat) (x : CacheLine) : Bool :=
  ((d.cluster cl).cache.findIdx? fun y => y.line = x.line).isSome || decide ((d.cluster cl).cache.length < 262144)

theorem Dev.cacheLine_eq (d : Dev) (core : Nat) (x : CacheLine) :
    let d1 := d.setCluster (core / 8) { d.cluster (core / 8) with cache := d.cacheWith (core / 8) x }
    d.cacheLine core x = (if d.cacheRoom (core / 8) x then d1
      else (List.range 8).foldl (fun d' i => d'.updCore (8 * (core / 8) + i) fun co =>
        { co with dcache := co.dcache.filter fun l => (d.cacheWith (core / 8) x).any fun y => y.line = l }) d1).updCore core fun co =>
          if co.dcache.contains x.line then co
          else { co with dcache := addBounded 1024 (Config.freeChoice d.freeCtr) co.dcache x.line } := rfl

/-- Steps that change caches alone, each of which does not depend on the plan, do not depend on it together. -/
theorem Dev.foldl_updCore {α : Type} {f : Core → Core} {c : Nat} {step : Dev → α → Dev} (only : ∀ d x, Dev.cachesOnly d (step d x))
    (comm : ∀ d x, d.HasRun c → step (d.updCore c f) x = (step d x).updCore c f) (xs : List α) {d : Dev} (run : d.HasRun c) :
    xs.foldl step (d.updCore c f) = (xs.foldl step d).updCore c f := by
  induction xs generalizing d with
  | nil => rfl
  | cons x xs ih =>
    rw [List.foldl_cons, List.foldl_cons, comm d x run]
    exact ih (by rw [Dev.HasRun, (only d x).run]; exact run)

/-- A piece of a load changes what caches hold, and nothing else. -/
def Dev.loadedPiece (d : Dev) (w : Who) (p : Nat × Nat) : Dev :=
  match d.locate w.ctx p.1 false with
  | .ok m => match w.cacheOf m with
    | some co => d.cacheRead co (m.addr p.1) p.2
    | none => d
  | .error _ => d

theorem Dev.loadedPiece_cachesOnly (d : Dev) (w : Who) (p : Nat × Nat) : d.cachesOnly (d.loadedPiece w p) := by
  unfold Dev.loadedPiece
  split
  · split
    · exact d.cacheRead_cachesOnly _ _ _
    · exact d.cachesOnly_refl
  · exact d.cachesOnly_refl

theorem Who.cacheOf_core {w : Who} {c co : Nat} {m : Mapping} (hw : w.src = .core c) (h : w.cacheOf m = some co) : co = c := by
  unfold Who.cacheOf at h
  split at h
  next hsrc _ =>
    obtain rfl : _ = c := by simpa [hw] using hsrc.symm
    simpa using h.symm
  next => exact absurd h nofun

section
variable {f : Core → Core} {c : Nat} (hf : ApartFromCache f)
include hf

/-- The data caches of a cluster change in ascending order of their cores: as soon as core `c`'s has, its place in the list is settled. -/
theorem Dev.clusterCores_updCore {h : Core → Core} (hh : CacheAlone h) {d : Dev} (run : d.HasRun c) (n : Nat) :
    let all := fun (d : Dev) => (List.range n).foldl (fun d i => d.updCore (8 * (c / 8) + i) h) d
    all (d.updCore c f) = (all d).updCore c f ∧ (all d).HasRun c ∧ (c % 8 < n → SMap.Leads c (all d).cores) := by
  induction n with
  | zero => exact ⟨rfl, run, fun h => absurd h (Nat.not_lt_zero _)⟩
  | succ n ih =>
    obtain ⟨comm, run, leads⟩ := ih
    simp only [List.range_succ, List.foldl_append, List.foldl_cons, List.foldl_nil, comm]
    refine ⟨?_, Dev.hasRun_updCore run hh, fun hn => ?_⟩
    · by_cases hc : 8 * (c / 8) + n = c
      · rw [hc]
        exact Dev.updCore_updCore_self hf run hh
      · refine Dev.updCore_updCore_comm hf run ?_
        by_cases hlt : c % 8 < n
        · exact .inr ⟨hc, leads hlt⟩
        · exact .inl (by omega)
    · by_cases hc : 8 * (c / 8) + n = c
      · rw [hc]
        exact Dev.leads_updCore_self run hh
      · exact SMap.leads_put_other (fun _ => ({} : Core)) _ _ _ _ hc (leads (by omega))

theorem Dev.cacheLine_updCore {d : Dev} (run : d.HasRun c) (x : CacheLine) :
    (d.updCore c f).cacheLine c x = (d.cacheLine c x).updCore c f := by
  have add := cacheAlone_add (Config.freeChoice d.freeCtr) x.line
  have hroom : (d.updCore c f).cacheRoom (c / 8) x = d.cacheRoom (c / 8) x := rfl
  rw [Dev.cacheLine_eq, Dev.cacheLine_eq, hroom]
  by_cases h : d.cacheRoom (c / 8) x = true
  · rw [if_pos h, if_pos h]
    exact Dev.updCore_updCore_self hf (d := d.setCluster (c / 8) _) run add
  · rw [if_neg h, if_neg h]
    obtain ⟨comm, run', -⟩ := Dev.clusterCores_updCore hf (cacheAlone_filter _) (d := d.setCluster (c / 8) _) run 8
    exact (congrArg (Dev.updCore · c _) comm).trans (Dev.updCore_updCore_self hf run' add)

theorem Dev.cacheRead_updCore {d : Dev} (run : d.HasRun c) (a n : Nat) :
    (d.updCore c f).cacheRead c a n = (d.cacheRead c a n).updCore c f := by
  have lines := Dev.foldl_updCore (step := fun e l => e.cacheLine c (d.clusterLine (c / 8) l)) (fun e l => e.cacheLine_cachesOnly _ _)
    (fun e l run => Dev.cacheLine_updCore hf run _) (linesOf a n) run
  unfold Dev.cacheRead
  refine Eq.trans (congrArg (fun e : Dev => if (linesOf a n).any fun l => d.staleLine (c / 8) l then e.tickFree else e) lines) ?_
  simp only
  split <;> rfl

/-- A core's load leaves the same in the caches whatever plan the core runs. -/
theorem Dev.loaded_updCore {d : Dev} (run : d.HasRun c) (w : Who) (hw : w.src = .core c) (va n : Nat) :
    (d.updCore c f).loaded w va n = (d.loaded w va n).updCore c f := by
  refine Dev.foldl_updCore (step := fun d p => d.loadedPiece w p) (fun d p => d.loadedPiece_cachesOnly w p) (fun d p run => ?_)
    (pieces va n) run
  have here : (d.updCore c f).locate w.ctx p.1 false = d.locate w.ctx p.1 false := rfl
  simp only [Dev.loadedPiece, here]
  split
  · split
    next co hco =>
      obtain rfl := Who.cacheOf_core hw hco
      exact Dev.cacheRead_updCore hf run _ _
    next => rfl
  · rfl

end

/-! ### The end of a plan (R95, R128) -/

theorem exec_nop_at {s : State} {c : CoreId} {r : PlanRun} {i : SeqInstr} (h : s.SeqAt c.val r i) (op : i.op = 0) :
    exec (.nop c) s = .next { s with dev := s.dev.passed c.val r i } := by
  rw [← Dev.advance_passed i h.run]
  exact onDev_seqStep_at h (mine := fun i => i.op = 0) (decide_eq_true op) fun d _ i => d.advance c.val i

theorem exec_endItem_at {s : State} {c : CoreId} {r : PlanRun} {i : SeqInstr} (h : s.SeqAt c.val r i) (op : i.op = 7) :
    exec (.endItem c) s = .next { s with dev := (s.dev.sessionOpen c.val r).advance c.val i } :=
  onDev_seqStep_at h (mine := fun i => i.op = 7) (decide_eq_true op) fun d r i => (d.sessionOpen c.val r).advance c.val i

theorem exec_endPlan_at {s : State} {c : CoreId} {r : PlanRun} {i : SeqInstr} (h : s.SeqAt c.val r i) (op : i.op = 0x0F) :
    exec (.endPlan c) s = .next { s with dev := s.dev.issueEndPlan c.val r i } :=
  onDev_seqStep_at h (mine := fun i => i.op = 0x0F) (decide_eq_true op) fun d r i => d.issueEndPlan c.val r i

/-- The device after an open session has raised its status (R128), or the device as it was. -/
theorem Dev.sessionOpen_eq (d : Dev) (c : Nat) (r : PlanRun) : d.sessionOpen c r = if (d.core c).session = none then d
    else (d.planStatus r .sparseOpInvalid).raiseAt r.ctx .sparseOpInvalid 0 .core c := by
  cases h : (d.core c).session <;> simp [Dev.sessionOpen, h]

@[simp] theorem Dev.core_sessionOpen (d : Dev) (c : Nat) (r : PlanRun) (k : Nat) : (d.sessionOpen c r).core k = d.core k := by
  rw [Dev.sessionOpen_eq]
  split
  · rfl
  · exact (Dev.raiseAt_same _ _ _ _ _ _).core k

/-- A core whose plan's END_PLAN has issued. -/
def Core.endRun (co : Core) : Core := { co with run := co.run.map fun r => { r with ended := true } }

theorem apartFromCache_endRun : ApartFromCache Core.endRun :=
  ⟨fun _ _ => rfl, fun _ => rfl, fun co h => by rw [Core.endRun, Option.isSome_map]; exact h⟩

theorem Dev.endRun_goesOn {d : Dev} {c : Nat} (run : d.HasRun c) (r : PlanRun) : (d.updCore c Core.endRun).goesOn c r = d.goesOn c r := by
  have hcore := Dev.setCore_setCore d c (d.core c).endRun { d.core c with run := some r, valveWait := none, queueWaits := false }
    (apartFromCache_endRun.runs _ run)
  unfold Dev.goesOn Dev.updCore
  rw [Dev.core_setCore_self]
  exact congrArg (fun e : Dev => ({ e with fetched := e.fetched.filter fun x => x.cmd != seqKey c } : Dev)) hcore

theorem Dev.afterFetch_endRun {d : Dev} {c : Nat} (run : d.HasRun c) (r : PlanRun) :
    (d.updCore c Core.endRun).afterFetch c r = (d.afterFetch c r).updCore c Core.endRun :=
  Dev.loaded_updCore apartFromCache_endRun run _ rfl _ _

theorem Dev.afterFetch_ended (d : Dev) (c : Nat) (r : PlanRun) : d.afterFetch c { r with ended := true } = d.afterFetch c r := rfl

/-- END_PLAN: its plan goes on as ended behind it, and is settled. -/
theorem Dev.issueEndPlan_eq {d : Dev} {c : Nat} {r : PlanRun} (i : SeqInstr) (run : (d.core c).run = some r) :
    d.issueEndPlan c r i =
      (((d.sessionOpen c r).afterFetch c r).goesOn c ({ r with ended := true }.after i)).settle c := by
  have run1 : ((d.sessionOpen c r).core c).run = some r := by rw [Dev.core_sessionOpen, run]
  have run2 : (((d.sessionOpen c r).updCore c Core.endRun).core c).run = some { r with ended := true } := by
    rw [Dev.core_updCore_self, Core.endRun, run1]
    rfl
  have has : (d.sessionOpen c r).HasRun c := by rw [Dev.HasRun, run1]; rfl
  have has' : ((d.sessionOpen c r).afterFetch c r).HasRun c := by rw [Dev.HasRun, Dev.run_afterFetch]; exact has
  have issue : d.issueEndPlan c r i = ((d.sessionOpen c r).updCore c Core.endRun).advance c i := rfl
  rw [issue, Dev.advance_passed i run2, Dev.passed, Dev.afterFetch_endRun has, Dev.afterFetch_ended, Dev.endRun_goesOn has']

/-- A plan is quiet by what its command started. -/
theorem Core.planQuiet_cmd {co : Core} {r r' : PlanRun} (h : r'.cmd = r.cmd) : co.planQuiet r' = co.planQuiet r := by
  unfold Core.planQuiet
  rw [h]

/-- Whether a plan is quiet does not depend on what the core fetches. -/
theorem Dev.planQuiet_goesOn_afterFetch (d : Dev) (c : Nat) (r r' : PlanRun) (x : PlanRun) :
    (((d.afterFetch c r).goesOn c r').core c).planQuiet x = (d.core c).planQuiet x := by
  obtain ⟨l, hcore⟩ := (d.loaded_cachesOnly (whoSeq c r) ((r.va + 40 * r.pc) % 2 ^ 48) 40).2 c
  rw [Dev.core_goesOn_self, Dev.afterFetch, hcore]
  rfl

theorem Dev.settle_busy {d : Dev} {c : Nat} {r : PlanRun} (run : (d.core c).run = some r) (busy : (d.core c).planQuiet r = false) :
    d.settle c = d := by
  simp [Dev.settle, Core.planComplete, run, busy]

/-- A core's own plan that has ended completes once it is quiet and its taken items are done (R95). -/
theorem Dev.settle_own {d : Dev} {c : Nat} {r : PlanRun} (run : (d.core c).run = some r) (ended : r.ended = true)
    (quiet : (d.core c).planQuiet r = true) (back : r.takenOut = 0) (own : r.owner = none) :
    d.settle c = (d.setCore c ((d.core c).nextPlan r)).cmdWork r.cmd := by
  simp [Dev.settle, Dev.settleOwn, Core.planComplete, run, ended, quiet, back, own]

theorem PlanRun.ended_after {r : PlanRun} (h : r.ended = true) (i : SeqInstr) : (r.after i).ended = true := by
  simp [PlanRun.after, PlanRun.moveTo, h]

/-- What a core is set to after its plan has gone on replaces what the plan left there. -/
theorem Dev.setCore_goesOn (d : Dev) (c : Nat) (r : PlanRun) (co : Core) :
    (d.goesOn c r).setCore c co = { d.setCore c co with fetched := d.fetched.filter fun x => x.cmd != seqKey c } :=
  congrArg (fun e : Dev => ({ e with fetched := d.fetched.filter fun x => x.cmd != seqKey c } : Dev))
    (Dev.setCore_setCore d c { d.core c with run := some r, valveWait := none, queueWaits := false } co rfl)

theorem Core.nextPlan_run (co : Core) {r r' : PlanRun} (cmd : r'.cmd = r.cmd) (owner : r'.owner = r.owner) :
    ({ co with run := some r', valveWait := none, queueWaits := false } : Core).nextPlan r' =
      { co.nextPlan r with valveWait := none, queueWaits := false } := by
  unfold Core.nextPlan
  rw [cmd, owner]

/-- A quiet plan of a core's own is over with its END_PLAN. -/
theorem Dev.issueEndPlan_quiet {d : Dev} {c : Nat} {r : PlanRun} (i : SeqInstr) (run : (d.core c).run = some r) (own : r.owner = none)
    (back : r.takenOut = 0) (quiet : (d.core c).planQuiet r = true) : d.issueEndPlan c r i = (d.sessionOpen c r).planOver c r := by
  obtain ⟨R, hR⟩ : ∃ R, R = { r with ended := true }.after i := ⟨_, rfl⟩
  have cmd : R.cmd = r.cmd := hR ▸ rfl
  have quiet' : (((((d.sessionOpen c r).afterFetch c r).goesOn c R).core c).planQuiet R) = true := by
    rw [Dev.planQuiet_goesOn_afterFetch, Dev.core_sessionOpen, Core.planQuiet_cmd cmd, quiet]
  rw [Dev.issueEndPlan_eq i run, ← hR, Dev.settle_own (r := R) (by rw [Dev.core_goesOn_self]) (hR ▸ PlanRun.ended_after rfl i) quiet'
    (hR ▸ back) (hR ▸ own), Dev.core_goesOn_self, cmd, Core.nextPlan_run _ cmd (hR ▸ rfl), Dev.setCore_goesOn]
  rfl

/-- A plan that is not quiet goes on as ended. -/
theorem Dev.issueEndPlan_busy {d : Dev} {c : Nat} {r : PlanRun} (i : SeqInstr) (run : (d.core c).run = some r)
    (busy : (d.core c).planQuiet r = false) :
    d.issueEndPlan c r i = ((d.sessionOpen c r).afterFetch c r).goesOn c ({ r with ended := true }.after i) := by
  rw [Dev.issueEndPlan_eq i run]
  refine Dev.settle_busy (r := { r with ended := true }.after i) (by rw [Dev.core_goesOn_self]) ?_
  rw [Dev.planQuiet_goesOn_afterFetch, Dev.core_sessionOpen]
  exact busy

/-! ### Rejected instructions (R94, R96) -/

/-- Core `c`'s plan `r` is at the instruction `i`, whatever `i` is: its context runs, and no phase switch and no remote signal is in
progress. -/
structure State.FetchAt (s : State) (c : Nat) (r : PlanRun) (i : SeqInstr) : Prop where
  work : s.clk.stage = .work
  run : (s.dev.core c).run = some r
  steady : (s.dev.core c).switchTo = none
  asked : (s.dev.core c).signalAsked = none
  may : s.dev.mayRun r.ctx = true
  next : s.dev.seqNext c r = .got i

/-- An instruction that breaks R94 is rejected, whatever command finds it. -/
theorem Dev.seqStep_invalid {s : State} {c : Nat} {r : PlanRun} {i : SeqInstr} (h : s.FetchAt c r i) (bad : i.ok = false)
    (mine : SeqInstr → Bool) (f : Dev → PlanRun → SeqInstr → Dev) :
    s.dev.seqStep s.clk c mine f = s.dev.reject c r i .planInvalid := by
  unfold Dev.seqStep
  simp [h.run, h.work, h.steady, h.asked, h.may, h.next, bad]

/-- An engine or stream instruction in a cluster whose wells another context holds is rejected, whatever command finds it. -/
theorem Dev.seqStep_notOwned {s : State} {c : Nat} {r : PlanRun} {i : SeqInstr} (h : s.FetchAt c r i) (ok : i.ok = true)
    (lo : 1 ≤ i.op) (hi : i.op ≤ 4) (other : (s.dev.cluster (c / 8)).holder ≠ some r.ctx) (mine : SeqInstr → Bool)
    (f : Dev → PlanRun → SeqInstr → Dev) : s.dev.seqStep s.clk c mine f = s.dev.reject c r i .wellNotOwned := by
  unfold Dev.seqStep
  simp [h.run, h.work, h.steady, h.asked, h.may, h.next, ok, lo, hi, other]

/-- Every VECTOR and SPARSE row is one step of its core's sequencer. -/
theorem exec_engineRow (c : CoreId) (s : State) {x : (CoreId → Instr) × Nat} (hx : x ∈ vectorRows ++ sparseRows) :
    ∃ mine f, exec (x.1 c) s = onDev s fun clk d => d.seqStep clk c.val mine f := by
  rcases List.mem_append.1 hx with hx | hx
  · exact ⟨_, _, exec_vectorRow c s x hx⟩
  · exact ⟨_, _, exec_sparseRow c s x hx⟩

end Sys2Proof.Machine

open Sys2Proof.Machine
namespace Sys2Proof

/-- Settles O13: a plan moves on, ends or completes by `Dev.advance_passed` and the two outcomes of END_PLAN; a rejected instruction
is rejected whatever row finds it. -/
theorem plansMoveOnRejectAndEnd : Obligations.PlansMoveOnRejectAndEnd := by
  refine ⟨fun s c r i hs => ⟨exec_nop_at hs, fun op closed => ?_, fun op opened => ?_, fun going => ?_⟩,
    fun s c r i hs op own back => ⟨fun quiet => ?_, fun busy => ?_⟩,
    fun s c r i on work run steady asked may next => ⟨fun bad => ?_, fun ok lo hi other x hx => ?_⟩⟩
  · rw [exec_endItem_at hs op, Dev.sessionOpen_eq, if_pos closed, Dev.advance_passed i hs.run]
  · have run := (s.dev.core_sessionOpen c.val r c.val).symm ▸ hs.run
    rw [exec_endItem_at hs op, Dev.advance_passed i run, Dev.sessionOpen_eq, if_neg opened]
  · rw [← Dev.advance_passed i hs.run, Dev.advance_running i hs.run going]
  · rw [exec_endPlan_at hs op, Dev.issueEndPlan_quiet i hs.run own back quiet, Dev.sessionOpen_eq]
  · rw [exec_endPlan_at hs op, Dev.issueEndPlan_busy i hs.run busy, Dev.sessionOpen_eq]
  · have hexec : exec (.nop c) s = onDev s fun clk d => d.seqStep clk c.val (fun i => i.op = 0) fun d _ i => d.advance c.val i := rfl
    rw [hexec, onDev_on on, Dev.seqStep_invalid ⟨work, run, steady, asked, may, next⟩ bad]
  · obtain ⟨mine, f, hexec⟩ := exec_engineRow c s hx
    rw [hexec, onDev_on on, Dev.seqStep_notOwned ⟨work, run, steady, asked, may, next⟩ ok lo hi other]

end Sys2Proof

end

section
/-! PROOFS. Combine units and update units take their items in order (R182 to R186, R272 to R285). That no access, status or finding
touches the commands in force and the work that stands at the units, `Dev.unitWork`, is said once, for every operation on the way. -/

namespace Sys2Proof.Machine

/-! ### What accesses, statuses and findings leave alone (R241, R268, R291, R303, R310, R336, R406, R417) -/

/-- What stands at the units of queue commands: the commands in force, and the work they have given to each kind of unit. -/
structure UnitWork where
  inForce : List QCmd
  selects : List SelectRun
  rounds : List RoundRun
  combines : List CombineRun
  updates : List UpdateRun
  allsums : List Allsum
  clusters : SMap Cluster

/-- The work that stands at a device's units. -/
def Dev.unitWork (d : Dev) : UnitWork := ⟨d.inForce, d.selects, d.rounds, d.combines, d.updates, d.allsums, d.clusters⟩

section
variable {d e : Dev} (h : e.unitWork = d.unitWork)
include h

theorem Dev.inForce_of_unitWork : e.inForce = d.inForce := congrArg UnitWork.inForce h
theorem Dev.combines_of_unitWork : e.combines = d.combines := congrArg UnitWork.combines h
theorem Dev.updates_of_unitWork : e.updates = d.updates := congrArg UnitWork.updates h
theorem Dev.clusters_of_unitWork : e.clusters = d.clusters := congrArg UnitWork.clusters h

end

theorem Dev.unitWork_foldl {α : Type} {step : Dev → α → Dev} (h : ∀ d x, (step d x).unitWork = d.unitWork) (xs : List α)
    (d : Dev) : (xs.foldl step d).unitWork = d.unitWork := by
  induction xs generalizing d with
  | nil => rfl
  | cons x xs ih => rw [List.foldl_cons, ih, h]

/-- Steps that may meet a bar, none of which touches more than an access does. -/
theorem Dev.unitWork_foldl_ok {α : Type} {step : Dev → α → Except Bar Dev}
    (h : ∀ d x e, step d x = .ok e → e.unitWork = d.unitWork) (xs : List α) {d e : Dev}
    (ok : xs.foldl (fun (r : Except Bar Dev) x => match r with
      | .error b => .error b
      | .ok d => step d x) (.ok d) = .ok e) : e.unitWork = d.unitWork := by
  refine List.foldlRecOn (motive := fun r : Except Bar Dev => ∀ e, r = .ok e → e.unitWork = d.unitWork) xs _
    (fun e he => by rw [Except.ok.inj he]) (fun r hr x _ e he => ?_) e ok
  split at he
  · exact absurd he nofun
  next d1 => exact (h d1 x e he).trans (hr d1 rfl)

/-! Statuses and findings -/

theorem Dev.sameBut.unitWork_eq {d d' : Dev} (h : d.sameBut d') : d'.unitWork = d.unitWork := by
  obtain ⟨_, _, rfl⟩ := h
  rfl

@[simp] theorem Dev.unitWork_bump (d : Dev) (i j e n : Nat) : (d.bump i j e n).unitWork = d.unitWork := rfl
@[simp] theorem Dev.unitWork_updCtx (d : Dev) (k : Nat) (f : Ctx → Ctx) : (d.updCtx k f).unitWork = d.unitWork := rfl
@[simp] theorem Dev.unitWork_raise (d : Dev) (k : Nat) (st : Status) : (d.raise k st).unitWork = d.unitWork :=
  (d.raiseAt_same k st _ _ _).unitWork_eq
@[simp] theorem Dev.unitWork_unreachable (d : Dev) (k : Nat) : (d.unreachable k).unitWork = d.unitWork := d.unitWork_raise k _
@[simp] theorem Dev.unitWork_uncorrected (d : Dev) (k : Nat) : (d.uncorrected k).unitWork = d.unitWork :=
  (d.uncorrected_same k).unitWork_eq
@[simp] theorem Dev.unitWork_raiseUncorrected (d : Dev) (k : Nat) (st : Status) (x : UnitKind) (y : Nat) :
    (d.raiseUncorrected k st x y).unitWork = d.unitWork := (d.raiseUncorrected_same k st x y).unitWork_eq
@[simp] theorem Dev.unitWork_residueError (d : Dev) (k sub : Nat) (x : UnitKind) (y : Nat) :
    (d.residueError k sub x y).unitWork = d.unitWork := by
  rw [Dev.residueError, Dev.flagN, Dev.unitWork_bump, Dev.unitWork_updCtx, Dev.unitWork_raiseUncorrected]
@[simp] theorem Dev.unitWork_tickFree (d : Dev) : d.tickFree.unitWork = d.unitWork := rfl
@[simp] theorem Dev.unitWork_poisonLine (d : Dev) (l : Nat) : (d.poisonLine l).unitWork = d.unitWork := rfl

theorem Dev.unitWork_logs (d : Dev) (logs count seq : SMap Nat) :
    ({ d with logs := logs, logCount := count, logSeq := seq } : Dev).unitWork = d.unitWork := rfl

@[simp] theorem Dev.unitWork_logStatus (d : Dev) (c : Clock) (dom : Nat) (st : Status) (sev detail : Nat)
    (kind : UnitKind) (unit : Nat) : (d.logStatus c dom st sev detail kind unit).unitWork = d.unitWork := by
  unfold Dev.logStatus Dev.log
  simp only
  split
  · exact d.unitWork_logs _ _ _
  · exact (Dev.unitWork_bump _ _ _ _ _).trans (d.unitWork_logs _ _ _)

@[simp] theorem Dev.unitWork_eccCount (d : Dev) (f : EccFinding) (a : Nat) : (d.eccCount f a).unitWork = d.unitWork := by
  unfold Dev.eccCount
  split <;> exact d.unitWork_bump _ _ _ _

@[simp] theorem Dev.unitWork_eccAll (d : Dev) (c : Clock) (k : Option Nat) (fs : List EccFinding) :
    (d.eccAll c k fs).unitWork = d.unitWork := by
  refine Dev.unitWork_foldl (fun d f => ?_) fs d
  unfold Dev.eccOne
  simp only
  split
  · rfl
  · split
    · simp
    · split <;> simp

@[simp] theorem Dev.unitWork_valveTouch (d : Dev) (k v : Nat) (b : Bool) : (d.valveTouch k v b).unitWork = d.unitWork := by
  unfold Dev.valveTouch
  simp only
  split
  · split
    · exact Dev.unitWork_raiseUncorrected _ _ _ _ _
    · rfl
  · split
    · exact d.unitWork_raiseUncorrected _ _ _ _
    · rfl

@[simp] theorem Dev.unitWork_takeWait (d : Dev) (x : QCmd) : (d.takeWait x).unitWork = d.unitWork := by
  unfold Dev.takeWait Dev.grantWait
  split
  · rfl
  · simp only [Bool.false_eq_true, if_false]
    split <;> exact d.unitWork_valveTouch _ _ _

/-! The fabric -/

@[simp] theorem Dev.unitWork_setLink (d : Dev) (l : Nat) (k : Link) : (d.setLink l k).unitWork = d.unitWork := rfl

@[simp] theorem Dev.unitWork_frameOut (d : Dev) (l port : Nat) (p : Sent) (b : Bool) : (d.frameOut l port p b).unitWork = d.unitWork := by
  unfold Dev.frameOut
  simp only
  split
  · exact (Dev.unitWork_bump _ _ _ _ _).trans (Dev.unitWork_foldl (fun _ _ => by rfl) _ _)
  · exact Dev.unitWork_foldl (fun _ _ => by rfl) _ _

@[simp] theorem Dev.unitWork_flushQueue (l : Nat) (xs : List (Nat × Sent)) (d : Dev) : (Dev.flushQueue l xs d).unitWork = d.unitWork := by
  induction xs generalizing d with
  | nil => rfl
  | cons x xs ih =>
    unfold Dev.flushQueue
    simp only
    split
    · simp [ih]
    · split <;> simp [ih]

@[simp] theorem Dev.unitWork_sendOn (d : Dev) (l : Nat) (p : Sent) : (d.sendOn l p).unitWork = d.unitWork := by
  unfold Dev.sendOn Dev.flushLink
  simp only
  split <;> simp

@[simp] theorem Dev.unitWork_regulate (d : Dev) (l : Nat) (p : Sent) : (d.regulate l p).unitWork = d.unitWork := by
  unfold Dev.regulate Dev.regPass
  simp only
  split
  · exact d.unitWork_sendOn l p
  · split
    · rfl
    · exact Dev.unitWork_sendOn _ l p

@[simp] theorem Dev.unitWork_shape (d : Dev) (x : Shaped) : (d.shape x).unitWork = d.unitWork := by
  unfold Dev.shape
  simp only
  split
  · exact d.unitWork_regulate _ _
  · split
    · exact d.unitWork_regulate _ _
    · split
      · rfl
      · exact Dev.unitWork_regulate _ _ _

@[simp] theorem Dev.unitWork_ownNoRoute (d : Dev) (h : Nat) : (d.ownNoRoute h).unitWork = d.unitWork := by
  unfold Dev.ownNoRoute
  split <;> rfl

@[simp] theorem Dev.unitWork_launch (d : Dev) (p : Sent) (dest : Nat) : (d.launch p dest).1.unitWork = d.unitWork := by
  unfold Dev.launch
  split
  · rfl
  · split
    · rfl
    · split <;> simp
    · simp

theorem Dev.unitWork_sendTo (d : Dev) (c : Clock) (k : Option Nat) (part dest e2e : Nat) (x : Content) :
    (d.sendTo c k part dest e2e x).1.unitWork = d.unitWork := Dev.unitWork_launch _ _ _

theorem Dev.unitWork_sendSlot (d : Dev) (c : Clock) (k : Option Nat) (part slot dest e2e : Nat) (x : Content) :
    (d.sendSlot c k part slot dest e2e x).1.unitWork = d.unitWork := Dev.unitWork_launch _ _ _

@[simp] theorem Dev.unitWork_request (d : Dev) (c : Clock) (w : Who) (o : ReqOwner) (f : Frame) (seq : Nat) (k : MemReqKind) :
    (d.request c w o f seq k).1.unitWork = d.unitWork := by
  have sent : ∀ (e : Dev) (b : Bool) (k : Option Nat) (part slot dest n : Nat) (x : Content),
      (if b then e.sendTo c k part dest n x else e.sendSlot c k part slot dest n x).1.unitWork = e.unitWork := by
    intro e b k part slot dest n x
    split
    · exact e.unitWork_sendTo c k part dest n x
    · exact e.unitWork_sendSlot c k part slot dest n x
  have recorded : ∀ (x : Dev × Bool) (r : Req) (n : Nat),
      (if x.2 then (x.1.addReq r, some n) else (x.1, none)).1.unitWork = x.1.unitWork := by
    intro x r n
    split <;> rfl
  unfold Dev.request
  split
  · exact d.unitWork_bump _ _ _ _
  · exact (recorded _ _ _).trans (sent (d.takeE2e _).1 _ _ _ _ _ _ _)

/-- A bulk transfer that has been handed to the fabric is recorded where it found a route, and given up where it found none. -/
theorem Dev.unitWork_transferred {d : Dev} {x : Dev × Bool} (h : x.1.unitWork = d.unitWork) (bs : List SentBulk) (rs : List Req)
    (i j e n k : Nat) (st : Status) :
    (if x.2 then ({ x.1 with sentBulks := bs } : Dev).bump i j e n else ({ x.1 with reqs := rs } : Dev).raise k st).unitWork =
      d.unitWork := by
  split
  · exact h
  · exact (Dev.unitWork_raise _ _ _).trans h

@[simp] theorem Dev.unitWork_pumpBulks (d : Dev) (c : Clock) : (d.pumpBulks c).unitWork = d.unitWork := by
  refine Dev.unitWork_foldl (fun d b => ?_) _ d
  simp only
  split
  · rfl
  · refine Dev.unitWork_transferred ?_ _ _ _ _ _ _ _ _
    rw [Dev.unitWork_sendTo]
    rfl

@[simp] theorem Dev.unitWork_closeBulks (d : Dev) (c : Clock) (p : OpenBulk → Bool) : (d.closeBulks c p).unitWork = d.unitWork :=
  Dev.unitWork_pumpBulks _ c

theorem Dev.unitWork_closeFor (d : Dev) (c : Clock) (w : Who) : (d.closeFor c w).unitWork = d.unitWork := d.unitWork_closeBulks c _

theorem Dev.unitWork_gatewayStore (d : Dev) (c : Clock) (w : Who) (o : ReqOwner) (g a : Nat) (bs : List Byte) (p : Bool) :
    (d.gatewayStore c w o g a bs p).unitWork = d.unitWork := by
  unfold Dev.gatewayStore
  simp only [Dev.unitWork_closeBulks]
  split <;> exact Dev.unitWork_closeBulks _ _ _

/-! Stores -/

@[simp] theorem Dev.unitWork_countPartial (d : Dev) (a n : Nat) : (d.countPartial a n).unitWork = d.unitWork := by
  refine Dev.unitWork_foldl (fun d l => ?_) _ d
  split <;> rfl

@[simp] theorem Dev.unitWork_storeDev (d : Dev) (k a : Nat) (bs : List Byte) (p : Bool) : (d.storeDev k a bs p).unitWork = d.unitWork := by
  unfold Dev.storeDev Dev.memStore
  rw [Dev.unitWork_updCtx]
  split
  · rfl
  · exact Dev.unitWork_countPartial _ _ _

@[simp] theorem Dev.unitWork_lsStore (d : Dev) (c : Clock) (w : Who) (va : Nat) (bs : List Byte) (p : Bool) :
    (d.lsStore c w va bs p).unitWork = d.unitWork := by
  unfold Dev.lsStore
  split <;> rfl

@[simp] theorem Dev.unitWork_freshen (d : Dev) (w : Who) (f : Frame) (a : Nat) (bs : List Byte) (p : Bool) :
    (d.freshen w f a bs p).unitWork = d.unitWork := rfl

/-- Only cores read and write through caches (R108). -/
theorem Who.cacheOf_unit {w : Who} (unit : ∀ c, w.src ≠ .core c) (m : Mapping) : w.cacheOf m = none := by
  unfold Who.cacheOf
  split
  next c hsrc _ => exact absurd hsrc (unit c)
  · rfl

section
variable {w : Who} (unit : ∀ c, w.src ≠ .core c)
include unit

theorem Dev.unitWork_storePiece {d e : Dev} {c : Clock} {o : ReqOwner} {va : Nat} {bs : List Byte} {p : Bool}
    (h : d.storePiece c w o va bs p = .ok e) : e.unitWork = d.unitWork := by
  unfold Dev.storePiece at h
  split at h
  · exact absurd h nofun
  next m _ =>
    simp only [Who.cacheOf_unit unit m] at h
    split at h
    · split at h
      · exact absurd h nofun
      · obtain rfl := Except.ok.inj h
        simp
    · obtain rfl := Except.ok.inj h
      simp [Dev.unitWork_gatewayStore]
    · obtain rfl := Except.ok.inj h
      split <;> simp

/-- A unit's store touches no more than an access does. -/
theorem Dev.unitWork_unitStore {d e : Dev} {c : Clock} {va : Nat} {bs : List Byte} {p : Bool} (h : d.unitStore c w va bs p = .ok e) :
    e.unitWork = d.unitWork :=
  Dev.unitWork_foldl_ok (fun _ _ _ ok => Dev.unitWork_storePiece unit ok) (pieces va bs.length) h

end

/-! ### Commands in force (R376) -/

theorem Dev.cmd_of_unitWork {d e : Dev} (h : e.unitWork = d.unitWork) (id : Nat) : e.cmd id = d.cmd id := by
  unfold Dev.cmd
  rw [Dev.inForce_of_unitWork h]

theorem Dev.id_of_cmd {d : Dev} {id : Nat} {x : QCmd} (h : d.cmd id = some x) : x.id = id := by
  simpa using List.find?_some h

/-- A command that is updated, and keeps its number, is found as it now is. -/
theorem Dev.cmd_updCmd_self {d : Dev} {id : Nat} {x : QCmd} (f : QCmd → QCmd) (same : ∀ q, (f q).id = q.id) (h : d.cmd id = some x) :
    (d.updCmd id f).cmd id = some (f x) := by
  have number : ∀ q : QCmd, (if q.id = id then f q else q).id = q.id := fun q => by
    split
    · exact same q
    · rfl
  unfold Dev.cmd at h ⊢
  unfold Dev.updCmd
  simp only [List.find?_map, Function.comp_def, number, h, Option.map_some]
  rw [if_pos (Dev.id_of_cmd h)]

/-- What a command's reads find: statuses and findings, and whether it is spoilt. -/
theorem Dev.cmd_seenBy {d : Dev} {x y : QCmd} (c : Clock) (r : CmdRead) (h : d.cmd x.id = some y) :
    (d.seenBy c x r).cmd x.id = some { y with spoiled := y.spoiled || r.controlParity } := by
  have found : (d.eccAll c (some x.ctx) r.ecc).cmd x.id = some y := (Dev.cmd_of_unitWork (d.unitWork_eccAll c _ _) _).trans h
  unfold Dev.seenBy
  cases r.controlParity with
  | false => simpa using found
  | true =>
    rw [Bool.or_true]
    exact Dev.cmd_updCmd_self (fun q => { q with spoiled := true }) (fun _ => rfl)
      ((Dev.cmd_of_unitWork (Dev.unitWork_raiseUncorrected _ _ _ _ _) _).trans found)

theorem Dev.updates_seenBy (d : Dev) (c : Clock) (x : QCmd) (r : CmdRead) : (d.seenBy c x r).updates = d.updates := by
  have kept := Dev.updates_of_unitWork (d.unitWork_eccAll c (some x.ctx) r.ecc)
  unfold Dev.seenBy
  simp only
  split
  · exact (Dev.updates_of_unitWork (Dev.unitWork_raiseUncorrected _ _ _ _ _)).trans kept
  · exact kept

theorem Dev.updates_readCmd (d : Dev) (c : Clock) (x : QCmd) (r : CmdRead) : (d.readCmd c x r).updates = d.updates := by
  rw [Dev.readCmd, Dev.updates_seenBy, Dev.issuedCmd, Dev.cmdIssue, Dev.updCmd_updates, Dev.updates_of_unitWork (d.unitWork_takeWait x)]

/-- A command that has issued, with what its reads found. -/
theorem Dev.cmd_readCmd {d : Dev} {x : QCmd} (c : Clock) (r : CmdRead) (h : d.cmd x.id = some x) :
    (d.readCmd c x r).cmd x.id = some { x with issued := true, spoiled := x.spoiled || r.controlParity } :=
  Dev.cmd_seenBy c r (Dev.cmd_updCmd_self (fun q => { q with issued := true }) (fun _ => rfl)
    ((Dev.cmd_of_unitWork (d.unitWork_takeWait x) _).trans h))

/-- A queue's eligible command that reads memory issues, under the command whose operation it is. -/
theorem Dev.issueRead_at {s : State} {q : CmdRead} {op : Nat} {x : QCmd} (h : s.CmdAt q.q.val op x) (f : Dev → QCmd → Dev) :
    s.dev.issueRead s.clk q op f = f (s.dev.readCmd s.clk x q) x := Dev.issueCmd_at h _

/-! ### COMBINE (R182 to R186) -/

theorem exec_combine_at {s : State} {q : CmdRead} {x : QCmd} (h : s.CmdAt q.q.val 5 x) :
    exec (.combine q) s = .next { s with dev := (s.dev.readCmd s.clk x q).runCombine x } := by
  have hexec : exec (.combine q) s = onDev s fun clk d => d.issueRead clk q 5 fun d x => d.runCombine x := rfl
  rw [hexec, onDev_on h.on, Dev.issueRead_at h]

theorem Dev.runCombine_queues {d : Dev} {x : QCmd} {y : CombineDesc} (desc : CombineDesc.ofWord (envPayload x.env) = y)
    (first : (d.combines.any fun k => k.cmd = x.id) = false) (ok : d.combineOk x y = true) (up : d.clusterFaulted y.unit = false) :
    d.runCombine x = ({ d with combines := d.combines ++ [{ cmd := x.id, ctx := x.ctx, desc := y }] } : Dev).updCluster y.unit
      fun k => { k with combines := k.combines ++ [x.id] } := by
  subst desc
  unfold Dev.runCombine
  simp only [first, ok, up, Bool.not_true, Bool.false_eq_true, if_false]

theorem exec_combineRecordStart {s : State} (h : s.Working) (cl : ClusterId) (seen : Option ArithStep) :
    exec (.combineRecordStart cl seen) s = .next { s with dev := s.dev.combineBegin s.clk cl.val seen } :=
  onDev_on h.on fun clk d => d.combineBegin clk cl.val seen

theorem Dev.combineHead_of_unitWork {d e : Dev} (h : e.unitWork = d.unitWork) (cl : Nat) : e.combineHead cl = d.combineHead cl := by
  unfold Dev.combineHead Dev.cluster
  rw [Dev.clusters_of_unitWork h, Dev.combines_of_unitWork h]

/-- The COMBINE at the head of a unit is found as it is set. -/
theorem Dev.combineHead_setCombine {d : Dev} {cl : Nat} {k k' : CombineRun} (h : d.combineHead cl = some k) (same : k'.cmd = k.cmd) :
    (d.setCombine k').combineHead cl = some k' := by
  obtain ⟨id, first, found⟩ := Option.bind_eq_some_iff.1 h
  have number : k.cmd = id := by simpa using List.find?_some found
  have keep : ∀ y : CombineRun, (if y.cmd = k'.cmd then k' else y).cmd = y.cmd := fun y => by
    split
    next e => exact e.symm
    · rfl
  refine Option.bind_eq_some_iff.2 ⟨id, first, ?_⟩
  unfold Dev.setCombine
  simp only [List.find?_map, Function.comp_def, keep, found, Option.map_some]
  rw [if_pos same.symm]

/-- The record of COMBINE `k` that its unit has begun is combined, and the next one follows. -/
def Dev.recordNext (d : Dev) (k : CombineRun) : Dev :=
  { d.setCombine { k with next := k.next + 1, begun := false, seen := none } with fetched := d.fetched.filter fun y => y.cmd != k.cmd }

/-- The same, where it may be the last: the command has then done its work. -/
def Dev.recordDone (d : Dev) (c : Clock) (k : CombineRun) : Dev :=
  if k.next + 1 < k.desc.count then d.recordNext k else ((d.recordNext k).dropCombine k).unitDone c (whoCombine k)

theorem Dev.combineStep_begun {d e : Dev} {c : Clock} {cl : Nat} {k : CombineRun} {r : RoundRun} (head : d.combineHead cl = some k)
    (round : d.roundOf k.desc.groupId k.desc.roundId = some r) (own : r.ctx = k.ctx) (begun : k.begun = true)
    (one : d.combineOne c (whoCombine k) r k = .ok e) : d.combineStep c cl = some (whoCombine k, .ok (e.recordDone c k)) := by
  have mine : (some r).filter (fun r => r.ctx = k.ctx && k.begun) = some r := by
    rw [Option.filter_some, if_pos (by simp only [own, begun, decide_true, Bool.and_self])]
  unfold Dev.combineStep
  rw [head, Option.bind_some, round, mine, Option.map_some, one]
  rfl

theorem Dev.combineStep_waits {d : Dev} {c : Clock} {cl : Nat} {k : CombineRun} (head : d.combineHead cl = some k)
    (begun : k.begun = false) : d.combineStep c cl = none := by
  unfold Dev.combineStep
  simp [head, begun]

theorem Dev.combineStep_idle {d : Dev} {c : Clock} {cl : Nat} (head : d.combineHead cl = none) : d.combineStep c cl = none := by
  unfold Dev.combineStep
  rw [head]
  rfl

/-- What may meet a bar and then goes on has met none. -/
theorem ok_of_map_ok {ε α β : Type} {f : α → β} {x : Except ε α} {y : β} (h : x.map f = .ok y) :
    ∃ a, x = .ok a ∧ f a = y := by
  cases x with
  | error => exact absurd h nofun
  | ok a => exact ⟨a, rfl, Except.ok.inj h⟩

/-- A record's sums touch no more than its store does. -/
theorem Dev.unitWork_combineOne {d e : Dev} {c : Clock} {k : CombineRun} {r : RoundRun} (h : d.combineOne c (whoCombine k) r k = .ok e) :
    e.unitWork = d.unitWork := by
  have unit : ∀ n, (whoCombine k).src ≠ .core n := fun n => nofun
  unfold Dev.combineOne at h
  simp only at h
  split at h
  · exact absurd h nofun
  · obtain ⟨d2, store, rfl⟩ := ok_of_map_ok h
    have kept := Dev.unitWork_unitStore unit store
    rw [Dev.unitWork_bump, Dev.flagN, Dev.unitWork_updCtx, kept]
    split
    · exact Dev.unitWork_residueError _ _ _ _ _
    · rfl

/-- A COMBINE whose next record follows stays at its unit's head. -/
theorem Dev.combineHead_recordNext {d : Dev} {cl : Nat} {k : CombineRun} (head : d.combineHead cl = some k) :
    (d.recordNext k).combineHead cl = some { k with next := k.next + 1, begun := false, seen := none } :=
  Dev.combineHead_setCombine (k' := { k with next := k.next + 1, begun := false, seen := none }) head rfl

theorem Dev.cmd_recordNext (d : Dev) (k : CombineRun) (id : Nat) : (d.recordNext k).cmd id = d.cmd id := rfl

theorem Dev.cluster_recordNext (d : Dev) (k : CombineRun) (cl : Nat) : (d.recordNext k).cluster cl = d.cluster cl := rfl

theorem Dev.clusters_unitSettle (d : Dev) (id : Nat) : (d.unitSettle id).clusters = d.clusters := by
  have retired : ∀ d : Dev, (d.selectRetired id).clusters = d.clusters := fun d => by
    unfold Dev.selectRetired
    split
    · exact Dev.bump_clusters _ _ _ _ _
    · rfl
  unfold Dev.unitSettle
  split
  · split
    · exact retired d
    · rfl
  · rfl

theorem Dev.clusters_unitDone (d : Dev) (c : Clock) (w : Who) : (d.unitDone c w).clusters = d.clusters := by
  unfold Dev.unitDone
  rw [Dev.clusters_unitSettle, Dev.updCmd_clusters, Dev.clusters_of_unitWork (Dev.unitWork_closeFor _ _ _)]

/-- A COMBINE that is alone at its unit leaves it idle. -/
theorem Dev.combineHead_dropCombine {d : Dev} {cl : Nat} {k : CombineRun} (alone : (d.cluster cl).combines = [k.cmd])
    (unit : k.desc.unit = cl) (c : Clock) (w : Who) : ((d.dropCombine k).unitDone c w).combineHead cl = none := by
  have done : ((d.dropCombine k).unitDone c w).cluster cl = (d.dropCombine k).cluster cl := by
    unfold Dev.cluster
    rw [Dev.clusters_unitDone]
  have drop : (d.dropCombine k).cluster cl = { d.cluster cl with combines := (d.cluster cl).combines.filter (· != k.cmd) } := by
    unfold Dev.dropCombine
    rw [unit]
    exact Dev.cluster_setCluster_self _ cl _
  unfold Dev.combineHead
  rw [done, drop, alone]
  simp

/-- A unit whose only COMBINE has begun a record that can be combined combines it, and then waits for its next start or is idle. -/
theorem Dev.combineGo_one {d e : Dev} {c : Clock} {cl : Nat} {k : CombineRun} {r : RoundRun} (head : d.combineHead cl = some k)
    (round : d.roundOf k.desc.groupId k.desc.roundId = some r) (own : r.ctx = k.ctx) (begun : k.begun = true)
    (one : d.combineOne c (whoCombine k) r k = .ok e) (alone : (d.cluster cl).combines = [k.cmd]) (unit : k.desc.unit = cl)
    (live : ∀ x, d.cmd k.cmd = some x → x.status = none) : d.combineGo c cl = e.recordDone c k := by
  have kept := Dev.unitWork_combineOne one
  have steps : Steps (fun d => d.combineStep c cl) 1 d (e.recordDone c k) :=
    .more (Dev.combineStep_begun head round own begun one) (.rest _)
  unfold Dev.combineGo
  by_cases more : k.next + 1 < k.desc.count
  · have done : e.recordDone c k = e.recordNext k := if_pos more
    have next := Dev.combineHead_recordNext ((Dev.combineHead_of_unitWork kept cl).trans head)
    have fine : ((d.cmd k.cmd).any fun q => q.status.isSome) = false := by
      cases found : d.cmd k.cmd with
      | none => rfl
      | some x => simp [live x found]
    rw [done] at steps ⊢
    rw [Dev.unitGo_steps steps (by decide) (Dev.combineStep_waits next rfl)]
    simp [next, Dev.cmd_recordNext, Dev.cmd_of_unitWork kept, fine]
  · have done : e.recordDone c k = ((e.recordNext k).dropCombine k).unitDone c (whoCombine k) := if_neg more
    have left : ((e.recordNext k).cluster cl).combines = [k.cmd] := by
      rw [Dev.cluster_recordNext, ← alone, Dev.cluster, Dev.clusters_of_unitWork kept]
      rfl
    have idle := Dev.combineHead_dropCombine left unit c (whoCombine k)
    rw [done] at steps ⊢
    rw [Dev.unitGo_steps steps (by decide) (Dev.combineStep_idle idle)]
    simp only [idle]

theorem Dev.combineBegin_ready {d : Dev} {c : Clock} {cl : Nat} {k : CombineRun} {r : RoundRun} (work : c.stage = .work)
    (seen : Option ArithStep) (head : d.combineHead cl = some k) (fresh : k.begun = false)
    (round : d.roundOf k.desc.groupId k.desc.roundId = some r) (own : r.ctx = k.ctx)
    (ready : combineReady r (r.record (k.desc.first + k.next)) (k.desc.first + k.next) = true) :
    d.combineBegin c cl seen = (d.setCombine { k with begun := true, seen := seen }).combineGo c cl := by
  unfold Dev.combineBegin
  simp [head, work, fresh, round, own, ready]

/-! ### UPDATE (R272 to R285) -/

theorem exec_update_at {s : State} {q : CmdRead} {x : QCmd} (h : s.CmdAt q.q.val 6 x) (seen : List StepSeen) :
    exec (.update q seen) s = .next { s with dev := (s.dev.readCmd s.clk x q).enterUpdate s.clk x seen } := by
  have hexec : exec (.update q seen) s = onDev s fun clk d => d.issueRead clk q 6 fun d x => d.enterUpdate clk x seen := rfl
  rw [hexec, onDev_on h.on, Dev.issueRead_at h]

theorem exec_factoredPhaseStart {s : State} (h : s.Working) (q : CmdRead) (seen : List StepSeen) :
    exec (.factoredPhaseStart q seen) s = .next { s with dev := s.dev.nextPhase s.clk q seen } :=
  onDev_on h.on fun clk d => d.nextPhase clk q seen

theorem Dev.setUpdate_alone {d : Dev} {r r' : UpdateRun} (only : d.updates = [r]) (same : r'.cmd = r.cmd) :
    d.setUpdate r' = { d with updates := [r'] } := by
  unfold Dev.setUpdate
  rw [only]
  simp [same]

theorem Dev.enterUpdate_alone {d : Dev} (c : Clock) (x : QCmd) (steps : List StepSeen) (empty : d.updates = []) :
    d.enterUpdate c x steps =
      (({ d with updates := [{ cmd := x.id, ctx := x.ctx }] } : Dev).updCmd x.id fun z => { z with steps := steps }).updatesGo c := by
  unfold Dev.enterUpdate
  rw [empty]
  rfl

theorem Dev.updOpen_unread {d : Dev} {r : UpdateRun} {q : QCmd} (only : d.updates = [r]) (cmd : d.cmd r.cmd = some q)
    (unread : r.desc = none) (goes : q.completed = false) : d.updOpen r.cmd = some (whoCmd q, d.readUpdate q r) := by
  unfold Dev.updOpen
  simp [only, cmd, unread, goes]

theorem Dev.updOpen_read {d : Dev} {r : UpdateRun} (only : d.updates = [r]) (read : r.desc.isSome = true) : d.updOpen r.cmd = none := by
  unfold Dev.updOpen
  cases cmd : d.cmd r.cmd <;> simp [only, read]

/-- A valid descriptor whose group's curve is usable is taken. -/
theorem Dev.readUpdate_ok {d : Dev} {q : QCmd} {r : UpdateRun} {word : Nat}
    (load : d.loadWord (whoCmd q) (envPayload q.env) 128 = .ok (some word)) (ok : updOk (UpdDesc.ofWord word) = true)
    (aligned : envPayload q.env % 64 = 0) (usable : d.schedBad.contains (UpdDesc.ofWord word).group = false) :
    d.readUpdate q r = .ok { d.setUpdate { r with desc := some (UpdDesc.ofWord word) } with
      fetched := d.fetched.filter fun y => y.cmd != q.id
      advances := if (UpdDesc.ofWord word).advance then d.advances ++ [(q.id, (UpdDesc.ofWord word).group)] else d.advances } := by
  unfold Dev.readUpdate
  simp only [load, Except.map, Option.map_some, ok, aligned, usable, Bool.not_true, bne_self_eq_false, Bool.or_self, Bool.false_eq_true,
    if_false]

/-- An UPDATE that is alone reads its descriptor in one step. -/
theorem Dev.updOpen_alone {d : Dev} {r : UpdateRun} {q : QCmd} {word : Nat} (only : d.updates = [r]) (cmd : d.cmd r.cmd = some q)
    (unread : r.desc = none) (goes : q.completed = false) (load : d.loadWord (whoCmd q) (envPayload q.env) 128 = .ok (some word))
    (ok : updOk (UpdDesc.ofWord word) = true) (aligned : envPayload q.env % 64 = 0)
    (usable : d.schedBad.contains (UpdDesc.ofWord word).group = false) (c : Clock) :
    d.unitGo c (fun d => d.updOpen r.cmd) = { d with
      updates := [{ r with desc := some (UpdDesc.ofWord word) }], fetched := d.fetched.filter fun y => y.cmd != q.id
      advances := if (UpdDesc.ofWord word).advance then d.advances ++ [(q.id, (UpdDesc.ofWord word).group)] else d.advances } := by
  have opens := Dev.updOpen_unread only cmd unread goes
  rw [Dev.readUpdate_ok load ok aligned usable,
    Dev.setUpdate_alone (r' := { r with desc := some (UpdDesc.ofWord word) }) only rfl] at opens
  exact Dev.unitGo_steps (.more opens (.rest _)) (by decide) (Dev.updOpen_read (r := { r with desc := some (UpdDesc.ofWord word) }) rfl rfl)

/-- An UPDATE that is alone goes on: its descriptor is read, and its units run. -/
theorem Dev.updatesGo_alone {d d1 e : Dev} {c : Clock} {r : UpdateRun} (only : d.updates = [r])
    (opened : d.unitGo c (fun d => d.updOpen r.cmd) = d1) (run : UnitsRun c d1 e) : d.updatesGo c = e := by
  unfold Dev.updatesGo
  simp only [only, List.isEmpty_cons, Bool.false_eq_true, if_false, List.map_cons, List.map_nil, List.foldl_cons, List.foldl_nil, opened]
  exact Dev.updUnits_run run

/-- A command in its next phase, of which no unit has done anything. -/
def UpdateRun.nextPhase (r : UpdateRun) : UpdateRun := { r with phase := r.phase + 1, units := List.replicate 32 {} }

/-- The next phase of the command `r`, which is alone, has begun, with what the checkers of its units will see. -/
def Dev.phaseBegun (d : Dev) (r : UpdateRun) (steps : List StepSeen) : Dev :=
  ({ d with updates := [r.nextPhase] } : Dev).updCmd r.cmd fun z => { z with steps := steps }

theorem Dev.nextPhase_alone {d : Dev} {c : Clock} {q : CmdRead} {steps : List StepSeen} {r : UpdateRun} {y : UpdDesc} {x : QCmd}
    (work : c.stage = .work) (only : d.updates = [r]) (cmd : d.cmd r.cmd = some x) (queue : r.cmd / 65536 = q.q.val)
    (live : d.updLive r = true) (done : r.phaseDone = true) (desc : r.desc = some y) (more : r.phase < y.phases)
    (quiet : d.storesOut r.cmd = false) :
    d.nextPhase c q steps = ((d.phaseBegun r steps).seenBy c { x with steps := steps } q).updatesGo c := by
  have found : (d.phaseBegun r steps).cmd r.cmd = some { x with steps := steps } :=
    Dev.cmd_updCmd_self (d := { d with updates := [r.nextPhase] }) (fun z => { z with steps := steps }) (fun _ => rfl) cmd
  have begun : ((d.setUpdate r.nextPhase).updCmd r.cmd fun z => { z with steps := steps }) = d.phaseBegun r steps := by
    rw [Dev.setUpdate_alone (r' := r.nextPhase) only rfl]
    rfl
  unfold UpdateRun.nextPhase at begun
  unfold Dev.nextPhase
  simp only
  split
  next r' first =>
    obtain rfl : r' = r := by simpa [only] using List.mem_of_find?_eq_some first
    simp only [work, bne_self_eq_false, Bool.false_eq_true, if_false, begun, found]
  next absent =>
    rw [only] at absent
    simp [queue, live, done, desc, more, quiet] at absent

theorem Dev.updTurn_alone {d : Dev} {r : UpdateRun} (only : d.updates = [r]) (u : Nat) : d.updTurn u = [r] := by
  unfold Dev.updTurn
  simp only [only]
  split
  next i h =>
    have first : i = 0 := by simpa using (List.findIdx?_eq_some_iff_getElem.1 h).1
    rw [first]
    rfl
  · rfl

section
variable {d : Dev} {c : Clock} {u : Nat} {r : UpdateRun} {y : UpdDesc} {x : QCmd} (only : d.updates = [r]) (cmd : d.cmd r.cmd = some x)
  (goes : x.completed = false) (runs : x.ran = false) (desc : r.desc = some y) (due : (r.unit u).done < y.share r.phase u)
include only cmd goes runs desc due

/-- Of a command that is alone a unit's step is its next item. -/
theorem Dev.updStep_item {z : Dev × UpdateRun} (item : d.updItem c u y (d.updEnv r.ctx y x.steps) r = .ok z) :
    d.updStep c u = some (whoUnit r u, .ok (z.1.updItemDone c u y z.2)) := by
  unfold Dev.updStep Dev.updLive
  simp [Dev.updTurn_alone only, cmd, goes, runs, desc, due, item]

/-- An access that is not permitted ends the command (R252, R285). -/
theorem Dev.updStep_denied (denied : d.updItem c u y (d.updEnv r.ctx y x.steps) r = .error .denied) :
    d.updStep c u = some (whoUnit r u, .ok (d.cmdFault r.cmd r.ctx .memoryAccessFault 0)) := by
  unfold Dev.updStep Dev.updLive
  simp [Dev.updTurn_alone only, cmd, goes, runs, desc, due, denied]

end

end Sys2Proof.Machine

open Sys2Proof.Machine
namespace Sys2Proof

/-- Settles O27: a COMBINE's record and an UPDATE's descriptor are one step each, after which a lone command's unit waits or is idle;
the frame `Dev.unitWork` says that neither changes what the unit looks at next. -/
theorem combinesAndUpdatesRun : Obligations.CombinesAndUpdatesRun := by
  refine ⟨fun s q x hs first ok up => ?_, fun s cl seen k r d hs alone found fresh unit live round own ready one => ?_,
    fun s q x seen word e hs cmd goes empty load ok aligned usable run => ?_,
    fun s q seen r y x e hs only cmd queue live done desc more quiet run => ?_,
    fun c d u r y x only cmd goes runs desc due =>
      ⟨fun z item => Dev.updStep_item only cmd goes runs desc due item, Dev.updStep_denied only cmd goes runs desc due⟩⟩
  · rw [exec_combine_at hs, Dev.runCombine_queues rfl first ok up]
  · have head : s.dev.combineHead cl.val = some k := by
      unfold Dev.combineHead
      rw [alone]
      exact found
    have record := Dev.combineGo_one (Dev.combineHead_setCombine (k' := { k with begun := true, seen := seen }) head rfl) round own rfl one
      alone unit live
    rw [exec_combineRecordStart hs, Dev.combineBegin_ready hs.work seen head fresh round own ready, record]
    refine ⟨fun more => ?_, fun last => ?_⟩
    · rw [Dev.recordDone, if_pos more]
      rfl
    · rw [Dev.recordDone, if_neg (Nat.not_lt.2 last)]
      rfl
  · have read := Dev.cmd_updCmd_self (d := { s.dev.readCmd s.clk x q with updates := [{ cmd := x.id, ctx := x.ctx }] })
      (fun z => { z with steps := seen }) (fun _ => rfl) (Dev.cmd_readCmd s.clk q cmd)
    rw [exec_update_at hs, Dev.enterUpdate_alone s.clk x seen ((s.dev.updates_readCmd s.clk x q).trans empty),
      Dev.updatesGo_alone rfl (Dev.updOpen_alone (r := { cmd := x.id, ctx := x.ctx }) rfl read rfl goes load ok aligned usable s.clk) run]
  · rw [exec_factoredPhaseStart hs, Dev.nextPhase_alone hs.work only cmd queue live done desc more quiet]
    have now : ((s.dev.phaseBegun r seen).seenBy s.clk { x with steps := seen } q).updates = [r.nextPhase] := Dev.updates_seenBy _ _ _ _
    rw [Dev.updatesGo_alone now (Dev.unitGo_idle (Dev.updOpen_read now (by simp [UpdateRun.nextPhase, desc]))) run]

end Sys2Proof

end

section
/-! PROOFS. Errors that are noted before an instruction does its work (R406, R408, R410 to R412): a reading may find some, and a queue may
fail its parity. What is noted of them is no ground to refuse the instruction. -/

namespace Sys2Proof.Machine

/-! ### Errors are noted -/

/-- `d'` may differ from `d` in what contexts note, in the dictionary values that `cnt` names and in parts that no check of an
instruction looks at: cores, priming states, handle queues, buckets and the contexts' partitions are as they were. -/
structure Dev.NotesOnly (cnt : Nat → Prop) (d d' : Dev) : Prop where
  cores : d'.cores = d.cores
  prime : d'.prime = d.prime
  hqueues : d'.hqueues = d.hqueues
  buckets : d'.buckets = d.buckets
  partition : ∀ k, (d'.ctx k).partition = (d.ctx k).partition
  val : ∀ k, ¬cnt k → SMap.get valDflt d'.val k = SMap.get valDflt d.val k

section
variable {cnt : Nat → Prop}

theorem Dev.notesOnly_refl (d : Dev) : Dev.NotesOnly cnt d d := ⟨rfl, rfl, rfl, rfl, fun _ => rfl, fun _ _ => rfl⟩

theorem Dev.NotesOnly.trans {a b c : Dev} (h : Dev.NotesOnly cnt a b) (k : Dev.NotesOnly cnt b c) : Dev.NotesOnly cnt a c :=
  ⟨k.cores.trans h.cores, k.prime.trans h.prime, k.hqueues.trans h.hqueues, k.buckets.trans h.buckets,
    fun x => (k.partition x).trans (h.partition x), fun x hx => (k.val x hx).trans (h.val x hx)⟩

theorem Dev.notesOnly_foldl {α : Type} {step : Dev → α → Dev} (h : ∀ d x, Dev.NotesOnly cnt d (step d x)) (xs : List α) (d : Dev) :
    Dev.NotesOnly cnt d (xs.foldl step d) := by
  induction xs generalizing d with
  | nil => exact d.notesOnly_refl
  | cons x xs ih => exact (h d x).trans (ih _)

theorem Dev.notesOnly_poisonLine (d : Dev) (l : Nat) : Dev.NotesOnly cnt d (d.poisonLine l) :=
  ⟨rfl, rfl, rfl, rfl, fun _ => rfl, fun _ _ => rfl⟩

theorem Dev.notesOnly_setCtx (d : Dev) (k : Nat) (c : Ctx) (h : c.partition = (d.ctx k).partition) :
    Dev.NotesOnly cnt d (d.setCtx k c) := by
  refine ⟨rfl, rfl, rfl, rfl, fun j => ?_, fun _ _ => rfl⟩
  by_cases hj : j = k
  · rw [hj, Dev.ctx_setCtx_self, h]
  · rw [Dev.ctx_setCtx_other d k j c hj]

theorem Dev.notesOnly_bumpKey (d : Dev) (k n : Nat) (h : cnt k) : Dev.NotesOnly cnt d (d.bumpKey k n) :=
  ⟨rfl, rfl, rfl, rfl, fun _ => rfl, fun j hj => SMap.get_put_other valDflt d.val k j _ fun e => hj (e ▸ h)⟩

theorem Dev.notesOnly_bump (d : Dev) (i j e n : Nat) (h : cnt (ctr i j e)) : Dev.NotesOnly cnt d (d.bump i j e n) :=
  d.notesOnly_bumpKey _ n h

theorem Dev.notesOnly_countStatus (d : Dev) (st : Status) (h : ∀ k, statusCounter st = some k → cnt k) :
    Dev.NotesOnly cnt d (d.countStatus st) := by
  unfold Dev.countStatus
  split
  next k hk => exact d.notesOnly_bumpKey k 1 (h k hk)
  next => exact d.notesOnly_refl

/-- `cnt` names what an escalation counts (R411). -/
structure CountsEscalation (cnt : Nat → Prop) : Prop where
  escalations : cnt (ctr 0x80F0 8 0)
  status : ∀ k, statusCounter .errorEscalated = some k → cnt k

variable (esc : CountsEscalation cnt)
include esc

theorem Dev.notesOnly_escalate (d : Dev) (k : Nat) : Dev.NotesOnly cnt d (d.escalate k) := by
  unfold Dev.escalate
  split
  · exact d.notesOnly_refl
  · refine ((Dev.notesOnly_setCtx d k _ ?_).trans (Dev.notesOnly_countStatus _ _ esc.status)).trans
      (Dev.notesOnly_bump _ _ _ _ _ esc.escalations)
    rfl

theorem Dev.notesOnly_raiseAt (d : Dev) (k : Nat) (st : Status) (x : Nat) (y : UnitKind) (z : Nat)
    (h : ∀ k, statusCounter st = some k → cnt k) : Dev.NotesOnly cnt d (d.raiseAt k st x y z) := by
  have counted : Dev.NotesOnly cnt d ((d.setCtx k { d.ctx k with statuses := (d.ctx k).statuses ++ [⟨st, x, y, z⟩] }).countStatus st) := by
    refine (Dev.notesOnly_setCtx d k _ ?_).trans (Dev.notesOnly_countStatus _ st h)
    rfl
  unfold Dev.raiseAt
  simp only
  split
  · exact counted.trans (Dev.notesOnly_escalate esc _ k)
  · exact counted

theorem Dev.notesOnly_uncorrected (d : Dev) (k : Nat) : Dev.NotesOnly cnt d (d.uncorrected k) := by
  unfold Dev.uncorrected
  split
  · exact d.notesOnly_escalate esc k
  · exact d.notesOnly_setCtx k _ rfl

theorem Dev.notesOnly_raiseUncorrected (d : Dev) (k : Nat) (st : Status) (x : UnitKind) (y : Nat)
    (h : ∀ k, statusCounter st = some k → cnt k) : Dev.NotesOnly cnt d (d.raiseUncorrected k st x y) :=
  (d.notesOnly_raiseAt esc k st 0 x y h).trans (Dev.notesOnly_uncorrected esc _ k)

/-- Findings made for a context: counted by place, their lines poisoned, the context's errors noted. -/
theorem Dev.notesOnly_eccAll (d : Dev) (clk : Clock) (k : Nat) (fs : List EccFinding) (h : ∀ sub x, cnt (ctr 0x80F0 sub x)) :
    Dev.NotesOnly cnt d (d.eccAll clk (some k) fs) := by
  have count : ∀ (d : Dev) f a, Dev.NotesOnly cnt d (d.eccCount f a) := fun d f a => by
    unfold Dev.eccCount
    split <;> exact d.notesOnly_bump _ _ _ _ (h _ _)
  refine Dev.notesOnly_foldl (fun d f => ?_) fs d
  unfold Dev.eccOne
  simp only
  split
  · exact d.notesOnly_refl
  · split
    · exact count d f _
    · exact ((count d f _).trans (Dev.notesOnly_poisonLine _ _)).trans (Dev.notesOnly_uncorrected esc _ k)

end

theorem Dev.notesOnly_refetched {cnt : Nat → Prop} (d : Dev) (cl n : Nat) (h : cnt (ctr 0x80F0 5 cl)) :
    Dev.NotesOnly cnt d (d.refetched cl n) := by
  unfold Dev.refetched
  split
  · exact d.notesOnly_refl
  · exact d.notesOnly_bump _ _ _ _ h

/-! ### What is noted refuses nothing (R209, R223, R229, R334, R388) -/

section
variable {cnt : Nat → Prop} {d d' : Dev} (h : Dev.NotesOnly cnt d d')
include h

theorem Dev.NotesOnly.core (c : Nat) : d'.core c = d.core c := congrArg (fun cs => SMap.get (fun _ => ({} : Core)) cs c) h.cores
theorem Dev.NotesOnly.hq (q : Nat) : d'.hq q = d.hq q := congrArg (fun m => SMap.get (fun _ => ({} : HQueue)) m q) h.hqueues
theorem Dev.NotesOnly.bucket (k : Nat) : d'.bucket k = d.bucket k := congrArg (fun m => SMap.get (fun _ => none) m k) h.buckets
theorem Dev.NotesOnly.clusterFaulted (cl : Nat) : d'.clusterFaulted cl = d.clusterFaulted cl :=
  congrArg (fun m => decide (SMap.get (fun _ => 0) m (32 + cl) = 2)) h.prime

/-- A handle is as good as before, where no count of a pool is noted. -/
theorem Dev.NotesOnly.handleOk (pools : ∀ p x, x < 16 → ¬cnt (ctr (0x5200 + p) 2 x)) (k x : Nat) : d'.handleOk k x = d.handleOk k x := by
  have count : ∀ p, d'.poolCount p (handleClass x) (handleHdie x) = d.poolCount p (handleClass x) (handleHdie x) := fun p => by
    refine h.val _ (pools p _ ?_)
    have hclass : handleClass x < 8 := Nat.mod_lt _ (by decide)
    have hdie : handleHdie x < 2 := Nat.mod_lt _ (by decide)
    omega
  simp only [Dev.handleOk, h.partition, count, h.bucket]

variable (owners : ∀ p, p < 8 → ¬cnt (ctr (0x3100 + p) 1 0))
include owners

theorem Dev.NotesOnly.clusterOwner (cl : Nat) : d'.clusterOwner cl = d.clusterOwner cl := by
  have same : ∀ p ∈ List.range 8, d'.v (0x3100 + p) 1 0 = d.v (0x3100 + p) 1 0 := fun p hp => h.val _ (owners p (List.mem_range.1 hp))
  rw [Dev.clusterOwner, Dev.clusterOwner, ← List.head?_filter, ← List.head?_filter,
    List.filter_congr fun p hp => congrArg (bit · cl) (same p hp)]

theorem Dev.NotesOnly.queueBar (k q : Nat) : d'.queueBar k q = d.queueBar k q := by
  have usable : d'.queueUsable k q = d.queueUsable k q := by
    rw [Dev.queueUsable, Dev.queueUsable, h.clusterOwner owners, h.partition, h.hq]
  rw [Dev.queueBar, Dev.queueBar, h.clusterFaulted, usable]

theorem Dev.NotesOnly.valveReject (k : Nat) (v : Option Nat) : d'.valveReject k v = d.valveReject k v := by
  have usable : ∀ v, d'.valveUsable k v = d.valveUsable k v := fun v => by
    rw [Dev.valveUsable, Dev.valveUsable, h.clusterOwner owners, h.partition]
  cases v with
  | none => rfl
  | some v => simp only [Dev.valveReject, usable, h.clusterFaulted]

end

/-- A dictionary value at subindex 4 of its entry, or above: no owner of clusters (R334), no size of a pool (R220). -/
def FromSubFour (k : Nat) : Prop := 4 * 65536 ≤ k % 16777216

theorem fromSubFour_ctr (i : Nat) {j e : Nat} (hj : j < 256) (he : e < 65536) : FromSubFour (ctr i j e) ↔ 4 ≤ j := by
  unfold FromSubFour ctr
  omega

/-- A counter of the memory, or what lies above it: no owner of clusters (R334). -/
def FromMemCounters (k : Nat) : Prop := ctr 0x80F0 0 0 ≤ k

theorem statusCounter_errorEscalated : statusCounter .errorEscalated = some (ctr 0x80F0 0x0A 3) := rfl
theorem statusCounter_controlCheck : statusCounter .controlCheck = some (ctr 0x80F0 0x0A 1) := rfl

theorem countsEscalation_of_late {cnt : Nat → Prop} (h : ∀ j e, 4 ≤ j → j < 256 → e < 65536 → cnt (ctr 0x80F0 j e)) :
    CountsEscalation cnt :=
  ⟨h _ _ (by decide) (by decide) (by decide), fun k hk => by
    rw [← Option.some.inj (statusCounter_errorEscalated.symm.trans hk)]
    exact h _ _ (by decide) (by decide) (by decide)⟩

/-- A parity error in the state of a core's instruction. -/
theorem Dev.notesOnly_coreParity (d : Dev) (c k : Nat) (parity : Bool) : Dev.NotesOnly FromSubFour d (d.coreParity c k parity) := by
  have esc : CountsEscalation FromSubFour := countsEscalation_of_late fun j e late hj he => (fromSubFour_ctr _ hj he).2 late
  unfold Dev.coreParity
  split
  · refine d.notesOnly_raiseUncorrected esc k _ _ _ fun x hx => ?_
    rw [← Option.some.inj (statusCounter_controlCheck.symm.trans hx)]
    exact (fromSubFour_ctr _ (by decide) (by decide)).2 (by decide)
  · exact d.notesOnly_refl

/-- What the reading of a core's instruction, made for context `k`, has found (R406, R408). -/
def Dev.seqFound (d : Dev) (clk : Clock) (c k : Nat) (ecc : List EccFinding) (refetch : Nat) : Dev :=
  (d.eccAll clk (some k) ecc).refetched (c / 8) refetch

theorem Dev.notesOnly_seqFound (d : Dev) (clk : Clock) (c k : Nat) (ecc : List EccFinding) (refetch : Nat) :
    Dev.NotesOnly FromMemCounters d (d.seqFound clk c k ecc refetch) := by
  have counter : ∀ sub x, FromMemCounters (ctr 0x80F0 sub x) := fun sub x => by
    unfold FromMemCounters ctr
    omega
  exact (d.notesOnly_eccAll (countsEscalation_of_late fun j e _ _ _ => counter j e) clk k ecc counter).trans
    (Dev.notesOnly_refetched _ _ _ (counter _ _))

theorem not_fromSubFour_clusters (p : Nat) : ¬FromSubFour (ctr (0x3100 + p) 1 0) := by
  rw [fromSubFour_ctr _ (by decide) (by decide)]
  decide

theorem not_fromSubFour_poolSize (p x : Nat) (hx : x < 16) : ¬FromSubFour (ctr (0x5200 + p) 2 x) := by
  rw [fromSubFour_ctr _ (by decide) (by omega)]
  decide

theorem not_fromMemCounters_clusters (p : Nat) (hp : p < 8) : ¬FromMemCounters (ctr (0x3100 + p) 1 0) := by
  unfold FromMemCounters ctr
  omega

end Sys2Proof.Machine
end

section
/-! PROOFS. Handle queues (R205, R208, R209, R236, R412). The parity error of a queue is noted first; the push or pop then goes on as it
would have without it. -/

namespace Sys2Proof.Machine

/-! ### An instruction at its queue -/

/-- Core `c`'s plan `r` is at a VALVE instruction `i` whose body `b` keeps R236 and names a queue that does not refuse it. -/
structure Dev.QueueAt (d : Dev) (c : Nat) (r : PlanRun) (i : SeqInstr) (b : ValveBody) : Prop where
  run : (d.core c).run = some r
  body : ValveBody.ofBody i.body = b
  good : b.ok = true
  bar : d.queueBar r.ctx b.queue = none

theorem Dev.QueueAt.valveStep {d : Dev} {c : Nat} {r : PlanRun} {i : SeqInstr} {b : ValveBody} (h : d.QueueAt c r i b)
    (f : ValveBody → Dev) : d.valveStep c r i f = f b := by
  simp only [Dev.valveStep, h.body, h.good, if_true]

theorem State.ValveAt.queueAt {s : State} {c : Nat} {r : PlanRun} {i : SeqInstr} {b : ValveBody} {d : Dev} (h : s.ValveAt c r i b)
    (bar : s.dev.queueBar r.ctx b.queue = none) (noted : Dev.NotesOnly FromSubFour s.dev d) : d.QueueAt c r i b where
  run := by rw [noted.core, h.at_.run]
  body := h.body
  good := h.good
  bar := by rw [noted.queueBar fun p _ => not_fromSubFour_clusters p, bar]

theorem exec_queuePush_eq (c : CoreId) (parity : Bool) (s : State) : exec (.queuePush ⟨c, parity⟩) s =
    onDev s fun clk d => d.seqStep clk c.val (fun i => i.op = 5 && fld i.body 255 252 = 11) fun d r i =>
      ((d.coreParity c.val r.ctx parity).seqPush c.val r i).pump clk := rfl

theorem exec_queuePush_at {s : State} {c : CoreId} {r : PlanRun} {i : SeqInstr} {b : ValveBody} (h : s.ValveAt c.val r i b)
    (fop : b.fop = 11) (parity : Bool) : exec (.queuePush ⟨c, parity⟩) s =
      .next { s with dev := ((s.dev.coreParity c.val r.ctx parity).seqPush c.val r i).pump s.clk } := by
  have code : fld i.body 255 252 = 11 := (congrArg ValveBody.fop h.body).trans fop
  rw [exec_queuePush_eq, onDev_on h.at_.on, Dev.seqStep_at h.at_, if_pos (by simp [h.op, code])]

theorem exec_queuePop_eq (c : CoreId) (parity : Bool) (s : State) : exec (.queuePop ⟨c, parity⟩) s =
    onDev s fun clk d => d.seqStep clk c.val (fun i => i.op = 5 && fld i.body 255 252 = 12) fun d r i =>
      ((d.coreParity c.val r.ctx parity).seqPop c.val r i).pump clk := rfl

theorem exec_queuePop_at {s : State} {c : CoreId} {r : PlanRun} {i : SeqInstr} {b : ValveBody} (h : s.ValveAt c.val r i b)
    (fop : b.fop = 12) (parity : Bool) : exec (.queuePop ⟨c, parity⟩) s =
      .next { s with dev := ((s.dev.coreParity c.val r.ctx parity).seqPop c.val r i).pump s.clk } := by
  have code : fld i.body 255 252 = 12 := (congrArg ValveBody.fop h.body).trans fop
  rw [exec_queuePop_eq, onDev_on h.at_.on, Dev.seqStep_at h.at_, if_pos (by simp [h.op, code])]

/-! ### Pushes and pops -/

theorem Dev.pushHandle_room {d : Dev} {k q h : Nat} (room : (d.hq q).handles.length < 256) :
    d.pushHandle k q h = some (d.setHq q ⟨(d.hq q).handles ++ [h], some k⟩) := if_neg (Nat.not_le.2 room)

theorem Dev.addRefs_counted {d : Dev} {k h n : Nat} {x : Bucket} (ok : d.handleOk k h = true)
    (found : d.bucket (bucketKey (d.ctx k).partition h) = some x) (fits : x.count + n ≤ 65535) :
    d.addRefs k h n = (d.setBucket (bucketKey (d.ctx k).partition h) (some { x with count := x.count + n }), true) := by
  simp [Dev.addRefs, ok, found, Nat.not_lt.2 fits]

theorem Dev.advance_setHreg {d : Dev} {c : Nat} {r : PlanRun} (i : SeqInstr) (x h : Nat) (run : (d.core c).run = some r) :
    (d.setHreg c x h).advance c i = (d.setHreg c x h).passed c r i :=
  Dev.advance_passed i (by rw [Dev.setHreg, Dev.core_updCore_self]; exact run)

section
variable {d : Dev} {c : Nat} {r : PlanRun} {i : SeqInstr} {b : ValveBody} {h : Nat} (at_ : d.QueueAt c r i b)
  (reg : (d.core c).hreg b.hreg = h)
include at_ reg

/-- A push to a full queue holds. -/
theorem Dev.seqPush_full (ok : d.handleOk r.ctx h = true) (full : 256 ≤ (d.hq b.queue).handles.length) :
    d.seqPush c r i = d.queueHold c := by
  rw [Dev.seqPush, at_.valveStep]
  simp [at_.bar, reg, ok, full]

/-- A push moves its register's handle to the tail. -/
theorem Dev.seqPush_moves (ok : d.handleOk r.ctx h = true) (room : (d.hq b.queue).handles.length < 256) (moves : b.keep = false) :
    d.seqPush c r i =
      ((d.setHq b.queue ⟨(d.hq b.queue).handles ++ [h], some r.ctx⟩).setHreg c b.hreg nullHandle).passed c r i := by
  rw [Dev.seqPush, at_.valveStep]
  simp only [at_.bar, reg, ok, ge_iff_le, Nat.not_le.2 room, moves, Bool.not_true, Bool.false_eq_true, decide_false, if_false,
    Dev.pushHandle_room room]
  exact Dev.advance_setHreg i _ _ at_.run

/-- A push with KEEP counts a reference more, and leaves the register. -/
theorem Dev.seqPush_keeps {x : Bucket} (ok : d.handleOk r.ctx h = true) (room : (d.hq b.queue).handles.length < 256)
    (keeps : b.keep = true) (found : d.bucket (bucketKey (d.ctx r.ctx).partition h) = some x) (fits : x.count + 1 ≤ 65535) :
    d.seqPush c r i = ((d.setBucket (bucketKey (d.ctx r.ctx).partition h) (some { x with count := x.count + 1 })).setHq b.queue
      ⟨(d.hq b.queue).handles ++ [h], some r.ctx⟩).passed c r i := by
  have counted := Dev.addRefs_counted (n := 1) ok found fits
  have queue : ∀ k y, (d.setBucket k y).hq b.queue = d.hq b.queue := fun _ _ => rfl
  rw [Dev.seqPush, at_.valveStep]
  simp only [at_.bar, reg, ok, ge_iff_le, Nat.not_le.2 room, keeps, counted, Bool.not_true, Bool.false_eq_true, decide_false,
    if_true, if_false, Dev.pushHandle_room, queue, room]
  exact Dev.advance_passed i at_.run

/-- A pop from an empty queue holds. -/
theorem Dev.seqPop_empty (null : h = nullHandle) (empty : (d.hq b.queue).handles = []) : d.seqPop c r i = d.queueHold c := by
  rw [Dev.seqPop, at_.valveStep]
  simp [at_.bar, reg, null, Dev.popHandle, empty]

/-- A pop takes the head into its register. -/
theorem Dev.seqPop_takes {x : Nat} {rest : List Nat} (null : h = nullHandle) (head : (d.hq b.queue).handles = x :: rest) :
    d.seqPop c r i = ((d.setHq b.queue ⟨rest, some r.ctx⟩).setHreg c b.hreg x).passed c r i := by
  rw [Dev.seqPop, at_.valveStep]
  simp only [at_.bar, reg, null, bne_self_eq_false, Bool.false_eq_true, if_false, Dev.popHandle, head]
  exact Dev.advance_setHreg i _ _ at_.run

end

end Sys2Proof.Machine

open Sys2Proof.Machine
namespace Sys2Proof

/-- Settles O20: what a queue's parity error leaves is noted only (`Dev.NotesOnly`), and the five outcomes of a push or pop are one
lemma each. -/
theorem handleQueuesPushAndPop : Obligations.HandleQueuesPushAndPop := by
  rintro s c parity r i b d hs bar rfl
  have noted := s.dev.notesOnly_coreParity c.val r.ctx parity
  have at_ := hs.queueAt bar noted
  have reg : (((s.dev.coreParity c.val r.ctx parity).core c.val).hreg b.hreg) = (s.dev.core c.val).hreg b.hreg := by rw [noted.core]
  refine ⟨fun push ok => ?_, fun pop null => ?_⟩
  · have ok' := (noted.handleOk not_fromSubFour_poolSize r.ctx _).trans ok
    rw [← noted.hq, ← noted.partition, ← noted.bucket, exec_queuePush_at hs push]
    refine ⟨fun full => ?_, fun room moves => ?_, fun k room keeps found fits => ?_⟩
    · rw [Dev.seqPush_full at_ reg ok' full]
      rfl
    · rw [Dev.seqPush_moves at_ reg ok' room moves]
    · rw [Dev.seqPush_keeps at_ reg ok' room keeps found fits]
  · rw [← noted.hq, exec_queuePop_at hs pop]
    refine ⟨fun empty => ?_, fun h rest head => ?_⟩
    · rw [Dev.seqPop_empty at_ reg null empty]
      rfl
    · rw [Dev.seqPop_takes at_ reg null head]

end Sys2Proof
end

section
/-! PROOFS. Streams start, are armed and complete (R197 to R203, R207, R212, R213). START and RELAY are one issue that differs in its
checks; an ARM fills its slot whether or not it was filled; a completion is a fixed order of steps. -/

namespace Sys2Proof.Machine

/-! ### The instructions of the pumps -/

/-- The stream that core `c`'s plan `r` starts with body `b`, its descriptor unread. -/
def Dev.newStream (d : Dev) (c : Nat) (r : PlanRun) (b : StreamBody) : Stream :=
  { Stream.fresh r.ctx b.descAddr (r.owner.getD c) b (some r.cmd) with behind := (d.core c).unread }

/-- The rows a descriptor's stream reads and those it writes in the well, as the scoreboard holds them (R198). -/
def sdReads (desc : Nat) : Nat × Nat := if sdOut desc then sdWellRange desc else (0, 0)
def sdWrites (desc : Nat) : Nat × Nat := if sdOut desc then (0, 0) else sdWellRange desc

/-- A stream whose descriptor `desc` has been read stands in its channel's active slot, and the plan goes on. -/
def Dev.streamEntered (e : Dev) (clk : Clock) (c : Nat) (r : PlanRun) (i : SeqInstr) (ch : Nat) (st : Stream) (desc : Nat) : Dev :=
  (((e.loaded (whoStream c ch st) st.descAddr 64).setStream c ch (some { st with desc := desc, descRead := true })).passed c r i).pump clk

theorem exec_start_eq (c : CoreId) (ecc : List EccFinding) (refetch : Nat) (s : State) : exec (.start c ecc refetch) s =
    onDev s fun clk d => d.seqStep clk c.val (fun i => i.op = 4 && fld i.body 255 252 = 1) fun d r i =>
      d.issueStream clk c.val r i ecc refetch := rfl

theorem exec_relay_eq (c : CoreRead) (s : State) : exec (.relay c) s =
    onDev s fun clk d => d.seqStep clk c.core.val (fun i => i.op = 4 && fld i.body 255 252 = 3) fun d r i =>
      d.issueStream clk c.core.val r i c.ecc c.refetch := rfl

theorem exec_arm_eq (c : CoreRead) (s : State) : exec (.arm c) s =
    onDev s fun clk d => d.seqStep clk c.core.val (fun i => i.op = 4 && fld i.body 255 252 = 2) fun d r i =>
      (d.seqFound clk c.core.val r.ctx c.ecc c.refetch).issueArm clk c.core.val r i := rfl

section
variable {s : State} {c : CoreId} {r : PlanRun} {i : SeqInstr} {b : StreamBody} (h : s.SeqAt c.val r i) (op : i.op = 4)
  (body : StreamBody.ofBody i.body = b)
include h op body

theorem exec_start_at (sop : b.sop = 1) (ecc : List EccFinding) (refetch : Nat) :
    exec (.start c ecc refetch) s = .next { s with dev := s.dev.issueStream s.clk c.val r i ecc refetch } := by
  have code : fld i.body 255 252 = 1 := (congrArg StreamBody.sop body).trans sop
  rw [exec_start_eq, onDev_on h.on, Dev.seqStep_at h, if_pos (by simp [op, code])]

theorem exec_relay_at (sop : b.sop = 3) (ecc : List EccFinding) (refetch : Nat) :
    exec (.relay ⟨c, ecc, refetch⟩) s = .next { s with dev := s.dev.issueStream s.clk c.val r i ecc refetch } := by
  have code : fld i.body 255 252 = 3 := (congrArg StreamBody.sop body).trans sop
  rw [exec_relay_eq, onDev_on h.on, Dev.seqStep_at h, if_pos (by simp [op, code])]

theorem exec_arm_at (sop : b.sop = 2) (ecc : List EccFinding) (refetch : Nat) : exec (.arm ⟨c, ecc, refetch⟩) s =
    .next { s with dev := (s.dev.seqFound s.clk c.val r.ctx ecc refetch).issueArm s.clk c.val r i } := by
  have code : fld i.body 255 252 = 2 := (congrArg StreamBody.sop body).trans sop
  rw [exec_arm_eq, onDev_on h.on, Dev.seqStep_at h, if_pos (by simp [op, code])]

end

/-! ### START and RELAY (R197, R198, R202) -/

/-- A RELAY's descriptor is an IN descriptor (R202). -/
theorem Dev.sdOut_of_relayReject {d : Dev} {k c desc : Nat} {prev next : Option Nat} (h : d.relayReject k c desc prev next = none) :
    sdOut desc = false := by
  cases out : sdOut desc with
  | false => rfl
  | true => simp [Dev.relayReject, out] at h

/-- A stream whose descriptor reads, keeps its checks and meets no hazard enters its channel's active slot. -/
theorem Dev.issueStream_enters {d e : Dev} {clk : Clock} {c : Nat} {r : PlanRun} {i : SeqInstr} {b : StreamBody}
    {ecc : List EccFinding} {refetch : Nat} {bs : List Byte} (run : (d.core c).run = some r) (body : StreamBody.ofBody i.body = b)
    (valve : d.valveReject r.ctx b.valve = none) (idle : d.stream c b.channel = none) (room : (d.core c).boardUse < 64)
    (found : d.seqFound clk c r.ctx ecc refetch = e)
    (load : e.load (whoStream c b.channel (d.newStream c r b)) b.descAddr 64 = .ok (bs, false))
    (desc : e.descReject r.ctx (leNat bs) = none) (relay : b.sop = 3 → e.relayReject r.ctx c (leNat bs) b.prev b.next = none)
    (free : (d.core c).hazard (sdReads (leNat bs)) (sdWrites (leNat bs)) = false) :
    d.issueStream clk c r i ecc refetch = e.streamEntered clk c r i b.channel (d.newStream c r b) (leNat bs) := by
  subst body
  have found' : (d.eccAll clk (some r.ctx) ecc).refetched (c / 8) refetch = e := found
  have room' : ¬(d.core c).boardUse ≥ 64 := Nat.not_le.2 room
  have passes : (if (d.newStream c r (StreamBody.ofBody i.body)).relay then e.relayReject r.ctx c (leNat bs)
      (StreamBody.ofBody i.body).prev (StreamBody.ofBody i.body).next else none) = none :=
    ite_eq_right_iff.2 fun sop => relay (of_decide_eq_true sop)
  have kept : (e.core c).run = some r := by rw [← found, (d.notesOnly_seqFound clk c r.ctx ecc refetch).core, run]
  rw [Dev.streamEntered, Dev.setStream,
    ← Dev.advance_passed i (by rw [Dev.core_updCore_self]; exact ((e.loaded_cachesOnly _ _ _).run c).trans kept)]
  unfold Dev.newStream at load passes ⊢
  unfold sdReads sdWrites at free
  simp only [Dev.issueStream, found', valve, idle, room', load, desc, passes, free, Option.isSome_none, Bool.false_or, decide_false,
    Bool.false_eq_true, if_false]
  rfl

/-! ### ARM (R212, R213) -/

/-- The armed slot as an ARM with body `b` of plan `r` fills it. -/
def PlanRun.arms (r : PlanRun) (b : StreamBody) (desc : Nat) : Armed :=
  { ctx := r.ctx, desc := desc, descAddr := b.descAddr, prev := b.prev, next := b.next, valve := b.valve }

/-- The descriptor has been read, and the armed slot of core `c`'s channel is filled. -/
def Dev.armed (d : Dev) (c : Nat) (r : PlanRun) (b : StreamBody) (desc : Nat) : Dev :=
  (d.loaded (whoSeq c r) b.descAddr 64).updCore c fun co => co.setArmed b.channel (some (r.arms b desc))

/-- An ARM has found its slot filled (R213). -/
def Dev.overrun (d : Dev) (c : Nat) (r : PlanRun) : Dev :=
  (d.updCmd r.cmd fun q => { q with note := if q.note.isSome then q.note else some .descOverrun }).bump 0x8070 6 c 1

theorem Dev.core_overrun (d : Dev) (c : Nat) (r : PlanRun) (k : Nat) : (d.overrun c r).core k = d.core k := rfl

theorem Dev.run_armed (d : Dev) (c : Nat) (r : PlanRun) (b : StreamBody) (desc : Nat) :
    ((d.armed c r b desc).core c).run = (d.core c).run := by
  rw [Dev.armed, Dev.core_updCore_self]
  exact (d.loaded_cachesOnly _ _ _).run c

/-- An ARM whose descriptor reads and keeps its checks fills its slot, and passes whether the slot was filled or not. -/
theorem Dev.issueArm_fills {d : Dev} (clk : Clock) {c : Nat} {r : PlanRun} {i : SeqInstr} {b : StreamBody} {bs : List Byte}
    (run : (d.core c).run = some r) (body : StreamBody.ofBody i.body = b) (valve : d.valveReject r.ctx b.valve = none)
    (load : d.load (whoSeq c r) b.descAddr 64 = .ok (bs, false)) (desc : d.descReject r.ctx (leNat bs) = none)
    (relay : (b.prev = none ∧ b.next = none) ∨ d.relayReject r.ctx c (leNat bs) b.prev b.next = none) :
    d.issueArm clk c r i = (if ((d.core c).armedSlot b.channel).isSome then (d.armed c r b (leNat bs)).overrun c r
      else d.armed c r b (leNat bs)).passed c r i := by
  subst body
  have passes : (if (StreamBody.ofBody i.body).prev.isSome || (StreamBody.ofBody i.body).next.isSome then
      d.relayReject r.ctx c (leNat bs) (StreamBody.ofBody i.body).prev (StreamBody.ofBody i.body).next else none) = none := by
    rcases relay with ⟨prev, next⟩ | keeps
    · rw [prev, next]
      rfl
    · rw [keeps, ite_self]
  have kept : ((if ((d.core c).armedSlot (StreamBody.ofBody i.body).channel).isSome
      then (d.armed c r (StreamBody.ofBody i.body) (leNat bs)).overrun c r
      else d.armed c r (StreamBody.ofBody i.body) (leNat bs)).core c).run = some r := by
    split
    · rw [Dev.core_overrun, Dev.run_armed, run]
    · rw [Dev.run_armed, run]
  rw [← Dev.advance_passed i kept]
  simp only [Dev.issueArm, valve, load, desc, passes, Bool.false_eq_true, if_false]
  rfl

/-! ### STREAM_COMPLETE (R199, R207) -/

/-- What a completion on a channel whose state fails its parity leaves first (R412). -/
def Dev.channelSeen (d : Dev) (c : Nat) (x : Stream) (control : Bool) : Dev :=
  if control then (d.poisonStream c x).raiseUncorrected x.ctx .controlCheck .core c else d

/-- The source bucket is released where the descriptor asks for it. -/
def Dev.sourceReleased (d : Dev) (x : Stream) (pool : Bool) : Dev :=
  match x.handle with
  | some h => if sdFreeSrc x.desc then d.releaseFrom x.ctx h pool else d
  | none => d

/-- The stream's valve is signalled where it names one. -/
def Dev.valveSignalled (d : Dev) (x : Stream) : Dev :=
  match x.valve with
  | some v => d.signalOp x.ctx v 1
  | none => d

/-- A stream has left its channel, and is counted. -/
def Dev.streamGone (d : Dev) (clk : Clock) (c ch : Nat) : Dev := (((d.setStream c ch none).bump 0x8070 1 c 1).settle c).pump clk

/-- A finished stream completes: what its channel failed is noted, its source bucket goes, its valve is signalled, and it leaves. -/
theorem Dev.completeStream_finished {d : Dev} {clk : Clock} {c ch : Nat} {x : Stream} (work : clk.stage = .work)
    (there : d.stream c ch = some x) (finished : d.streamFinished c ch x = true) (control pool : Bool) :
    d.completeStream clk c ch control pool =
      (((d.channelSeen c x control).sourceReleased x pool).valveSignalled x).streamGone clk c ch := by
  simp only [Dev.completeStream, there, work, finished, bne_self_eq_false, Bool.not_true, Bool.or_self, Bool.false_eq_true, if_false]
  rfl

theorem Dev.sourceReleased_kept {d : Dev} {x : Stream} (h : x.handle = none ∨ sdFreeSrc x.desc = false) (pool : Bool) :
    d.sourceReleased x pool = d := by
  unfold Dev.sourceReleased
  rcases h with empty | keeps
  · rw [empty]
  · split
    · rw [keeps, if_neg Bool.false_ne_true]
    · rfl

theorem Dev.sourceReleased_released {d : Dev} {x : Stream} {h : Nat} (handle : x.handle = some h) (free : sdFreeSrc x.desc = true)
    (pool : Bool) : d.sourceReleased x pool = d.releaseFrom x.ctx h pool := by
  rw [Dev.sourceReleased, handle]
  exact if_pos free

theorem exec_streamComplete_at {s : State} (h : s.Working) (c : CoreId) (ch : Fin 16) (seen : StreamSeen) :
    exec (.streamComplete c ch seen) s =
      .next { s with dev := s.dev.completeStream s.clk c.val ch.val seen.controlParity seen.poolParity } := by
  have hexec : exec (.streamComplete c ch seen) s =
      onDev s fun clk d => d.completeStream clk c.val ch.val seen.controlParity seen.poolParity := rfl
  rw [hexec, onDev_on h.on]

end Sys2Proof.Machine

open Sys2Proof.Machine
namespace Sys2Proof

/-- Settles O21: START and RELAY are one issue, checked by what its descriptor asks for; a completion is its steps in their order. -/
theorem streamsStartAndComplete : Obligations.StreamsStartAndComplete := by
  refine ⟨fun s c r i b ecc refetch bs hs op body valve idle room e found load desc => ⟨fun sop free => ?_, fun sop relay free => ?_⟩,
    fun s c ch x control pool hs there finished => ⟨fun keeps => ?_, fun h handle free => ?_⟩⟩
  · rw [exec_start_at hs op body sop, Dev.issueStream_enters hs.run body valve idle room found.symm load desc (by simp [sop]) free]
    rfl
  · have into : sdOut (leNat bs) = false := Dev.sdOut_of_relayReject relay
    rw [exec_relay_at hs op body sop, Dev.issueStream_enters hs.run body valve idle room found.symm load desc (fun _ => relay)
      (by simpa [sdReads, sdWrites, into] using free)]
    rfl
  · rw [exec_streamComplete_at hs, Dev.completeStream_finished hs.work there finished, Dev.sourceReleased_kept keeps]
    rfl
  · rw [exec_streamComplete_at hs, Dev.completeStream_finished hs.work there finished, Dev.sourceReleased_released handle free]
    rfl

/-- Settles O22: an ARM that passes its checks fills the slot; whether it was filled decides what else it leaves. -/
theorem armsFillTheArmedSlot : Obligations.ArmsFillTheArmedSlot := by
  intro s c ecc refetch r i b bs e hs op body sop valve found load desc relay
  subst found
  have noted := s.dev.notesOnly_seqFound s.clk c.val r.ctx ecc refetch
  have run := (congrArg Core.run (noted.core c.val)).trans hs.run
  have usable := (noted.valveReject not_fromMemCounters_clusters r.ctx b.valve).trans valve
  have fills := Dev.issueArm_fills s.clk run body usable load desc relay
  rw [noted.core] at fills
  refine ⟨fun empty => ?_, fun filled => ?_⟩
  · rw [exec_arm_at hs op body sop, fills, empty]
    rfl
  · rw [exec_arm_at hs op body sop, fills, if_pos (Option.isSome_iff_ne_none.2 filled)]
    rfl

end Sys2Proof
end

section
/-! PROOFS. Float valves (R229 to R231, R235 to R237). What an operation on a valve notes of its parity leaves every count and every core
alone. A signal's waits are tested by `serveValve`, which grants them and leaves every core its plan. -/

namespace Sys2Proof.Machine

/-! ### An instruction of the VALVE rows -/

section
variable {s : State} {c : CoreId} {r : PlanRun} {i : SeqInstr} {b : ValveBody} (h : s.ValveAt c.val r i b)
include h

/-- The row whose operation the body names does its work. -/
theorem State.ValveAt.seqStep {n : Nat} (fop : b.fop = n) (f : Dev → PlanRun → SeqInstr → Dev) :
    s.dev.seqStep s.clk c.val (fun i => i.op = 5 && fld i.body 255 252 = n) f = f s.dev r i := by
  have code : fld i.body 255 252 = n := (congrArg ValveBody.fop h.body).trans fop
  rw [Dev.seqStep_at h.at_, if_pos (by simp [h.op, code])]

theorem onDev_valveRow_at {n : Nat} (fop : b.fop = n) (f : Clock → Dev → PlanRun → SeqInstr → Dev) :
    onDev s (fun clk d => d.seqStep clk c.val (fun i => i.op = 5 && fld i.body 255 252 = n) (f clk)) =
      .next { s with dev := f s.clk s.dev r i } := by
  rw [onDev_on h.at_.on, h.seqStep fop]

theorem State.ValveAt.valveStep (d : Dev) (f : ValveBody → Dev) : d.valveStep c.val r i f = f b := by
  simp only [Dev.valveStep, h.body, h.good, if_true]

theorem exec_signal_at (fop : b.fop = 1) (parity : Bool) :
    exec (.signal c parity) s = .next { s with dev := s.dev.issueSignal s.clk c.val r i parity } :=
  onDev_valveRow_at h fop fun clk d r i => d.issueSignal clk c.val r i parity

theorem exec_wait_at (fop : b.fop = 2) (parity : Bool) :
    exec (.wait c parity) s = .next { s with dev := s.dev.issueWait c.val r i false parity } :=
  onDev_valveRow_at h fop fun _ d r i => d.issueWait c.val r i false parity

theorem exec_waitTake_at (fop : b.fop = 3) (parity : Bool) :
    exec (.waitTake c parity) s = .next { s with dev := s.dev.issueWait c.val r i true parity } :=
  onDev_valveRow_at h fop fun _ d r i => d.issueWait c.val r i true parity

end

/-- Where cores are as they were, a plan that was running goes on. -/
theorem Dev.advance_cores {d e : Dev} {c : Nat} {r : PlanRun} (i : SeqInstr) (run : (d.core c).run = some r) (same : e.cores = d.cores) :
    e.advance c i = e.passed c r i :=
  Dev.advance_passed i (by rw [Dev.core, same]; exact run)

theorem Dev.valveBar_usable {d : Dev} {k v : Nat} (usable : d.valveUsable k v = true) (works : d.clusterFaulted (v / 512) = false) :
    d.valveBar k v = none := by
  simp [Dev.valveBar, usable, works]

/-! ### What an operation leaves of the valves and the cores -/

/-- An operation on a valve notes what is wrong with its count, and that is all (R235). -/
theorem Dev.valveTouch_notes (d : Dev) (k v : Nat) (parity : Bool) :
    ∃ cs vs bad, d.valveTouch k v parity = { d with ctxs := cs, val := vs, valveBad := bad } := by
  obtain ⟨bad, hbad⟩ : ∃ bad, (if parity && !d.valveBad.contains v then { d with valveBad := v :: d.valveBad } else d) =
      ({ d with valveBad := bad } : Dev) := by
    split
    · exact ⟨_, rfl⟩
    · exact ⟨d.valveBad, rfl⟩
  unfold Dev.valveTouch
  simp only [hbad]
  split
  · obtain ⟨cs, vs, same⟩ := Dev.raiseUncorrected_same ({ d with valveBad := bad } : Dev) k .valveCheck .cluster (v / 512)
    exact ⟨cs, vs, bad, same⟩
  · exact ⟨d.ctxs, d.val, bad, rfl⟩

@[simp] theorem Dev.valveTouch_cores (d : Dev) (k v : Nat) (parity : Bool) : (d.valveTouch k v parity).cores = d.cores := by
  obtain ⟨_, _, _, notes⟩ := d.valveTouch_notes k v parity
  rw [notes]

@[simp] theorem Dev.valve_valveTouch (d : Dev) (k v : Nat) (parity : Bool) (j : Nat) : (d.valveTouch k v parity).valve j = d.valve j := by
  obtain ⟨_, _, _, notes⟩ := d.valveTouch_notes k v parity
  rw [notes]
  rfl

/-- A valve without a parity error in the stroke has nothing noted. -/
theorem Dev.valveTouch_good {d : Dev} {v : Nat} (k : Nat) (good : d.valveBad.contains v = false) : d.valveTouch k v false = d := by
  simp only [Dev.valveTouch, Bool.false_and, Bool.false_eq_true, if_false, good]

@[simp] theorem Dev.grantWait_cores (d : Dev) (k v n : Nat) (take seen : Bool) : (d.grantWait k v n take seen).cores = d.cores := by
  cases take <;> cases seen <;> simp [Dev.grantWait]

theorem Dev.valve_grantWait (d : Dev) (k v n : Nat) (take seen : Bool) :
    (d.grantWait k v n take seen).valve v = if take then d.valve v - n else d.valve v := by
  cases take <;> cases seen <;> simp [Dev.grantWait]

/-! ### Waits are tested -/

/-- The wait of core `k` on a valve whose count reaches it is granted. -/
def Dev.granted (d : Dev) (k : Nat) (w : ValveWait) (r : PlanRun) : Dev :=
  (d.grantWait r.ctx w.valve w.count w.take w.seen).updCore k fun co => { co with valveWait := some { w with granted := true } }

theorem Dev.serveCore_reached {d : Dev} {k : Nat} {w : ValveWait} {r : PlanRun} (wait : (d.core k).valveWait = some w)
    (run : (d.core k).run = some r) (asked : w.granted = false) (reached : w.count ≤ d.valve w.valve) :
    d.serveCore w.valve k = d.granted k w r := by
  simp [Dev.serveCore, Dev.granted, wait, run, asked, Nat.not_lt.2 reached]

theorem Dev.serveCore_below {d : Dev} {k : Nat} {w : ValveWait} {r : PlanRun} (wait : (d.core k).valveWait = some w)
    (run : (d.core k).run = some r) (below : d.valve w.valve < w.count) : d.serveCore w.valve k = d := by
  simp [Dev.serveCore, wait, run, below]

/-- A core that does not wait for the valve is not served. -/
theorem Dev.serveCore_elsewhere {d : Dev} {v k : Nat} (other : ∀ w, (d.core k).valveWait = some w → w.valve ≠ v) : d.serveCore v k = d := by
  unfold Dev.serveCore
  split
  next w r wait run => simp [other w wait]
  next => rfl

theorem Dev.servePend_elsewhere {d : Dev} {v : Nat} {w : PendWait} (other : w.valve ≠ v) : d.servePend v w = d := by
  simp [Dev.servePend, other]

/-- With none that waits for the valve, its waits are tested without effect. -/
theorem Dev.serveValve_idle {d : Dev} {v : Nat} (cores : ∀ k w, (d.core k).valveWait = some w → w.valve ≠ v)
    (cmds : ∀ w ∈ d.valvePend, w.valve ≠ v) : d.serveValve v = d := by
  have unserved : (d.cores.map (·.1)).foldl (fun d k => d.serveCore v k) d = d :=
    List.foldlRecOn (motive := (· = d)) _ _ rfl fun e same k _ => by rw [same, Dev.serveCore_elsewhere (cores k)]
  rw [Dev.serveValve, unserved]
  exact List.foldlRecOn (motive := (· = d)) _ _ rfl fun e same w hw => by rw [same, Dev.servePend_elsewhere (cmds w hw)]

/-- A grant leaves every core its plan. -/
theorem Dev.run_serveCore (d : Dev) (v j k : Nat) : ((d.serveCore v j).core k).run = (d.core k).run := by
  unfold Dev.serveCore
  split
  next w r _ _ =>
    have kept : (d.grantWait r.ctx v w.count w.take w.seen).core k = d.core k := by rw [Dev.core, Dev.grantWait_cores, Dev.core]
    split
    · rfl
    · by_cases here : k = j
      · rw [← here, Dev.core_updCore_self, kept]
      · rw [Dev.core_updCore_other _ _ _ _ here, kept]
  next => rfl

@[simp] theorem Dev.servePend_cores (d : Dev) (v : Nat) (w : PendWait) : (d.servePend v w).cores = d.cores := by
  unfold Dev.servePend
  split <;> simp

theorem Dev.run_serveValve (d : Dev) (v k : Nat) : ((d.serveValve v).core k).run = (d.core k).run := by
  have served : (((d.cores.map (·.1)).foldl (fun d j => d.serveCore v j) d).core k).run = (d.core k).run :=
    List.foldlRecOn (motive := fun e : Dev => (e.core k).run = (d.core k).run) _ _ rfl
      fun e same j _ => (e.run_serveCore v j k).trans same
  rw [← served, Dev.serveValve, Dev.core, Dev.foldl_cores fun e w => e.servePend_cores v w, Dev.core]

/-! ### SIGNAL, WAIT and WAIT_TAKE -/

/-- A signal of `n` on valve `v`, before its waits are tested: the count rises, as far as it goes. -/
def Dev.valveRaised (d : Dev) (k v n : Nat) : Dev :=
  if d.valve v + n ≤ 4294967295 then d.setValve v (d.valve v + n) else (d.setValve v 4294967295).raise k .valveOverflow

@[simp] theorem Dev.valveRaised_cores (d : Dev) (k v n : Nat) : (d.valveRaised k v n).cores = d.cores := by
  unfold Dev.valveRaised
  split <;> simp

theorem Dev.addSignal_eq (d : Dev) (k v n : Nat) :
    d.addSignal (some k) v n = ((d.bump 0x8080 7 (v / 512) 1).valveRaised k v n).serveValve v := by
  unfold Dev.addSignal Dev.valveRaised
  by_cases fits : (d.bump 0x8080 7 (v / 512) 1).valve v + n ≤ 4294967295
  · simp only [gt_iff_lt, Nat.not_lt.2 fits, fits, if_true, if_false]
  · simp only [gt_iff_lt, Nat.not_le.1 fits, fits, if_true, if_false]

section
variable {s : State} {c : CoreId} {r : PlanRun} {i : SeqInstr} {b : ValveBody} (h : s.ValveAt c.val r i b)
  (usable : s.dev.valveUsable r.ctx b.valve = true) (works : s.dev.clusterFaulted (b.valve / 512) = false)
include h usable works

/-- A local SIGNAL on a usable valve. -/
theorem Dev.issueSignal_local (near : b.remote = false) (quiet : (s.dev.core c.val).planQuiet r = true) (parity : Bool) :
    s.dev.issueSignal s.clk c.val r i parity = (((((s.dev.valveTouch r.ctx b.valve parity).bump 0x8080 7 (b.valve / 512) 1).valveRaised
      r.ctx b.valve b.value).serveValve b.valve).passed c.val r i) := by
  have bar := Dev.valveBar_usable usable works
  rw [Dev.issueSignal, h.valveStep]
  simp only [quiet, near, bar, Bool.not_true, Bool.false_eq_true, if_false, Dev.addSignal_eq]
  refine Dev.advance_passed i ?_
  rw [Dev.run_serveValve, Dev.core, Dev.valveRaised_cores, Dev.bump_cores, Dev.valveTouch_cores]
  exact h.at_.run

/-- A wait that is met for the first time below its count becomes pending. -/
theorem Dev.issueWait_below (first : (s.dev.core c.val).valveWait = none) (below : s.dev.valve b.valve < b.value) (take parity : Bool) :
    s.dev.issueWait c.val r i take parity = (s.dev.valveTouch r.ctx b.valve parity).updCore c.val fun co => { co with
      valveWait := some ⟨b.valve, b.value, take, false, (s.dev.valveTouch r.ctx b.valve parity).valveBad.contains b.valve⟩ } := by
  rw [Dev.issueWait, h.valveStep]
  simp only [Dev.valveBar_usable usable works, first, below, if_true]

/-- A wait whose count is reached when it is met passes, and takes what it takes. -/
theorem Dev.issueWait_reached (first : (s.dev.core c.val).valveWait = none) (reached : b.value ≤ s.dev.valve b.valve) (take parity : Bool) :
    s.dev.issueWait c.val r i take parity = (if take then (s.dev.valveTouch r.ctx b.valve parity).setValve b.valve
      (s.dev.valve b.valve - b.value) else s.dev.valveTouch r.ctx b.valve parity).passed c.val r i := by
  rw [Dev.issueWait, h.valveStep]
  simp only [Dev.valveBar_usable usable works, first, Nat.not_lt.2 reached, if_false, Dev.valve_valveTouch]
  refine Dev.advance_cores i h.at_.run ?_
  split <;> simp

/-- A pending wait holds until it is granted, and then passes. -/
theorem Dev.issueWait_pending {w : ValveWait} (pending : (s.dev.core c.val).valveWait = some w) (take parity : Bool) :
    s.dev.issueWait c.val r i take parity = if w.granted then s.dev.passed c.val r i else s.dev := by
  rw [Dev.issueWait, h.valveStep]
  simp only [Dev.valveBar_usable usable works, pending, Dev.advance_passed i h.at_.run]

end

end Sys2Proof.Machine

open Sys2Proof.Machine
namespace Sys2Proof

/-- Settles O18: a signal raises its count and then tests the waits; a wait is met for the first time, below its count or not, or it is
pending, granted or not. -/
theorem valvesCountSignalsAndHoldWaits : Obligations.ValvesCountSignalsAndHoldWaits := by
  refine ⟨fun s c r i b parity hs fop near quiet usable works => ⟨?_, ?_⟩, fun d v cores cmds => Dev.serveValve_idle cores cmds,
    fun d k w r wait run asked => ⟨Dev.serveCore_below wait run, fun reached => ?_⟩,
    fun s c r i b parity hs usable works => ⟨fun first => ⟨?_, ?_, ?_, ?_⟩, fun w pending => ⟨fun asked => ?_, fun granted => ?_⟩⟩⟩
  · rw [exec_signal_at hs fop, Dev.issueSignal_local hs usable works near quiet, Dev.valveRaised]
    have count : ((s.dev.valveTouch r.ctx b.valve parity).bump 0x8080 7 (b.valve / 512) 1).valve b.valve = s.dev.valve b.valve :=
      s.dev.valve_valveTouch r.ctx b.valve parity b.valve
    rw [count]
  · rintro rfl good
    exact Dev.valveTouch_good r.ctx good
  · rw [Dev.serveCore_reached wait run asked reached]
    exact ⟨congrArg Core.valveWait (Dev.core_updCore_self _ _ _), d.valve_grantWait r.ctx w.valve w.count w.take w.seen⟩
  · intro fop below
    rw [exec_wait_at hs fop, Dev.issueWait_below hs usable works first below]
  · intro fop below
    rw [exec_waitTake_at hs fop, Dev.issueWait_below hs usable works first below]
  · intro fop reached
    rw [exec_wait_at hs fop, Dev.issueWait_reached hs usable works first reached, if_neg Bool.false_ne_true]
  · intro fop reached
    rw [exec_waitTake_at hs fop, Dev.issueWait_reached hs usable works first reached, if_pos rfl]
  · have holds := fun take => (Dev.issueWait_pending hs usable works pending take parity).trans (if_neg (Bool.eq_false_iff.1 asked))
    exact ⟨fun fop => by rw [exec_wait_at hs fop, holds], fun fop => by rw [exec_waitTake_at hs fop, holds]⟩
  · have passes := fun take => (Dev.issueWait_pending hs usable works pending take parity).trans (if_pos granted)
    exact ⟨fun fop => by rw [exec_wait_at hs fop, passes], fun fop => by rw [exec_waitTake_at hs fop, passes]⟩

end Sys2Proof
end

section
/-! PROOFS. Bucket pools (R219, R223 to R226, R235, R236). A request is answered in three ways, one lemma each; what the manager finds wrong
with a bucket takes no handle and no count from an operation on it. -/

namespace Sys2Proof.Machine

/-! ### The rows of the bucket operations -/

section
variable {s : State} {c : CoreId} {r : PlanRun} {i : SeqInstr} {b : ValveBody} (h : s.ValveAt c.val r i b)
include h

theorem exec_bucketAlloc_at (fop : b.fop = 8) (parity : Bool) :
    exec (.bucketAlloc c parity) s = .next { s with dev := s.dev.issueAlloc c.val r i parity } :=
  onDev_valveRow_at h fop fun _ d r i => d.issueAlloc c.val r i parity

theorem exec_bucketAdd_at (fop : b.fop = 9) (parity : Bool) :
    exec (.bucketAdd ⟨c, parity⟩) s = .next { s with dev := s.dev.issueBucketAdd c.val r i parity } :=
  onDev_valveRow_at h fop fun _ d r i => d.issueBucketAdd c.val r i parity

theorem exec_bucketRelease_at (fop : b.fop = 10) (parity : Bool) :
    exec (.bucketRelease c parity) s = .next { s with dev := s.dev.issueRelease c.val r i parity } :=
  onDev_valveRow_at h fop fun _ d r i => d.issueRelease c.val r i parity

end

/-! ### Errors of the manager (R235) -/

theorem statusCounter_poolCheck : statusCounter .poolCheck = some (ctr 0x8080 0x0A 6) := rfl

theorem Dev.notesOnly_setPool {cnt : Nat → Prop} (d : Dev) (k : Nat) (q : Pool) : Dev.NotesOnly cnt d (d.setPool k q) :=
  ⟨rfl, rfl, rfl, rfl, fun _ => rfl, fun _ _ => rfl⟩

/-- An error about a bucket takes it out of service and is noted in its owner: its handle stays as good as it was. -/
theorem Dev.notesOnly_poolCheck (d : Dev) (p h : Nat) : Dev.NotesOnly FromSubFour d (d.poolCheck p h) := by
  have esc : CountsEscalation FromSubFour := countsEscalation_of_late fun j e late hj he => (fromSubFour_ctr _ hj he).2 late
  have service : FromSubFour (ctr 0x8080 5 0) := (fromSubFour_ctr _ (by decide) (by decide)).2 (by decide)
  have status : ∀ k, statusCounter .poolCheck = some k → FromSubFour k := fun k hk => by
    rw [← Option.some.inj (statusCounter_poolCheck.symm.trans hk)]
    exact (fromSubFour_ctr _ (by decide) (by decide)).2 (by decide)
  have removed : ∀ q : Pool, Dev.NotesOnly FromSubFour d (if q.quarantined.contains (handleBucket h) then d
      else (d.setPool (poolKey p (handleClass h) (handleHdie h)) { q with quarantined := handleBucket h :: q.quarantined }).bump
        0x8080 5 0 1) := fun q => by
    split
    · exact d.notesOnly_refl
    · exact (d.notesOnly_setPool _ _).trans (Dev.notesOnly_bump _ _ _ _ _ service)
  unfold Dev.poolCheck
  simp only
  split
  · exact (removed _).trans (Dev.notesOnly_raiseUncorrected esc _ _ _ _ _ status)
  · exact removed _

/-- The device as the manager's check of a bucket leaves it. -/
def Dev.poolSeen (d : Dev) (p h : Nat) (parity : Bool) : Dev := if parity then d.poolCheck p h else d

theorem Dev.notesOnly_poolSeen (d : Dev) (p h : Nat) (parity : Bool) : Dev.NotesOnly FromSubFour d (d.poolSeen p h parity) := by
  unfold Dev.poolSeen
  split
  · exact d.notesOnly_poolCheck p h
  · exact d.notesOnly_refl

/-! ### BUCKET_ALLOC (R219, R224, R225) -/

/-- The device after the manager of H-die `hd` has granted context `k` bucket `x` of class `cl`, which leaves its pool as `q`. -/
def Dev.bucketGranted (d : Dev) (k cl hd x : Nat) (q : Pool) : Dev :=
  ((d.setPool (poolKey (d.ctx k).partition cl hd) q).setBucket (bucketKey (d.ctx k).partition (handleMake cl hd x)) (some ⟨1, k⟩)).bump
    0x8080 1 hd 1

theorem Dev.core_bucketGranted (d : Dev) (k cl hd x : Nat) (q : Pool) (c : Nat) : (d.bucketGranted k cl hd x q).core c = d.core c := rfl
theorem Dev.ctx_bucketGranted (d : Dev) (k cl hd x : Nat) (q : Pool) (j : Nat) : (d.bucketGranted k cl hd x q).ctx j = d.ctx j := rfl

/-- A core has written the handle it was granted to its register, and its request waits no longer. -/
def Dev.handleTaken (d : Dev) (c reg h : Nat) : Dev :=
  (d.setHreg c reg h).updCore c fun co => { co with poolWait := false }

theorem Dev.ctx_handleTaken (d : Dev) (c reg h k : Nat) : (d.handleTaken c reg h).ctx k = d.ctx k := rfl

theorem Dev.run_handleTaken (d : Dev) (c reg h : Nat) : ((d.handleTaken c reg h).core c).run = (d.core c).run := by
  rw [Dev.handleTaken, Dev.core_updCore_self, Dev.setHreg, Dev.core_updCore_self]

/-- A request that is made for the first time is answered. -/
theorem Dev.issueAlloc_asks {s : State} {c : CoreId} {r : PlanRun} {i : SeqInstr} {b : ValveBody} (h : s.ValveAt c.val r i b)
    (null : (s.dev.core c.val).hreg b.hreg = nullHandle) (first : (s.dev.core c.val).poolWait = false) (parity : Bool) :
    s.dev.issueAlloc c.val r i parity = s.dev.allocAnswer c.val r i b parity := by
  rw [Dev.issueAlloc, h.valveStep]
  simp only [null, first, bne_self_eq_false, Bool.false_eq_true, if_false]

theorem Dev.alloc_tooLarge {d : Dev} {n : Nat} (k hd : Nat) (large : classFor n = none) :
    d.alloc k n hd = (d.raise k .bucketTooLarge, .tooLarge) := by
  simp only [Dev.alloc, large]

theorem Dev.alloc_empty {d : Dev} {k n hd cl : Nat} (cls : classFor n = some cl)
    (empty : (d.pool (poolKey (d.ctx k).partition cl hd)).next (d.poolCount (d.ctx k).partition cl hd) = none) :
    d.alloc k n hd = (d.bump 0x8080 2 (32 * (d.ctx k).partition + 2 * cl + hd) 1, .empty) := by
  simp only [Dev.alloc, cls, empty]

theorem Dev.alloc_got {d : Dev} {k n hd cl x : Nat} {q : Pool} (cls : classFor n = some cl)
    (free : (d.pool (poolKey (d.ctx k).partition cl hd)).next (d.poolCount (d.ctx k).partition cl hd) = some (x, q)) :
    d.alloc k n hd = (d.bucketGranted k cl hd x q, .got (handleMake cl hd x)) := by
  simp only [Dev.alloc, cls, free, Dev.bucketGranted]

section
variable {d : Dev} {c : Nat} {r : PlanRun} (i : SeqInstr) {b : ValveBody} (parity : Bool)

theorem Dev.allocAnswer_tooLarge (run : (d.core c).run = some r) (large : classFor b.value = none) :
    d.allocAnswer c r i b parity = ((d.raise r.ctx .bucketTooLarge).planStatus r .bucketTooLarge).passed c r i := by
  simp only [Dev.allocAnswer, Dev.alloc_tooLarge r.ctx _ large]
  exact Dev.advance_cores i run (by simp)

theorem Dev.allocAnswer_empty {cl : Nat} (cls : classFor b.value = some cl)
    (empty : (d.pool (poolKey (d.ctx r.ctx).partition cl (homeHdie c))).next (d.poolCount (d.ctx r.ctx).partition cl (homeHdie c)) = none) :
    d.allocAnswer c r i b parity = (d.bump 0x8080 2 (32 * (d.ctx r.ctx).partition + 2 * cl + homeHdie c) 1).updCore c fun co =>
      { co with poolWait := true } := by
  simp only [Dev.allocAnswer, Dev.alloc_empty cls empty]

theorem Dev.allocAnswer_handle {e : Dev} {h : Nat} (got : d.alloc r.ctx b.value (homeHdie c) = (e, .got h)) :
    d.allocAnswer c r i b parity = ((e.handleTaken c b.hreg h).poolSeen ((e.handleTaken c b.hreg h).ctx r.ctx).partition h parity).advance
      c i := by
  simp only [Dev.allocAnswer, got]
  rfl

/-- A bucket that is granted is the core's, whatever the manager finds wrong with it. -/
theorem Dev.allocAnswer_got {cl x : Nat} {q : Pool} (run : (d.core c).run = some r) (cls : classFor b.value = some cl)
    (free : (d.pool (poolKey (d.ctx r.ctx).partition cl (homeHdie c))).next (d.poolCount (d.ctx r.ctx).partition cl (homeHdie c)) =
      some (x, q)) :
    d.allocAnswer c r i b parity = (((d.bucketGranted r.ctx cl (homeHdie c) x q).handleTaken c b.hreg
      (handleMake cl (homeHdie c) x)).poolSeen (d.ctx r.ctx).partition (handleMake cl (homeHdie c) x) parity).passed c r i := by
  have kept : (((d.bucketGranted r.ctx cl (homeHdie c) x q).handleTaken c b.hreg (handleMake cl (homeHdie c) x)).core c).run = some r := by
    rw [Dev.run_handleTaken, Dev.core_bucketGranted, run]
  rw [Dev.allocAnswer_handle i parity (Dev.alloc_got cls free), Dev.ctx_handleTaken, Dev.ctx_bucketGranted,
    Dev.advance_cores i kept (Dev.notesOnly_poolSeen _ _ _ parity).cores]

end

/-! ### What a bucket's count becomes (R226) -/

@[simp] theorem Dev.freeBucket_cores (d : Dev) (p h : Nat) : (d.freeBucket p h).cores = d.cores := by
  unfold Dev.freeBucket
  simp only
  split <;> simp

@[simp] theorem Dev.release_cores (d : Dev) (k h : Nat) : (d.release k h).cores = d.cores := by
  unfold Dev.release
  split
  · simp
  · simp only
    split
    · rfl
    · split <;> simp

section
variable {d : Dev} {k h : Nat} {x : Bucket} (ok : d.handleOk k h = true)
  (found : d.bucket (bucketKey (d.ctx k).partition h) = some x)
include ok found

theorem Dev.addRefs_overflow {n : Nat} (exceeds : 65535 < x.count + n) : d.addRefs k h n = (d.raise k .refcountOverflow, false) := by
  simp [Dev.addRefs, ok, found, exceeds]

theorem Dev.release_counted (more : 1 < x.count) :
    d.release k h = d.setBucket (bucketKey (d.ctx k).partition h) (some { x with count := x.count - 1 }) := by
  simp [Dev.release, ok, found, Nat.not_le.2 more]

theorem Dev.release_last (last : x.count ≤ 1) : d.release k h = d.freeBucket (d.ctx k).partition h := by
  simp [Dev.release, ok, found, last]

end

/-! ### BUCKET_ADD and BUCKET_RELEASE -/

section
variable {s : State} {c : CoreId} {r : PlanRun} {i : SeqInstr} {b : ValveBody} {h : Nat} (hs : s.ValveAt c.val r i b)
  (reg : (s.dev.core c.val).hreg b.hreg = h) (ok : s.dev.handleOk r.ctx h = true)
include hs reg ok

theorem Dev.issueBucketAdd_adds {x : Bucket} (found : s.dev.bucket (bucketKey (s.dev.ctx r.ctx).partition h) = some x)
    (fits : x.count + b.value ≤ 65535) (parity : Bool) :
    s.dev.issueBucketAdd c.val r i parity = (((s.dev.poolSeen (s.dev.ctx r.ctx).partition h parity).setBucket
      (bucketKey (s.dev.ctx r.ctx).partition h) (some { x with count := x.count + b.value })).passed c.val r i) := by
  have noted := s.dev.notesOnly_poolSeen (s.dev.ctx r.ctx).partition h parity
  have counted := Dev.addRefs_counted (n := b.value) ((noted.handleOk not_fromSubFour_poolSize r.ctx h).trans ok)
    ((noted.bucket _).trans (by rw [noted.partition, found])) fits
  rw [noted.partition, Dev.poolSeen] at counted
  rw [Dev.issueBucketAdd, hs.valveStep]
  simp only [reg, ok, Bool.and_true, counted, if_true]
  exact Dev.advance_cores i hs.at_.run noted.cores

theorem Dev.issueBucketAdd_overflows {x : Bucket} (found : s.dev.bucket (bucketKey (s.dev.ctx r.ctx).partition h) = some x)
    (exceeds : 65535 < x.count + b.value) :
    s.dev.issueBucketAdd c.val r i false = ((s.dev.raise r.ctx .refcountOverflow).planStatus r .refcountOverflow).passed c.val r i := by
  rw [Dev.issueBucketAdd, hs.valveStep]
  simp only [reg, ok, Bool.false_and, Bool.false_eq_true, if_false, if_true, Dev.addRefs_overflow ok found exceeds]
  exact Dev.advance_cores i hs.at_.run (by simp)

theorem Dev.issueRelease_releases (parity : Bool) :
    s.dev.issueRelease c.val r i parity = ((((s.dev.poolSeen (s.dev.ctx r.ctx).partition h parity).release r.ctx h).setHreg c.val b.hreg
      nullHandle).passed c.val r i) := by
  have same : ((s.dev.poolSeen (s.dev.ctx r.ctx).partition h parity).release r.ctx h).cores = s.dev.cores :=
    (Dev.release_cores _ _ _).trans (s.dev.notesOnly_poolSeen _ h parity).cores
  rw [← Dev.advance_setHreg i _ _ (by rw [Dev.core, same]; exact hs.at_.run), Dev.issueRelease, hs.valveStep]
  simp only [reg, ok, Bool.not_true, Bool.false_eq_true, if_false, Dev.releaseFrom, Bool.and_true]
  rfl

end

/-! ### POOL_EMPTY_RETRY (R225) -/

theorem exec_poolEmptyRetry_on {s : State} (on : s.dev.life = .on) (who : PoolRequester) (parity : Bool) :
    exec (.poolEmptyRetry ⟨who, parity⟩) s = .next { s with dev := s.dev.poolRetry s.clk who parity } :=
  onDev_on on fun clk d => d.poolRetry clk who parity

/-- The device after the stream `x` of core `c`'s channel `ch` has asked again. -/
def Dev.streamAsked (d : Dev) (clk : Clock) (c ch : Nat) (x : Stream) : Dev :=
  (d.setStream c ch (some { x with poolWait := false })).pump clk

section
variable {d : Dev} {clk : Clock} {c ch : Nat} {x : Stream} (work : clk.stage = .work) (there : d.stream c ch = some x)
  (waits : x.poolWait = true)
include work there waits

theorem Dev.retryStream_clean : d.retryStream clk c ch false = d.streamAsked clk c ch x := by
  simp only [Dev.retryStream, there, waits, work, Bool.not_true, bne_self_eq_false, Bool.or_self, Bool.false_eq_true, if_false]
  split <;> rfl

/-- The manager finds an error about the bucket that the stream has been granted. -/
theorem Dev.retryStream_parity {h : Nat} (granted : ((d.streamAsked clk c ch x).stream c ch).bind (·.handle) = some h) :
    d.retryStream clk c ch true =
      (d.streamAsked clk c ch x).poolCheck ((d.streamAsked clk c ch x).ctx x.ctx).partition h := by
  unfold Dev.streamAsked at granted
  simp only [Dev.retryStream, there, waits, work, granted, Bool.not_true, bne_self_eq_false, Bool.or_self, Bool.false_eq_true, if_false]
  rfl

end

/-- A sequencer asks again, and is answered as it was the first time. -/
theorem Dev.retrySequencer_asks {s : State} {c : CoreId} {r : PlanRun} {i : SeqInstr} {b : ValveBody} (h : s.ValveAt c.val r i b)
    (fop : b.fop = 8) (waits : (s.dev.core c.val).poolWait = true) (parity : Bool) :
    s.dev.retrySequencer s.clk c.val parity = s.dev.allocAnswer c.val r i b parity := by
  rw [Dev.retrySequencer, waits, h.seqStep fop, h.valveStep]
  rfl

/-- A packer asks again for its jobs. -/
theorem Dev.retryPacker_asks {d : Dev} {clk : Clock} {h : Nat} (work : clk.stage = .work) (waits : h ∈ d.packWait) (parity : Bool) :
    d.retryPacker clk h parity =
      packerRun clk h parity (d.packQueue.length + 1) { d with packWait := d.packWait.filter (· != h) } := by
  rw [Dev.retryPacker, if_pos (by simp [work, waits])]

end Sys2Proof.Machine

open Sys2Proof.Machine
namespace Sys2Proof

/-- Settles O19: a request is too large, finds its pool empty or is granted; an add and a release act on the bucket that the manager has
seen; and a retry is a request made again, by the unit that waits. -/
theorem bucketsAreGrantedAndCounted : Obligations.BucketsAreGrantedAndCounted := by
  refine ⟨fun s c r i b parity hs fop null first => ?_, fun s c r i b k hs ok found => ?_, fun s c ch x hs there waits => ?_,
    fun s c r i b parity hs fop waits => ?_, fun s h parity hs waits => ?_⟩
  · rw [exec_bucketAlloc_at hs fop, Dev.issueAlloc_asks hs null first]
    refine ⟨fun large => ?_, fun cl cls => ⟨fun empty => ?_, fun x q free => ?_⟩⟩
    · rw [Dev.allocAnswer_tooLarge i parity hs.at_.run large]
    · rw [Dev.allocAnswer_empty i parity cls empty]
    · rw [Dev.allocAnswer_got i parity hs.at_.run cls free]
      rfl
  · refine ⟨fun fop fits => ?_, fun fop exceeds => ?_, fun fop fits => ?_, fun fop more => ?_, fun fop last => ?_, fun fop => ?_⟩
    · rw [exec_bucketAdd_at hs fop, Dev.issueBucketAdd_adds hs rfl ok found fits]
      rfl
    · rw [exec_bucketAdd_at hs fop, Dev.issueBucketAdd_overflows hs rfl ok found exceeds]
    · rw [exec_bucketAdd_at hs fop, Dev.issueBucketAdd_adds hs rfl ok found fits]
      rfl
    · rw [exec_bucketRelease_at hs fop, Dev.issueRelease_releases hs rfl ok, ← Dev.release_counted ok found more]
      rfl
    · rw [exec_bucketRelease_at hs fop, Dev.issueRelease_releases hs rfl ok, ← Dev.release_last ok found last]
      rfl
    · rw [exec_bucketRelease_at hs fop, Dev.issueRelease_releases hs rfl ok]
      rfl
  · refine ⟨?_, fun h granted => ?_⟩
    · rw [exec_poolEmptyRetry_on hs.on, Dev.poolRetry, Dev.retryStream_clean hs.work there waits]
      rfl
    · rw [exec_poolEmptyRetry_on hs.on, Dev.poolRetry, Dev.retryStream_parity hs.work there waits granted]
      rfl
  · rw [exec_poolEmptyRetry_on hs.at_.on, Dev.poolRetry, Dev.retrySequencer_asks hs fop waits]
  · rw [exec_poolEmptyRetry_on hs.on, Dev.poolRetry, Dev.retryPacker_asks hs.work waits]

end Sys2Proof
end

section
/-! PROOFS. Memory under writes (R104, R240, R241). A write handles its lines one after another; what it leaves of one line's poison is
that line's own affair, `poisonAfter`. -/

namespace Sys2Proof.Machine

/-- The lines of a run of bytes are those that share a byte with it. -/
theorem mem_linesOf {a n l : Nat} : l ∈ linesOf a n ↔ a < 64 * l + 64 ∧ 64 * l < a + n ∧ n ≠ 0 := by
  unfold linesOf
  split
  next empty => simp [empty]
  next =>
    simp only [List.mem_map, List.mem_range]
    constructor
    · rintro ⟨i, hi, rfl⟩
      omega
    · rintro ⟨lo, hi, -⟩
      exact ⟨l - a / 64, by omega, by omega⟩

/-- The poison of line `l` after a write of [a, a + n) (R104, R241), where it was `old`. -/
def poisonAfter (a n : Nat) (p : Bool) (l : Nat) (old : Bool) : Bool :=
  if p then true else if a ≤ 64 * l ∧ 64 * l + 64 ≤ a + n then false else old

theorem poisonAfter_twice (a n : Nat) (p : Bool) (l : Nat) (old : Bool) :
    poisonAfter a n p l (poisonAfter a n p l old) = poisonAfter a n p l old := by
  unfold poisonAfter
  split
  · rfl
  · split <;> rfl

theorem Memory.poisoned_line (m : Memory) (l : Nat) : m.poisoned (64 * l) = SMap.get poisonDflt m.poison l := by
  rw [Memory.poisoned, Nat.mul_div_cancel_left l (by decide)]

theorem Memory.poisoned_setPoison_self (m : Memory) (l : Nat) (p : Bool) : (m.setPoison l p).poisoned (64 * l) = p := by
  rw [Memory.poisoned_line]
  exact SMap.get_put_self poisonDflt m.poison l p

theorem Memory.poisoned_setPoison_other (m : Memory) {l k : Nat} (p : Bool) (h : k ≠ l) :
    (m.setPoison l p).poisoned (64 * k) = m.poisoned (64 * k) := by
  rw [Memory.poisoned_line, Memory.poisoned_line]
  exact SMap.get_put_other poisonDflt m.poison l k p h

theorem linePoison_self (m : Memory) (a n : Nat) (p : Bool) (l : Nat) :
    (linePoison m a n p l).poisoned (64 * l) = poisonAfter a n p l (m.poisoned (64 * l)) := by
  simp only [linePoison, poisonAfter, ← Bool.decide_and, decide_eq_true_eq, Nat.mul_comm l 64]
  split
  · exact m.poisoned_setPoison_self l true
  · split
    · exact m.poisoned_setPoison_self l false
    · rfl

theorem linePoison_other (m : Memory) (a n : Nat) (p : Bool) {l k : Nat} (h : k ≠ l) :
    (linePoison m a n p l).poisoned (64 * k) = m.poisoned (64 * k) := by
  unfold linePoison
  split
  · exact m.poisoned_setPoison_other true h
  · split
    · exact m.poisoned_setPoison_other false h
    · rfl

theorem foldl_linePoison (ls : List Nat) (m : Memory) (a n : Nat) (p : Bool) (k : Nat) :
    (ls.foldl (fun m l => linePoison m a n p l) m).poisoned (64 * k) =
      if k ∈ ls then poisonAfter a n p k (m.poisoned (64 * k)) else m.poisoned (64 * k) := by
  induction ls generalizing m with
  | nil => simp
  | cons l ls ih =>
    rw [List.foldl_cons, ih]
    by_cases h : k = l
    · subst h
      simp [linePoison_self, poisonAfter_twice]
    · simp [linePoison_other m a n p h, h]

@[simp] theorem Memory.writeBytes_poison (m : Memory) (a : Nat) (bs : List Byte) : (m.writeBytes a bs).poison = m.poison := by
  induction bs generalizing m a with
  | nil => rfl
  | cons b bs ih => exact (ih (m.setByte a b) (a + 1)).trans (m.setByte_poison a b)

/-- A write leaves of every line's poison what it makes of that line. -/
theorem Memory.poisoned_write (m : Memory) (a : Nat) (bs : List Byte) (p : Bool) (l : Nat) : (m.write a bs p).poisoned (64 * l) =
    if l ∈ linesOf a bs.length then poisonAfter a bs.length p l (m.poisoned (64 * l)) else m.poisoned (64 * l) := by
  rw [Memory.write, foldl_linePoison]
  simp only [Memory.poisoned, Memory.writeBytes_poison]

end Sys2Proof.Machine

open Sys2Proof.Machine
namespace Sys2Proof

/-- Settles O58: bytes by `Memory.byte_writeBytes`, poison line by line, the canonical form by `Memory.write_wf`. -/
theorem memoryKeepsWhatIsWritten : Obligations.MemoryKeepsWhatIsWritten := by
  refine fun m a bs p => ⟨fun i h => ?_, fun j out => ?_, fun l => ?_, m.write_wf a bs p⟩
  · rw [Memory.byte_write, m.byte_writeBytes a bs i h]
  · rw [Memory.byte_write, m.byte_writeBytes_other a bs j out]
  · simp only [Memory.poisoned_write, mem_linesOf, poisonAfter, ne_eq, List.length_eq_zero_iff]

end Sys2Proof
end

section
/-! PROOFS. Bulk transfers (R268, R269, R271, R309). What serving another device may touch is said once, `Dev.servingOnly`: the transfers
that wait for an earlier one are not among it, so a transfer that has been applied finds what waited beside it as it was. -/

namespace Sys2Proof.Machine

/-! ### What serving another device touches (R241, R291, R303, R310, R336, R406, R417) -/

/-- `d'` differs from `d` in memory and the stores that wait for it, in dictionary values and error records, in occasions of free values,
and in what the fabric keeps of packets, alone. -/
def Dev.servingOnly (d d' : Dev) : Prop :=
  ∃ mem storeQueue val logs logCount logSeq freeCtr ports links regSent regHeld shapeHeld rates echoes out,
    d' = { d with mem, storeQueue, val, logs, logCount, logSeq, freeCtr, ports, links, regSent, regHeld, shapeHeld, rates, echoes, out }

theorem Dev.servingOnly_parts {d : Dev} {mem storeQueue val logs logCount logSeq freeCtr ports links regSent regHeld shapeHeld rates echoes out} :
    d.servingOnly
      { d with mem, storeQueue, val, logs, logCount, logSeq, freeCtr, ports, links, regSent, regHeld, shapeHeld, rates, echoes, out } :=
  ⟨_, _, _, _, _, _, _, _, _, _, _, _, _, _, _, rfl⟩

theorem Dev.servingOnly_refl (d : Dev) : d.servingOnly d := Dev.servingOnly_parts

theorem Dev.servingOnly.trans {a b c : Dev} (h : a.servingOnly b) (k : b.servingOnly c) : a.servingOnly c := by
  obtain ⟨_, _, _, _, _, _, _, _, _, _, _, _, _, _, _, rfl⟩ := h
  obtain ⟨_, _, _, _, _, _, _, _, _, _, _, _, _, _, _, rfl⟩ := k
  exact Dev.servingOnly_parts

theorem Dev.servingOnly.bulkHeld {d d' : Dev} (h : d.servingOnly d') : d'.bulkHeld = d.bulkHeld := by
  obtain ⟨_, _, _, _, _, _, _, _, _, _, _, _, _, _, _, rfl⟩ := h
  rfl

theorem Dev.servingOnly.respCaches {d d' : Dev} (h : d.servingOnly d') : d'.respCaches = d.respCaches := by
  obtain ⟨_, _, _, _, _, _, _, _, _, _, _, _, _, _, _, rfl⟩ := h
  rfl

theorem Dev.servingOnly_foldl {α : Type} {step : Dev → α → Dev} (h : ∀ d x, Dev.servingOnly d (step d x)) (xs : List α) (d : Dev) :
    d.servingOnly (xs.foldl step d) := by
  induction xs generalizing d with
  | nil => exact d.servingOnly_refl
  | cons x xs ih => exact (h d x).trans (ih _)

theorem Dev.servingOnly_bump (d : Dev) (i j e n : Nat) : d.servingOnly (d.bump i j e n) := Dev.servingOnly_parts

theorem Dev.servingOnly_setLink (d : Dev) (l : Nat) (k : Link) : d.servingOnly (d.setLink l k) := Dev.servingOnly_parts

theorem Dev.servingOnly_emit (d : Dev) (o : Output) : d.servingOnly (d.emit o) := Dev.servingOnly_parts

theorem Dev.servingOnly_echoes (d : Dev) (echoes : List Nat) : d.servingOnly { d with echoes } := Dev.servingOnly_parts

/-! Packets -/

theorem Dev.servingOnly_frameOut (d : Dev) (l port : Nat) (p : Sent) (congested : Bool) : d.servingOnly (d.frameOut l port p congested) := by
  have carried : ∀ (d : Dev) (q : Nat) (k : Port) (o : Output), d.servingOnly ((d.setPort q k).emit o) :=
    fun _ _ _ _ => Dev.servingOnly_parts
  unfold Dev.frameOut
  simp only
  split
  · exact ((d.servingOnly_setLink _ _).trans (Dev.servingOnly_foldl (fun _ _ => carried _ _ _ _) _ _)).trans (Dev.servingOnly_bump _ _ _ _ _)
  · exact (d.servingOnly_setLink _ _).trans (Dev.servingOnly_foldl (fun _ _ => carried _ _ _ _) _ _)

theorem Dev.servingOnly_flushQueue (l : Nat) (xs : List (Nat × Sent)) (d : Dev) : d.servingOnly (Dev.flushQueue l xs d) := by
  induction xs generalizing d with
  | nil => exact d.servingOnly_refl
  | cons x xs ih =>
    unfold Dev.flushQueue
    simp only
    split
    · exact (d.servingOnly_bump _ _ _ _).trans (ih _)
    · split
      · exact (d.servingOnly_frameOut _ _ _ _).trans (ih _)
      · exact (d.servingOnly_setLink _ _).trans (ih _)

theorem Dev.servingOnly_sendOn (d : Dev) (l : Nat) (p : Sent) : d.servingOnly (d.sendOn l p) := by
  unfold Dev.sendOn
  simp only
  split
  · exact d.servingOnly_bump _ _ _ _
  · exact ((d.servingOnly_setLink _ _).trans (Dev.servingOnly_setLink _ _ _)).trans (Dev.servingOnly_flushQueue _ _ _)

theorem Dev.servingOnly_regulate (d : Dev) (l : Nat) (p : Sent) : d.servingOnly (d.regulate l p) := by
  have charged : ∀ sent, d.servingOnly { d with regSent := sent } := fun _ => Dev.servingOnly_parts
  unfold Dev.regulate Dev.regPass
  simp only
  split
  · exact d.servingOnly_sendOn _ _
  · split
    · exact Dev.servingOnly_parts
    · exact (charged _).trans (Dev.servingOnly_sendOn _ _ _)

theorem Dev.servingOnly_shape (d : Dev) (x : Shaped) : d.servingOnly (d.shape x) := by
  have spent : ∀ rates, d.servingOnly { d with rates } := fun _ => Dev.servingOnly_parts
  unfold Dev.shape
  simp only
  split
  · exact d.servingOnly_regulate _ _
  · split
    · exact d.servingOnly_regulate _ _
    · split
      · exact Dev.servingOnly_parts
      · exact (spent _).trans (Dev.servingOnly_regulate _ _ _)

theorem Dev.servingOnly_ownNoRoute (d : Dev) (h : Nat) : d.servingOnly (d.ownNoRoute h) := by
  unfold Dev.ownNoRoute
  split
  · exact d.servingOnly_bump _ _ _ _
  · exact d.servingOnly_refl

theorem Dev.servingOnly_launch (d : Dev) (p : Sent) (dest : Nat) : d.servingOnly (d.launch p dest).1 := by
  unfold Dev.launch
  split
  · exact d.servingOnly_emit _
  · split
    · exact d.servingOnly_emit _
    · split
      · exact d.servingOnly_ownNoRoute _
      · exact d.servingOnly_shape _
    · exact d.servingOnly_ownNoRoute _

/-- A packet that the device hands on: to itself, on the link to its destination, or by its route. -/
theorem Dev.servingOnly_handed (d : Dev) (p : Sent) (dest : Nat) (here : Prop) [Decidable here] (stays : Bool) :
    d.servingOnly (if here then d.emit (.loop p) else
      match d.geidLink dest with
      | some l => if (d.link l).long && stays then d else d.sendOn l p
      | none => (d.launch p dest).1) := by
  split
  · exact d.servingOnly_emit _
  · split
    · split
      · exact d.servingOnly_refl
      · exact d.servingOnly_sendOn _ _
    · exact d.servingOnly_launch p dest

theorem Dev.servingOnly_respond (d : Dev) (c : Clock) (dest e2e : Nat) (x : Content) : d.servingOnly (d.respond c dest e2e x) :=
  (d.servingOnly_echoes _).trans (Dev.servingOnly_handed _ _ _ _ _)

/-! Stores and findings -/

theorem Dev.servingOnly_memStore (d : Dev) (a : Nat) (bs : List Byte) (poison : Bool) : d.servingOnly (d.memStore a bs poison) := by
  have written : d.servingOnly { d with mem := d.mem.write a bs poison } := Dev.servingOnly_parts
  unfold Dev.memStore
  split
  · exact Dev.servingOnly_parts
  · refine written.trans (Dev.servingOnly_foldl (fun d l => ?_) _ _)
    split
    · exact d.servingOnly_refl
    · exact d.servingOnly_bump _ _ _ _

theorem Dev.servingOnly_logStatus (d : Dev) (c : Clock) (dom : Nat) (st : Status) (sev detail : Nat) (kind : UnitKind) (unit : Nat) :
    d.servingOnly (d.logStatus c dom st sev detail kind unit) := by
  unfold Dev.logStatus Dev.log
  simp only
  split <;> exact Dev.servingOnly_parts

/-- What the code finds in lines that no context of this device reads. -/
theorem Dev.servingOnly_eccAll (d : Dev) (c : Clock) (fs : List EccFinding) : d.servingOnly (d.eccAll c none fs) := by
  have counted : ∀ (d : Dev) f a, d.servingOnly (d.eccCount f a) := fun d f a => by
    unfold Dev.eccCount
    split <;> exact d.servingOnly_bump _ _ _ _
  have poisoned : ∀ (d : Dev) l, d.servingOnly (d.poisonLine l).tickFree := fun _ _ => Dev.servingOnly_parts
  refine Dev.servingOnly_foldl (fun d f => ?_) fs d
  unfold Dev.eccOne
  simp only
  split
  · exact d.servingOnly_refl
  · split
    · exact counted d f _
    · exact ((counted d f _).trans (poisoned _ _)).trans (Dev.servingOnly_logStatus _ _ _ _ _ _ _ _)

/-! ### Bulk transfers (R268, R269, R271) -/

/-- What becomes of a range of a bulk transfer. -/
def Dev.rangeBar (d : Dev) (b : BulkIn) (r : BulkRange) : Option Bar :=
  d.remoteBar b.src.toNat b.partition.val r.addr.toNat r.data.length .store

/-- A tagged packet that arrives while ingress is open is taken, and what it fills is told to the neighbours (R34, R308). -/
theorem onDev_ingress_open {s : State} (on : s.dev.life = .on) (taken : s.clk.open = true) (i : Instr) :
    onDev s (fun clk d => d.ingress clk i) = .next { s with dev := (s.dev.ingressTake s.clk i).flowControl } := by
  rw [onDev_on on, Dev.ingress_open taken]

theorem exec_bulk_open {s : State} (on : s.dev.life = .on) (taken : s.clk.open = true) (b : BulkIn) (g : HdieId) :
    exec (.bulk ⟨b, g⟩) s = .next { s with dev := (s.dev.bulkIn s.clk b g).flowControl } := onDev_ingress_open on taken (.bulk ⟨b, g⟩)

section
variable {d d1 : Dev} {c : Clock} {b : BulkIn} {g : HdieId} (empty : d.bulkHeld = [])
include empty

/-- A transfer that finds none waiting is the only one that may be applied. -/
theorem Dev.bulkIn_alone : d.bulkIn c b g = bulkRun c b.src.toNat 1 { d with bulkHeld := [(b, g)] } := by
  rw [Dev.bulkIn, empty]
  rfl

theorem Dev.bulkIn_early (early : b.seq.toNat ≠ SMap.get (fun _ => 0) d.bulkSeen b.src.toNat) :
    d.bulkIn c b g = { d with bulkHeld := [(b, g)] } := by
  rw [Dev.bulkIn_alone empty]
  simp [bulkRun, early]

theorem Dev.bulkIn_waits (due : b.seq.toNat = SMap.get (fun _ => 0) d.bulkSeen b.src.toNat)
    (waits : Dev.bulkApply { d with bulkHeld := [(b, g)] } c b g.val = none) : d.bulkIn c b g = { d with bulkHeld := [(b, g)] } := by
  rw [Dev.bulkIn_alone empty]
  simp [bulkRun, due, waits]

theorem Dev.bulkIn_applied (due : b.seq.toNat = SMap.get (fun _ => 0) d.bulkSeen b.src.toNat)
    (applied : Dev.bulkApply { d with bulkHeld := [(b, g)] } c b g.val = some d1) (held : d1.bulkHeld = [(b, g)]) :
    d.bulkIn c b g = { d1 with
      bulkHeld := [], bulkSeen := SMap.put (fun _ => 0) d1.bulkSeen b.src.toNat ((b.seq.toNat + 1) % 65536) } := by
  rw [Dev.bulkIn_alone empty]
  simp [bulkRun, ← due, applied, held]

end

theorem Dev.bulkApply_waits {d : Dev} {b : BulkIn} (c : Clock) (h : Nat) {r : BulkRange} (mem : r ∈ b.ranges)
    (waits : d.rangeBar b r = some .waits) : d.bulkApply c b h = none := by
  unfold Dev.bulkApply
  exact if_pos (List.any_eq_true.2 ⟨r, mem, decide_eq_true waits⟩)

/-- The device after a range of a transfer: written, or its refusal counted. -/
def Dev.rangeApplied (d : Dev) (b : BulkIn) (r : BulkRange) : Dev :=
  if (d.rangeBar b r).isSome then d.bump 0x8090 3 0 1 else d.memStore r.addr.toNat r.data r.poison

/-- The device after the ranges of a transfer, one after another, and whether any has been refused. -/
def Dev.rangesApplied (d : Dev) (b : BulkIn) : Dev × Bool :=
  b.ranges.foldl (fun x r => (x.1.rangeApplied b r, (x.1.rangeBar b r).isSome || x.2)) (d, false)

theorem Dev.servingOnly_rangeApplied (d : Dev) (b : BulkIn) (r : BulkRange) : d.servingOnly (d.rangeApplied b r) := by
  unfold Dev.rangeApplied
  split
  · exact d.servingOnly_bump _ _ _ _
  · exact d.servingOnly_memStore _ _ _

theorem Dev.bulkApply_applied {d : Dev} {b : BulkIn} (c : Clock) (h : Nat) (ready : ∀ r ∈ b.ranges, d.rangeBar b r ≠ some .waits) :
    d.bulkApply c b h = some (((d.rangesApplied b).1.bump 0x8090 8 h (bulkBytes b.ranges)).respond c b.src.toNat b.seq.toNat
      (.bulkAck b.seq.toNat (d.rangesApplied b).2)) := by
  have none_waits : (b.ranges.any fun r => decide (d.rangeBar b r = some .waits)) = false := by simpa using ready
  unfold Dev.bulkApply
  refine (if_neg (by rw [Bool.not_eq_true]; exact none_waits)).trans (congrArg (fun x : Dev × Bool =>
    some ((x.1.bump 0x8090 8 h (bulkBytes b.ranges)).respond c b.src.toNat b.seq.toNat (.bulkAck b.seq.toNat x.2))) ?_)
  refine congrArg (fun step : Dev × Bool → BulkRange → Dev × Bool => b.ranges.foldl step (d, false)) (funext fun x => funext fun r => ?_)
  unfold Dev.rangeApplied Dev.rangeBar
  split
  next served => simp [served]
  next refused => simp [refused]

theorem Dev.bulkHeld_rangesApplied (d : Dev) (b : BulkIn) : (d.rangesApplied b).1.bulkHeld = d.bulkHeld := by
  unfold Dev.rangesApplied
  refine List.foldlRecOn (motive := fun x : Dev × Bool => x.1.bulkHeld = d.bulkHeld) b.ranges _ rfl fun x hx r _ => ?_
  exact (x.1.servingOnly_rangeApplied b r).bulkHeld.trans hx

/-! ### Acknowledgements (R269, R309) -/

theorem exec_bulkAck_open {s : State} (on : s.dev.life = .on) (taken : s.clk.open = true) (g : Geid) (seq : BitVec 16) (denied : Bool) :
    exec (.bulkAck g seq denied false) s = .next { s with dev := (s.dev.bulkAckIn s.clk g.toNat seq.toNat denied false).flowControl } :=
  onDev_ingress_open on taken (.bulkAck g seq denied false)

theorem Dev.bulkAckIn_known {d : Dev} {c : Clock} {g seq : Nat} {b : SentBulk}
    (known : d.sentBulks.find? (fun b => b.dest = g && b.seq = seq) = some b) (denied : Bool) :
    d.bulkAckIn c g seq denied false = d.bulkEnds c b (if denied then some .remoteAccessDenied else none) := by
  simp [Dev.bulkAckIn, known]

theorem Dev.bulkAckIn_unknown {d : Dev} {c : Clock} {g seq : Nat}
    (unknown : d.sentBulks.find? (fun b => b.dest = g && b.seq = seq) = none) (denied : Bool) : d.bulkAckIn c g seq denied false = d := by
  simp [Dev.bulkAckIn, unknown]

end Sys2Proof.Machine

open Sys2Proof.Machine
namespace Sys2Proof

/-- Settles O50: a transfer that finds none waiting is applied if it is due and none of its ranges waits, and stays otherwise. -/
theorem bulkTransfersApplyInOrder : Obligations.BulkTransfersApplyInOrder := by
  refine ⟨fun s b g on taken empty => ?_, fun s g seq on => ⟨fun taken b known denied => ?_, fun taken unknown denied => ?_, fun h => ?_⟩⟩
  · rw [exec_bulk_open on taken]
    refine ⟨fun early => ?_, fun due ⟨r, mem, waits⟩ => ?_, fun due ready => ?_, fun r only ready => ?_⟩
    · rw [Dev.bulkIn_early empty early]
    · rw [Dev.bulkIn_waits empty due (Dev.bulkApply_waits _ _ mem waits)]
    · have applied := Dev.bulkApply_applied (d := { s.dev with bulkHeld := [(b, g)] }) s.clk g.val ready
      refine ⟨_, applied, ?_⟩
      rw [Dev.bulkIn_applied empty due applied ?_, due]
      exact ((Dev.servingOnly_bump _ _ _ _ _).trans (Dev.servingOnly_respond _ _ _ _ _)).bulkHeld.trans (Dev.bulkHeld_rangesApplied _ b)
    · have alone : ∀ x ∈ b.ranges, Dev.rangeBar { s.dev with bulkHeld := [(b, g)] } b x ≠ some .waits := fun x hx => by
        obtain rfl := List.mem_singleton.1 (only ▸ hx)
        exact ready
      rw [Dev.bulkApply_applied s.clk g.val alone, Dev.rangesApplied, only]
      simp only [List.foldl_cons, List.foldl_nil, Bool.or_false]
      rfl
  · rw [exec_bulkAck_open on taken, Dev.bulkAckIn_known known]
  · rw [exec_bulkAck_open on taken, Dev.bulkAckIn_unknown unknown]
  · exact onDev_on on fun clk d => (d.closeBulks clk fun b => b.hdie = h.val && b.dest = g.toNat).goOn clk

end Sys2Proof
end

section
/-! PROOFS. Requests of other devices (R232, R257 to R259, R263, R264). A load, a store and an atomic have the same three outcomes, by what
stands in their way; an atomic is judged and served on the device that has seen its number. -/

namespace Sys2Proof.Machine

theorem exec_memReq_open {s : State} (on : s.dev.life = .on) (taken : s.clk.open = true) (x : MemReqSeen) :
    exec (.memReq x) s = .next { s with dev := (s.dev.memReqIn s.clk x).flowControl } := onDev_ingress_open on taken (.memReq x)

/-! ### Accesses that wait or are refused (R257 to R259, R264, R387) -/

/-- The remote access that a request makes: its first byte, its bytes and the right it needs. A signal makes none. -/
def accessOf : MemReqKind → Option (Nat × Nat × RemoteRight)
  | .load a n => some (a.toNat, n.val, .load)
  | .store a data _ => some (a.toNat, data.length, .store)
  | .atomic _ size64 a _ _ _ => some (a.toNat, atomicBytes size64, .atomic)
  | .signal _ _ => none

/-- The device after it has seen the number of an atomic; another request has none. -/
def Dev.numbered (d : Dev) (m : MemReq) : Dev :=
  match m.kind with
  | .atomic _ _ _ _ _ seq => (d.atomicNumber m.src.toNat seq.toNat).1
  | _ => d

theorem Dev.remoteBar_numbered (d : Dev) (g seq g' q a n : Nat) (r : RemoteRight) :
    (d.atomicNumber g seq).1.remoteBar g' q a n r = d.remoteBar g' q a n r := rfl

section
variable {d : Dev} {m : MemReq} {a n : Nat} {r : RemoteRight} (access : accessOf m.kind = some (a, n, r))
include access

theorem Dev.memReqIn_waits (c : Clock) (ecc : List EccFinding) (waits : d.remoteBar m.src.toNat m.partition.val a n r = some .waits) :
    d.memReqIn c ⟨m, ecc⟩ = { d with heldIn := d.heldIn ++ [.memReq ⟨m, ecc⟩] } := by
  obtain ⟨src, partition, e2e, kind⟩ := m
  cases kind <;> cases access <;> simp only [Dev.memReqIn, Dev.remoteBar_numbered, waits]

theorem Dev.memReqIn_denied (c : Clock) (ecc : List EccFinding) (denied : d.remoteBar m.src.toNat m.partition.val a n r = some .denied) :
    d.memReqIn c ⟨m, ecc⟩ = ((d.numbered m).bump 0x8090 3 0 1).answer c m .denied := by
  obtain ⟨src, partition, e2e, kind⟩ := m
  cases kind <;> cases access <;> simp only [Dev.memReqIn, Dev.remoteBar_numbered, denied] <;> rfl

end

/-! ### Accesses that are served (R258, R259, R263) -/

section
variable {d : Dev} {m : MemReq}

theorem Dev.memReqIn_load {a : BitVec 41} {n : Fin 4097} (kind : m.kind = .load a n) (c : Clock) (ecc : List EccFinding)
    (free : d.remoteBar m.src.toNat m.partition.val a.toNat n.val .load = none) :
    d.memReqIn c ⟨m, ecc⟩ = (d.eccAll c none ecc).answer c m
      (.data ((d.eccAll c none ecc).memNow.read a.toNat n.val) ((d.eccAll c none ecc).memNow.anyPoison a.toNat n.val)) := by
  simp only [Dev.memReqIn, kind, free]

theorem Dev.memReqIn_store {a : BitVec 41} {data : List Byte} {p : Bool} (kind : m.kind = .store a data p) (c : Clock)
    (ecc : List EccFinding) (free : d.remoteBar m.src.toNat m.partition.val a.toNat data.length .store = none) :
    d.memReqIn c ⟨m, ecc⟩ = (d.memStore a.toNat data p).answer c m .ack := by
  simp only [Dev.memReqIn, kind, free]

theorem Dev.memReqIn_atomic {aop : Fin 16} {size64 : Bool} {a : BitVec 41} {x y : BitVec 64} {seq : BitVec 16}
    (kind : m.kind = .atomic aop size64 a x y seq) (c : Clock) (ecc : List EccFinding)
    (free : d.remoteBar m.src.toNat m.partition.val a.toNat (atomicBytes size64) .atomic = none) :
    d.memReqIn c ⟨m, ecc⟩ = ((d.atomicNumber m.src.toNat seq.toNat).1.eccAll c none ecc).atomicIn c m aop.val size64 a.toNat x.toNat
      y.toNat seq.toNat (d.atomicNumber m.src.toNat seq.toNat).2 := by
  simp only [Dev.memReqIn, kind, Dev.remoteBar_numbered, free]

end

/-! ### Atomics that are served (R263, R264) -/

section
variable {d : Dev} {c : Clock} {m : MemReq} {seq : Nat} (aop : Nat) (size64 : Bool) (addr a b n : Nat)

/-- A repeated atomic is answered from the responses kept for its source. -/
theorem Dev.atomicIn_repeated {r : RespCache} {w : Nat} (cache : d.respCache m.src.toNat = some r)
    (kept : SMap.get (fun _ => none) r.entries (seq % 64) = some (seq, w)) :
    d.atomicIn c m aop size64 addr a b seq n = (d.bump 0x8090 5 0 1).answer c m (.old (BitVec.ofNat 64 w) (bit w 64)) := by
  simp [Dev.atomicIn, cache, kept, Option.filter]

/-- A new source, or a number beyond what is served, is refused. -/
theorem Dev.atomicIn_refused (new : d.respCache m.src.toNat = none) (beyond : 4096 ≤ d.respCaches.length ∨ 65536 ≤ n) :
    d.atomicIn c m aop size64 addr a b seq n = d.answer c m .atomicRefused := by
  simp [Dev.atomicIn, Dev.atomicFresh, new, beyond]

end

/-! ### Signals (R232) -/

/-- May another device signal a valve of cluster `cl`? -/
def Dev.admitsSignal (d : Dev) (m : MemReq) (cl : Nat) : Bool :=
  match d.clusterOwner cl with
  | some p => remoteSignalOk d.remoteEntries m.src.toNat m.partition.val p && !d.clusterFaulted cl
  | none => false

/-- A signal of another device is an operation of the context that holds the valve's cluster, where there is one. -/
def Dev.remoteSignal (d : Dev) (v n : Nat) : Dev :=
  match (d.cluster (v / 512)).holder with
  | some k => (d.valveTouch k v false).addSignal (some k) v n
  | none => d.addSignal none v n

theorem Dev.memReqIn_signal {d : Dev} {m : MemReq} {v : Fin 16384} {k : BitVec 32} (kind : m.kind = .signal v k) (c : Clock)
    (ecc : List EccFinding) : d.memReqIn c ⟨m, ecc⟩ =
      if d.admitsSignal m (v.val / 512) then (d.remoteSignal v.val k.toNat).answer c m .ack
      else (d.bump 0x8080 9 0 1).answer c m .valveDenied := by
  simp only [Dev.memReqIn, kind, Dev.admitsSignal, Dev.remoteSignal]
  cases (d.cluster (v.val / 512)).holder <;> rfl

theorem Dev.admitsSignal_owned {d : Dev} {m : MemReq} {cl p : Nat} (owner : d.clusterOwner cl = some p)
    (may : remoteSignalOk d.remoteEntries m.src.toNat m.partition.val p = true) (up : d.clusterFaulted cl = false) :
    d.admitsSignal m cl = true := by
  simp only [Dev.admitsSignal, owner, may, up, Bool.not_false, Bool.and_self]

theorem Dev.admitsSignal_barred {d : Dev} {m : MemReq} {cl : Nat} (barred : d.clusterOwner cl = none ∨ d.clusterFaulted cl = true ∨
    ∃ p, d.clusterOwner cl = some p ∧ remoteSignalOk d.remoteEntries m.src.toNat m.partition.val p = false) :
    d.admitsSignal m cl = false := by
  unfold Dev.admitsSignal
  split
  next p owner =>
    rw [Bool.and_eq_false_iff, Bool.not_eq_eq_eq_not, Bool.not_false]
    simpa [owner, or_comm] using barred
  next => rfl

end Sys2Proof.Machine

open Sys2Proof.Machine
namespace Sys2Proof

/-- Settles O48: each request is served, waits or is refused by what stands in its way, and does what its kind says. -/
theorem remoteRequestsAreServedOrRefused : Obligations.RemoteRequestsAreServedOrRefused := by
  intro s m ecc on taken bar does waits
  have serve : ∀ {d : Dev}, s.dev.memReqIn s.clk ⟨m, ecc⟩ = d → does d := fun h => by
    rw [← h]
    exact exec_memReq_open on taken ⟨m, ecc⟩
  refine ⟨fun a n kind => ?_, fun a data p kind => ?_, fun aop size64 a x y seq kind => ?_, fun v k kind => ?_⟩
  · have access : accessOf m.kind = some (a.toNat, n.val, .load) := by rw [kind]; rfl
    refine ⟨fun free e he => ?_, fun w => serve (Dev.memReqIn_waits access _ _ w), fun denied => ?_⟩
    · exact serve (he ▸ Dev.memReqIn_load kind s.clk ecc free)
    · exact serve ((Dev.memReqIn_denied access _ _ denied).trans (by rw [Dev.numbered, kind]))
  · have access : accessOf m.kind = some (a.toNat, data.length, .store) := by rw [kind]; rfl
    refine ⟨fun free => serve (Dev.memReqIn_store kind s.clk ecc free), fun w => serve (Dev.memReqIn_waits access _ _ w), fun denied => ?_⟩
    exact serve ((Dev.memReqIn_denied access _ _ denied).trans (by rw [Dev.numbered, kind]))
  · have access : accessOf m.kind = some (a.toNat, atomicBytes size64, .atomic) := by rw [kind]; rfl
    intro d n e
    have kept : e.respCaches = s.dev.respCaches := (d.servingOnly_eccAll s.clk ecc).respCaches
    have cached : ∀ g, e.respCache g = s.dev.respCache g := fun g => by rw [Dev.respCache, kept, Dev.respCache]
    refine ⟨fun free => ?_, fun w => serve (Dev.memReqIn_waits access _ _ w), fun denied => ?_⟩
    · have served := Dev.memReqIn_atomic kind s.clk ecc free
      refine ⟨serve served, fun c w cache again => ?_, fun new beyond => ?_⟩
      · exact serve (served.trans (Dev.atomicIn_repeated _ _ _ _ _ _ ((cached _).trans cache) again))
      · exact serve (served.trans (Dev.atomicIn_refused _ _ _ _ _ _ ((cached _).trans new) (kept ▸ beyond)))
    · exact serve ((Dev.memReqIn_denied access _ _ denied).trans (by rw [Dev.numbered, kind]))
  · have signal := Dev.memReqIn_signal (d := s.dev) kind s.clk ecc
    refine ⟨fun p owner may up => ?_, fun barred => ?_⟩
    · rw [if_pos (Dev.admitsSignal_owned owner may up), Dev.remoteSignal] at signal
      refine ⟨fun j holder => ?_, fun free => ?_⟩
      · exact serve (signal.trans (by rw [holder]))
      · exact serve (signal.trans (by rw [free]))
    · exact serve (signal.trans (if_neg (by rw [Dev.admitsSignal_barred barred]; decide)))

end Sys2Proof
end

section
/-! PROOFS. Requests of this device end by a response or by a timeout (R259, R264, R265, R267, R307). -/

namespace Sys2Proof.Machine

/-! ### Responses (R259, R262, R307) -/

theorem exec_memResp_open {s : State} (on : s.dev.life = .on) (taken : s.clk.open = true) (m : MemResp) :
    exec (.memResp m) s = .next { s with dev := (s.dev.memRespIn s.clk m).flowControl } := onDev_ingress_open on taken (.memResp m)

/-- What a response of each kind does to the request that it answers. -/
def Dev.answered (d : Dev) (r : Req) : MemRespKind → Dev
  | .data bs poison => match r.load with
    | some x => d.bytesArrive r x.1 bs poison
    | none => d
  | .old word poison => match r.content with
    | .memReq ⟨_, _, _, .atomic _ size64 a _ _ _⟩ => d.bytesArrive r a.toNat (natLe (atomicBytes size64) word.toNat) poison
    | _ => d
  | .ack => if r.load.isNone then d.storeDone r else d
  | .denied => d.reqFail r .remoteAccessDenied
  | .valveDenied => d.reqFail r .valveAccessFault
  | .atomicRefused => d.reqFail r .atomicRefused
  | .noRoute => (d.bump 0x80B0 7 0 1).reqFail r r.noRouteStatus

theorem Dev.noRouteReq_counted {d : Dev} {g k : Nat} {r : Req} (request : d.reqOf g k = some r) (i j e n : Nat) :
    (d.bump i j e n).noRouteReq g k = some r := by
  have same : (d.bump i j e n).reqOf g k = some r := request
  rw [Dev.noRouteReq, same]

/-- A response without an echo reaches the request outstanding under its number, and whatever waited goes on. -/
theorem Dev.memRespIn_answers {d : Dev} {m : MemResp} {r : Req} (c : Clock) (plain : m.ecnEcho = false)
    (request : d.reqOf m.src.toNat m.e2e.toNat = some r) : d.memRespIn c m = (d.answered r m.kind).goOn c := by
  obtain ⟨src, e2e, kind, echo⟩ := m
  subst plain
  cases kind with
  | noRoute =>
    simp only [Dev.memRespIn, if_true, Bool.false_eq_true, if_false, Dev.noRouteReq_counted request]
    rfl
  | _ =>
    simp only [Dev.memRespIn, reduceCtorEq, Bool.false_eq_true, if_false, request]
    rfl

/-! ### The rows of the timeouts (R264, R265, R267) -/

section
variable {s : State} (on : s.dev.life = .on) (g : Geid) (e : BitVec 16)
include on

theorem exec_atomicReplyTimeout :
    exec (.atomicReplyTimeout g e) s = .next { s with dev := s.dev.atomicTimeout s.clk g.toNat e.toNat } :=
  onDev_on on fun clk d => d.atomicTimeout clk g.toNat e.toNat

theorem exec_requestReplyTimeout :
    exec (.requestReplyTimeout g e) s = .next { s with dev := s.dev.replyTimeout s.clk g.toNat e.toNat } :=
  onDev_on on fun clk d => d.replyTimeout clk g.toNat e.toNat

theorem exec_atomicRetransmit :
    exec (.atomicRetransmit g e) s = .next { s with dev := s.dev.retransmit s.clk g.toNat e.toNat true } :=
  onDev_on on fun clk d => d.retransmit clk g.toNat e.toNat true

theorem exec_loadRetransmit :
    exec (.loadRetransmit g e) s = .next { s with dev := s.dev.retransmit s.clk g.toNat e.toNat false } :=
  onDev_on on fun clk d => d.retransmit clk g.toNat e.toNat false

end

/-! ### Timeouts (R265, R267) -/

section
variable {d : Dev} {c : Clock} {g e : Nat} {r : Req}

theorem Dev.atomicTimeout_atomic {id : Nat} (request : d.reqOf g e = some r) (atomic : r.owner = .atomic id) :
    d.atomicTimeout c g e = (d.reqFail r .indeterminate).goOn c := by
  simp only [Dev.atomicTimeout, request, Option.filter, atomic, if_true]

theorem Dev.atomicTimeout_other (request : d.reqOf g e = some r) (other : ∀ id, r.owner ≠ .atomic id) : d.atomicTimeout c g e = d := by
  rw [Dev.atomicTimeout, request, Option.filter_some]
  cases owner : r.owner with
  | atomic id => exact absurd owner (other id)
  | _ => simp

theorem Dev.atomicTimeout_none (gone : d.reqOf g e = none) : d.atomicTimeout c g e = d := by
  simp only [Dev.atomicTimeout, gone, Option.filter_none]

theorem Dev.replyTimeout_atomic {id : Nat} (request : d.reqOf g e = some r) (atomic : r.owner = .atomic id) :
    d.replyTimeout c g e = d := by
  simp only [Dev.replyTimeout, request, atomic]

theorem Dev.replyTimeout_other (request : d.reqOf g e = some r) (other : ∀ id, r.owner ≠ .atomic id) :
    d.replyTimeout c g e = (d.reqFail r .targetUnreachable).goOn c := by
  rw [Dev.replyTimeout, request]
  cases owner : r.owner with
  | atomic id => exact absurd owner (other id)
  | _ => simp only [owner]

theorem Dev.replyTimeout_bulk {b : SentBulk} (gone : d.reqOf g e = none)
    (sent : d.sentBulks.find? (fun b => b.dest = g && b.e2e = e) = some b) :
    d.replyTimeout c g e = d.bulkEnds c b (some .targetUnreachable) := by
  simp only [Dev.replyTimeout, gone, sent]

/-! ### Retransmissions (R264, R267) -/

/-- The device after request `r` has been sent again. -/
def Dev.resent (d : Dev) (c : Clock) (r : Req) : Dev :=
  { (d.resend c r).1 with reqs := (d.resend c r).1.reqs.map fun x => if x.id = r.id then { x with retransmitted := true } else x }

theorem Dev.retransmit_closed (closed : c.stage ≠ .work) (atomic : Bool) : d.retransmit c g e atomic = d := by
  unfold Dev.retransmit
  split
  · rfl
  · exact if_pos (by simpa using closed)

theorem Dev.retransmit_none (gone : d.reqOf g e = none) (atomic : Bool) : d.retransmit c g e atomic = d := by
  simp only [Dev.retransmit, gone, Option.filter_none]

theorem Dev.retransmit_atomic (work : c.stage = .work) (request : d.reqOf g e = some r) (load : r.load.isNone = true)
    (key : r.owner.loadKey.isSome = true) (sent : (d.resend c r).2 = true) :
    d.retransmit c g e true = (d.resent c r).bump 0x8090 6 0 1 := by
  simp only [Dev.retransmit, request, Option.filter, load, key, work, sent, Bool.and_self, if_true, bne_self_eq_false, Bool.false_eq_true,
    if_false, Bool.not_true]
  rfl

theorem Dev.retransmit_load (work : c.stage = .work) (request : d.reqOf g e = some r) (load : r.load.isSome = true)
    (sent : (d.resend c r).2 = true) : d.retransmit c g e false = d.resent c r := by
  simp only [Dev.retransmit, request, Option.filter, load, work, sent, if_true, bne_self_eq_false, Bool.false_eq_true, if_false,
    Bool.not_true]
  rfl

end

end Sys2Proof.Machine

open Sys2Proof.Machine
namespace Sys2Proof

/-- Settles O49: a response does what its kind says to its request, and each timeout acts on the requests of its own kind alone. -/
theorem requestsEndByAnswerOrTimeout : Obligations.RequestsEndByAnswerOrTimeout := by
  refine ⟨fun s m r on taken plain request => ?_, fun s g e on => ⟨fun r request => ?_, fun gone => ?_⟩⟩
  · intro does
    have answers : ∀ {d : Dev}, s.dev.answered r m.kind = d → does (d.goOn s.clk) := fun h => by
      rw [← h, ← Dev.memRespIn_answers s.clk plain request]
      exact exec_memResp_open on taken m
    refine ⟨fun bs p x kind load => ?_, fun kind load => ?_, fun w p h1 h2 h3 q sz ad u v n kind content => ?_, fun kind => ?_,
      fun kind => ?_, fun kind => ?_, fun kind => ?_⟩ <;> refine answers ?_ <;> rw [kind]
    · rw [Dev.answered, load]
    · rw [Dev.answered, load]
      rfl
    · rw [Dev.answered, content]
    all_goals rfl
  · refine ⟨fun id atomic => ⟨?_, ?_⟩, fun other => ⟨?_, ?_⟩, fun work load key sent => ?_, fun work load sent => ?_, fun closed => ⟨?_, ?_⟩⟩
    · rw [exec_atomicReplyTimeout on, Dev.atomicTimeout_atomic request atomic]
    · rw [exec_requestReplyTimeout on, Dev.replyTimeout_atomic request atomic]
    · rw [exec_requestReplyTimeout on, Dev.replyTimeout_other request other]
    · rw [exec_atomicReplyTimeout on, Dev.atomicTimeout_other request other]
    · rw [exec_atomicRetransmit on, Dev.retransmit_atomic work request load key sent, Dev.resent]
    · rw [exec_loadRetransmit on, Dev.retransmit_load work request load sent, Dev.resent]
    · rw [exec_atomicRetransmit on, Dev.retransmit_closed closed]
    · rw [exec_loadRetransmit on, Dev.retransmit_closed closed]
  · refine ⟨?_, fun b sent => ?_⟩
    · simp [exec_atomicReplyTimeout on, exec_atomicRetransmit on, exec_loadRetransmit on, Dev.atomicTimeout_none gone,
        Dev.retransmit_none gone]
    · rw [exec_requestReplyTimeout on, Dev.replyTimeout_bulk gone sent]

end Sys2Proof
end

section
/-! PROOFS. Walks, pages and scrubbing (R253, R254, R406, R407). -/

namespace Sys2Proof.Machine

/-! ### Walks (R254) -/

theorem exec_translationWalkDone {s : State} (on : s.dev.life = .on) (cl : ClusterId) (k : Fin 4096) (va : BitVec 48) (store : Bool) :
    exec (.translationWalkDone cl k va store) s = .next { s with dev := s.dev.walkDone cl.val k.val va.toNat store } :=
  onDev_on on fun _ d => d.walkDone cl.val k.val va.toNat store

section
variable {d : Dev} {cl k va : Nat} {store : Bool}

theorem Dev.walkDone_barred {b : Bar} (barred : (d.bump 0x8090 1 cl 1).locate k va store = .error b) :
    d.walkDone cl k va store = d.bump 0x8090 1 cl 1 := by
  simp only [Dev.walkDone, barred]

variable {m : Mapping} (found : (d.bump 0x8090 1 cl 1).locate k va store = .ok m)
include found

theorem Dev.walkDone_cached (cached : (d.cluster cl).tlb.contains (k, va / 2 ^ m.bits) = true) :
    d.walkDone cl k va store = d.bump 0x8090 1 cl 1 := by
  simp only [Dev.walkDone, found, cached, if_true]

theorem Dev.walkDone_joins (new : (d.cluster cl).tlb.contains (k, va / 2 ^ m.bits) = false) (room : (d.cluster cl).tlb.length < 4096) :
    d.walkDone cl k va store = (d.bump 0x8090 1 cl 1).updCluster cl fun x =>
      { x with tlb := (d.cluster cl).tlb ++ [(k, va / 2 ^ m.bits)] } := by
  simp only [Dev.walkDone, found, new, room, Bool.false_eq_true, if_false, if_true]

theorem Dev.walkDone_replaces (new : (d.cluster cl).tlb.contains (k, va / 2 ^ m.bits) = false) (full : 4096 ≤ (d.cluster cl).tlb.length) :
    d.walkDone cl k va store = (d.bump 0x8090 1 cl 1).tickFree.updCluster cl fun x =>
      { x with tlb := (d.cluster cl).tlb.set (Config.freeChoice d.freeCtr % 4096) (k, va / 2 ^ m.bits) } := by
  simp only [Dev.walkDone, found, new, Nat.not_lt.2 full, Bool.false_eq_true, if_false, Dev.bump_freeCtr]

end

/-! ### Pages brought in (R253) -/

theorem exec_pageBroughtIn {s : State} (on : s.dev.life = .on) (k : Fin 4096) (va : BitVec 48) (ok : Bool) :
    exec (.pageBroughtIn k va ok) s = .next { s with dev := s.dev.pageIn s.clk k.val va.toNat ok } :=
  onDev_on on fun clk d => d.pageIn clk k.val va.toNat ok

theorem Dev.reserveNext_empty {d : Dev} {p : Nat} (empty : d.v (0x5300 + p) 3 0 = 0) : d.reserveNext p = none := by
  simp [Dev.reserveNext, empty]

section
variable {d : Dev} {k va : Nat} (c : Clock)

theorem Dev.pageIn_noFrame (none_left : d.reserveNext (d.ctx k).partition = none) (ok : Bool) : d.pageIn c k va ok = d.goOn c := by
  unfold Dev.pageIn
  simp only [none_left]
  split
  next none_some => exact absurd none_some nofun
  next => rfl

variable {a e f : Nat}
  (absent : walk d.mem (d.share (d.ctx k).partition) d.straps (d.ctx k).tableRoot va = .absent a e)
  (frame : d.reserveNext (d.ctx k).partition = some f) (good : d.badPages.contains (k, va / 65536) = false)
include absent frame good

theorem Dev.pageIn_failed (host : fld e 61 60 = 2) :
    d.pageIn c k va false = ({ d with badPages := d.badPages ++ [(k, va / 65536)] } : Dev).goOn c := by
  simp only [Dev.pageIn, absent, frame, good, host, Bool.false_eq_true, if_false, decide_true, Bool.not_false, Bool.and_self, if_true]

/-- The page `e` of the device, whose entry stands at `a`, filled and mapped in frame `f`. -/
def Dev.pageFilled (d : Dev) (a e f : Nat) : Dev :=
  (d.memStore f (if fld e 61 60 = 2 then d.hostBytes (fld e 47 0 * 65536) 65536 else List.replicate 65536 0#8) false).memStore a
    (natLe 8 (broughtEntry d.straps e f)) false

theorem Dev.pageIn_filled {ok : Bool} (read : fld e 61 60 ≠ 2 ∨ ok = true) :
    d.pageIn c k va ok = (((d.pageFilled a e f).setV (0x5300 + (d.ctx k).partition) 3 0
      (d.v (0x5300 + (d.ctx k).partition) 3 0 - 1)).bump 0x8090 2 (d.ctx k).partition 1).goOn c := by
  have answered : (decide (fld e 61 60 = 2) && !ok) = false := by
    rcases read with h | h <;> simp [h]
  simp only [Dev.pageIn, absent, frame, good, answered, Bool.false_eq_true, if_false]
  rfl

end

/-! ### Scrubbing (R406, R407) -/

theorem exec_scrub {s : State} (on : s.dev.life = .on) (ci : CisternId) (found : Option Bool) :
    exec (.scrub ci found) s = .next { s with dev := s.dev.scrub s.clk ci.val found } := onDev_on on fun clk d => d.scrub clk ci.val found

/-- May a cistern's scrubber read at `c` (R30, R407)? -/
structure Dev.MayScrub (d : Dev) (c : Clock) (ci : Nat) : Prop where
  enabled : d.v 0x7200 1 0 ≠ 0
  primed : d.primeOf (64 + ci) = 1
  served : d.slotOn = false
  hours : c.stage = .work ∨ c.stage = .burstEnded ∨ c.stage = .valvesReset

/-- The line that a cistern's scrubber reads next. -/
def Dev.scrubNext (d : Dev) (ci : Nat) : Nat := scrubLine d.splits ci (SMap.get (fun _ => 0) d.scrubAt ci % cisternLines)

/-- The scrubber that reads in `d` moves on, in `e`, and counts a complete pass of all cisterns. -/
def Dev.scrubMoves (d e : Dev) (ci : Nat) : Dev :=
  let n := SMap.get (fun _ => 0) d.scrubAt ci
  let least := fun (m : SMap Nat) => (List.range 32).foldl (fun x i => min x (SMap.get (fun _ => 0) m i / cisternLines)) n.succ
  let at1 := SMap.put (fun _ => 0) d.scrubAt ci (n + 1)
  ({ e with scrubAt := at1 } : Dev).bump 0x80F0 6 0 (least at1 - least d.scrubAt)

/-- What the symbol code finds in a scrubbed line `a`, counted: a correction, or an error that poisons the line. -/
def Dev.scrubFound (d : Dev) (ci a : Nat) : Option Bool → Dev
  | none => d
  | some false => d.bump 0x80F0 1 ci 1
  | some true => ({ d with mem := d.mem.setPoison (a / 64) true } : Dev).bump 0x80F0 2 ci 1

/-- A poisoned line is recorded. -/
def Dev.poisonLogged (d : Dev) (c : Clock) (ci a : Nat) : Dev :=
  d.tickFree.logStatus c 9 (freeStatus d.freeCtr) (Config.freeChoice d.freeCtr % 4) a .cistern ci

theorem Dev.mayScrub_iff (d : Dev) (c : Clock) (ci : Nat) : (d.v 0x7200 1 0 = 0 || d.primeOf (64 + ci) != 1 || d.slotOn ||
    (c.stage != .work && c.stage != .burstEnded && c.stage != .valvesReset)) = false ↔ d.MayScrub c ci := by
  simp only [Bool.or_eq_false_iff, Bool.and_eq_false_iff, decide_eq_false_iff_not, bne_eq_false_iff_eq]
  exact ⟨fun ⟨⟨⟨enabled, primed⟩, served⟩, hours⟩ => ⟨enabled, primed, served, or_assoc.1 hours⟩,
    fun ⟨enabled, primed, served, hours⟩ => ⟨⟨⟨enabled, primed⟩, served⟩, or_assoc.2 hours⟩⟩

theorem Dev.scrub_barred {d : Dev} {c : Clock} {ci : Nat} (barred : ¬d.MayScrub c ci) (found : Option Bool) : d.scrub c ci found = d :=
  if_pos (eq_true_of_ne_false (mt (d.mayScrub_iff c ci).1 barred))

theorem Dev.scrub_reads {d : Dev} {c : Clock} {ci : Nat} (may : d.MayScrub c ci) (found : Option Bool) :
    d.scrub c ci found = d.scrubMoves (if (d.scrubFound ci (d.scrubNext ci) found).mem.poisoned (d.scrubNext ci) then
      (d.scrubFound ci (d.scrubNext ci) found).poisonLogged c ci (d.scrubNext ci) else d.scrubFound ci (d.scrubNext ci) found) ci :=
  if_neg (Bool.eq_false_iff.1 ((d.mayScrub_iff c ci).2 may))

theorem Dev.scrub_clean {d : Dev} {c : Clock} {ci : Nat} (may : d.MayScrub c ci) {found : Option Bool}
    (clean : (d.scrubFound ci (d.scrubNext ci) found).mem.poisoned (d.scrubNext ci) = false) :
    d.scrub c ci found = d.scrubMoves (d.scrubFound ci (d.scrubNext ci) found) ci := by
  rw [Dev.scrub_reads may, clean, if_neg Bool.false_ne_true]

theorem Dev.scrub_poisoned {d : Dev} {c : Clock} {ci : Nat} (may : d.MayScrub c ci) {found : Option Bool}
    (poisoned : (d.scrubFound ci (d.scrubNext ci) found).mem.poisoned (d.scrubNext ci) = true) :
    d.scrub c ci found = d.scrubMoves ((d.scrubFound ci (d.scrubNext ci) found).poisonLogged c ci (d.scrubNext ci)) ci := by
  rw [Dev.scrub_reads may, poisoned, if_pos rfl]

/-- A line that the code could not correct is poisoned. -/
theorem Dev.poisoned_scrubFound (d : Dev) (ci a : Nat) : (d.scrubFound ci a (some true)).mem.poisoned a = true :=
  SMap.get_put_self poisonDflt d.mem.poison (a / 64) true

end Sys2Proof.Machine

open Sys2Proof.Machine
namespace Sys2Proof

/-- Settles O55: what a walk, a page brought in and a scrubber do is one lemma for each outcome. -/
theorem translationsPagesAndScrubs : Obligations.TranslationsPagesAndScrubs := by
  refine ⟨fun s cl k va store on => ?_, fun s k va ok on => ?_, fun s ci on => ?_⟩
  · rw [exec_translationWalkDone on]
    refine ⟨fun b barred => ?_, fun m found => ⟨fun cached => ?_, fun new room => ?_, fun new full => ?_⟩⟩
    · rw [Dev.walkDone_barred barred]
    · rw [Dev.walkDone_cached found cached]
    · rw [Dev.walkDone_joins found new room]
    · exact ⟨_, Nat.mod_lt _ (by decide), by rw [Dev.walkDone_replaces found new full]⟩
  · rw [exec_pageBroughtIn on]
    refine ⟨fun a e f absent frame good => ⟨fun read => ?_, fun host failed => ?_⟩, fun no_frame => ?_, Dev.reserveNext_empty⟩
    · rw [Dev.pageIn_filled s.clk absent frame good read, Dev.pageFilled]
    · rw [failed, Dev.pageIn_failed s.clk absent frame good host]
    · rw [Dev.pageIn_noFrame s.clk no_frame]
  · refine ⟨fun barred x => ?_, fun enabled primed served hours => ?_⟩
    · have shut : ¬s.dev.MayScrub s.clk ci.val := fun ⟨enabled, primed, served, hours⟩ => by
        rcases barred with slot | off | early | ⟨work, burst, valves⟩
        · exact absurd (served.symm.trans slot) Bool.false_ne_true
        · exact enabled off
        · exact early primed
        · exact hours.elim work fun late => late.elim burst valves
      rw [exec_scrub on, Dev.scrub_barred shut]
    · have may : s.dev.MayScrub s.clk ci.val := ⟨enabled, primed, served, hours⟩
      refine ⟨fun clean => ⟨?_, ?_⟩, fun poisoned => ?_, ?_⟩
      · rw [exec_scrub on, Dev.scrub_clean (found := none) may clean]
        rfl
      · rw [exec_scrub on, Dev.scrub_clean (found := some false) may clean]
        rfl
      · rw [exec_scrub on, Dev.scrub_poisoned (found := none) may poisoned]
        rfl
      · rw [exec_scrub on, Dev.scrub_poisoned may (s.dev.poisoned_scrubFound ci.val _)]
        rfl

end Sys2Proof
end

section
/-! PROOFS. Atomic commands on memory of this device (R241, R262 to R264). -/

namespace Sys2Proof.Machine

theorem exec_atomic_eq {row : (CmdRead → Instr) × Nat} (mem : row ∈ atomicRows) (q : CmdRead) (s : State) :
    exec (row.1 q) s = onDev s fun clk d => d.issueAtomic clk q row.2 := by
  simp only [atomicRows, List.mem_cons, List.not_mem_nil, or_false] at mem
  rcases mem with rfl | rfl | rfl | rfl | rfl | rfl | rfl <;> rfl

/-- A queue's ATOMIC issues under the row of its own operation. -/
theorem Dev.issueAtomic_at {s : State} {q : CmdRead} {x : QCmd} (h : s.CmdAt q.q.val 8 x) :
    s.dev.issueAtomic s.clk q (AtomicDesc.ofWord (envPayload x.env)).aop = (s.dev.readCmd s.clk x q).runAtomic s.clk x := by
  unfold Dev.issueAtomic
  simp only [h.next, bne_self_eq_false, Bool.and_false, Bool.false_and, Bool.false_eq_true, if_false]
  exact Dev.issueRead_at h _

section
variable {d : Dev} {c : Clock} {x : QCmd} {a : AtomicDesc} {m : Mapping}

/-- An atomic that has not been sent works on its target in memory of this device. -/
theorem Dev.runAtomic_here {f : Nat} (desc : AtomicDesc.ofWord (envPayload x.env) = a) (ok : atomicDescOk (envPayload x.env) = true)
    (unfetched : d.fetched.find? (fun y => y.cmd = x.id) = none) (unasked : (d.reqs.any fun r => decide (r.owner = .atomic x.id)) = false)
    (located : d.locate x.ctx a.target true = .ok m) (here : m.frame = .here f) :
    d.runAtomic c x = d.unitRun c (whoCmd x) fun d => d.atomicHere c x a m := by
  subst desc
  simp only [Dev.runAtomic, unfetched, unasked, ok, located, here, Bool.not_true, Bool.false_eq_true, if_false]

/-- Memory after the atomic `a` of command `id` on the target at `addr`, poisoned where the command has been spoiled (R412). -/
def Dev.atomicWritten (d : Dev) (id addr : Nat) (a : AtomicDesc) : Memory :=
  let written := (atomicApply d.mem a.aop a.size64 addr a.a a.b).1
  if d.spoiled id then written.setPoison (addr / 64) true else written

/-- The device after the atomic `a` of command `x` on a target of its own: memory, caches, and what the context's verdict and lock-step need. -/
def Dev.atomicDone (d : Dev) (c : Clock) (x : QCmd) (a : AtomicDesc) (m : Mapping) : Dev :=
  let addr := m.addr a.target
  let n := atomicBytes a.size64
  let poisoned := d.mem.anyPoison addr n
  let mem := d.atomicWritten x.id addr a
  (((({ d with mem := mem } : Dev).countPartial addr n).atomicDrop x.ctx m addr).updCtx x.ctx fun k => { k with
    wrote := k.wrote ++ [(addr, n)], poisonWritten := k.poisonWritten || (poisoned && a.aop != 2) || d.spoiled x.id }).lsStore c
      (whoCmd x) a.target (natLe n (mem.le addr n)) (poisoned || d.spoiled x.id)

theorem Dev.atomicHere_free (free : d.cisternBar (m.addr a.target) (atomicBytes a.size64) = none) : d.atomicHere c x a m =
    (d.atomicDone c x a m).atomicResult c x a (natLe (atomicBytes a.size64) (d.mem.le (m.addr a.target) (atomicBytes a.size64)))
      (d.mem.anyPoison (m.addr a.target) (atomicBytes a.size64)) := by
  simp only [Dev.atomicHere, free]
  rfl

end

end Sys2Proof.Machine

open Sys2Proof.Machine
namespace Sys2Proof

/-- Settles O25: the row issues the command of its operation, whose unit finds its target here and writes its result. -/
theorem atomicsReplaceTheirTarget : Obligations.AtomicsReplaceTheirTarget := by
  intro s q x m f d2 hs row mem a d bad addr n old new written memory poisoned d0 d1 aop ok unfetched unasked located here free result
  have done : d.atomicHere s.clk x a m = .ok d2 := (Dev.atomicHere_free free).trans result
  rw [exec_atomic_eq mem, onDev_on hs.on, ← aop, Dev.issueAtomic_at hs, Dev.runAtomic_here rfl ok unfetched unasked located here,
    Dev.unitRun_ok done]

end Sys2Proof
end

section
/-! PROOFS. Packet headers and link offers (R292, R300). A word composed of fields side by side is a number in mixed radix: each of its
fields, at the sum of the widths below it, reads back. -/

namespace Sys2Proof.Machine

/-! ### Words composed of fields -/

/-- The word whose fields are `fs`, each a width and a value, the lowest first. Headers (`Dev.header_eq_packedWord`) and offers
(`Dev.offerBits_eq_packedWord`) are such words. -/
def packedWord : List (Nat × Nat) → Nat
  | [] => 0
  | f :: fs => f.2 + 2 ^ f.1 * packedWord fs

/-- The bits that fields take. -/
def packedWidth : List (Nat × Nat) → Nat
  | [] => 0
  | f :: fs => packedWidth fs + f.1

/-- Every field has a bit, and its value fits. -/
def FieldsFit (fs : List (Nat × Nat)) : Prop := ∀ f ∈ fs, 0 < f.1 ∧ f.2 < 2 ^ f.1

theorem FieldsFit.tail {f : Nat × Nat} {fs : List (Nat × Nat)} (fit : FieldsFit (f :: fs)) : FieldsFit fs :=
  fun x hx => fit x (List.mem_cons_of_mem f hx)

theorem packedWord_lt {fs : List (Nat × Nat)} (fit : FieldsFit fs) : packedWord fs < 2 ^ packedWidth fs := by
  induction fs with
  | nil => exact Nat.one_pos
  | cons f fs ih =>
    have low : f.2 < 2 ^ f.1 := (fit f List.mem_cons_self).2
    have high : packedWord fs + 1 ≤ 2 ^ packedWidth fs := ih fit.tail
    calc packedWord (f :: fs) = f.2 + 2 ^ f.1 * packedWord fs := rfl
      _ < 2 ^ f.1 * (packedWord fs + 1) := by rw [Nat.mul_succ]; omega
      _ ≤ 2 ^ f.1 * 2 ^ packedWidth fs := Nat.mul_le_mul_left _ high
      _ = 2 ^ packedWidth (f :: fs) := by rw [packedWidth, Nat.pow_add, Nat.mul_comm]

theorem packedWord_field {fs : List (Nat × Nat)} (fit : FieldsFit fs) (i : Nat) (hi : i < fs.length) :
    packedWord fs / 2 ^ packedWidth (fs.take i) % 2 ^ fs[i].1 = fs[i].2 := by
  induction fs generalizing i with
  | nil => exact absurd hi (Nat.not_lt_zero i)
  | cons f fs ih =>
    have low : f.2 < 2 ^ f.1 := (fit f List.mem_cons_self).2
    cases i with
    | zero => simp [packedWidth, packedWord, Nat.mod_eq_of_lt low]
    | succ i =>
      have drop : packedWord (f :: fs) / 2 ^ f.1 = packedWord fs := by
        rw [packedWord, Nat.add_mul_div_left _ _ (Nat.two_pow_pos _), Nat.div_eq_of_lt low, Nat.zero_add]
      have width : packedWidth ((f :: fs).take (i + 1)) = packedWidth (fs.take i) + f.1 := rfl
      rw [width, Nat.pow_add, Nat.mul_comm, ← Nat.div_div_eq_div_mul, drop]
      exact ih fit.tail i (Nat.lt_of_succ_lt_succ hi)

/-- Field `i` of a composed word reads back at the bits where it lies. -/
theorem fld_packedWord {fs : List (Nat × Nat)} (fit : FieldsFit fs) (i : Nat) {w v lo hi : Nat} (field : fs[i]? = some (w, v))
    (low : packedWidth (fs.take i) = lo) (high : lo + w - 1 = hi) : fld (packedWord fs) hi lo = v := by
  obtain ⟨inside, at_i⟩ := List.getElem?_eq_some_iff.1 field
  have read := packedWord_field fit i inside
  have pos := (fit _ (List.getElem_mem inside)).1
  rw [at_i] at read pos
  rw [← high, ← low, fld_eq_div_mod _ _ _ pos]
  exact read

theorem b2n_lt (b : Bool) : b2n b < 2 := by
  cases b <;> decide

/-- A field of one bit that was composed from a truth value reads back as that value. -/
theorem bit_packedWord {fs : List (Nat × Nat)} (fit : FieldsFit fs) (i : Nat) {b : Bool} {n : Nat} (field : fs[i]? = some (1, b2n b))
    (low : packedWidth (fs.take i) = n) : bit (packedWord fs) n = b := by
  have read : (packedWord fs >>> n) % 2 ^ (n + 1 - n) = b2n b := fld_packedWord fit i field low rfl
  rw [Nat.add_sub_cancel_left, Nat.pow_one] at read
  rw [bit, read]
  cases b <;> rfl

/-! ### Headers (R300) -/

theorem PType.code_lt (t : PType) : t.code < 16 := by
  cases t <;> decide

/-- The fields of R300, from the 18 reserved bits at the bottom up to PTYPE. -/
def Dev.headerFields (d : Dev) (c : Clock) (a : HdrArgs) : List (Nat × Nat) :=
  [(18, 0), (9, ceilDiv a.bytes 16 % 512), (16, a.e2e % 65536), (6, 63), (20, a.dest % 2 ^ 20), (20, d.geid), (3, a.partition % 8),
    (12, a.domain % 4096), (1, b2n a.echo), (2, b2n a.capable), (4, if a.ptype.tagged then c.stroke % 16 else 0), (1, b2n a.ptype.tagged),
    (8, d.v 0x4010 5 0), (3, 2 * a.cls), (1, b2n a.geidRoute), (4, a.ptype.code)]

theorem Dev.header_eq_packedWord (d : Dev) (c : Clock) (a : HdrArgs) : d.header c a = packedWord (d.headerFields c a) := by
  simp only [Dev.header, Dev.headerFields, packedWord]
  omega

theorem Dev.headerFields_fit {d : Dev} (c : Clock) {a : HdrArgs} (geid : d.geid < 2 ^ 20) (epoch : d.v 0x4010 5 0 < 256) (cls : a.cls < 4) :
    FieldsFit (d.headerFields c a) := by
  have tag : (if a.ptype.tagged then c.stroke % 16 else 0) < 16 := by split <;> omega
  have type : a.ptype.code < 16 := a.ptype.code_lt
  have echo := b2n_lt a.echo
  have capable := b2n_lt a.capable
  have tagged := b2n_lt a.ptype.tagged
  have geidRoute := b2n_lt a.geidRoute
  simp only [Dev.headerFields, FieldsFit, List.forall_mem_cons]
  refine ⟨?_, ?_, ?_, ?_, ?_, ?_, ?_, ?_, ?_, ?_, ?_, ?_, ?_, ?_, ?_, ?_, fun _ h => absurd h List.not_mem_nil⟩ <;>
    exact ⟨by decide, by omega⟩

/-! ### Link offers (R292) -/

theorem portHdie_lt (p : Nat) : portHdie p < 2 := by
  rw [portHdie]
  split <;> decide

/-- The fields of R292, from the reserved bits at the bottom up to the least version. -/
def Dev.offerFields (d : Dev) (p : Nat) : List (Nat × Nat) :=
  [(61, 0), (1, portHdie p), (5, p), (3, d.straps), (6, d.v 0x4000 2 0 % 64), (20, d.geid), (16, d.v 0x4000 3 0), (16, 1)]

theorem Dev.offerBits_eq_packedWord (d : Dev) (p : Nat) : d.offerBits p = packedWord (d.offerFields p) := by
  simp only [Dev.offerBits, Dev.offerFields, packedWord]
  omega

theorem Dev.offerFields_fit {d : Dev} (p : PortId) (geid : d.geid < 2 ^ 20) (most : d.v 0x4000 3 0 < 2 ^ 16) (straps : d.straps < 8) :
    FieldsFit (d.offerFields p.val) := by
  have hdie := portHdie_lt p.val
  have port : p.val < 32 := p.isLt
  simp only [Dev.offerFields, FieldsFit, List.forall_mem_cons]
  refine ⟨?_, ?_, ?_, ?_, ?_, ?_, ?_, ?_, fun _ h => absurd h List.not_mem_nil⟩ <;> exact ⟨by decide, by omega⟩

end Sys2Proof.Machine

open Sys2Proof.Machine
namespace Sys2Proof

/-- Settles O59: a header and an offer are words composed of fields that fit, so each field reads back. -/
theorem headersAndOffersReadBack : Obligations.HeadersAndOffersReadBack := by
  refine ⟨fun d c a geid epoch cls => ?_, fun d p geid most straps => ?_⟩
  · have fit := Dev.headerFields_fit c geid epoch cls
    have field := fld_packedWord fit
    rw [Dev.header_eq_packedWord]
    exact ⟨field 15 rfl rfl rfl, bit_packedWord fit 14 rfl rfl, field 13 rfl rfl rfl, field 12 rfl rfl rfl, bit_packedWord fit 11 rfl rfl,
      field 10 rfl rfl rfl, field 9 rfl rfl rfl, bit_packedWord fit 8 rfl rfl, field 7 rfl rfl rfl, field 6 rfl rfl rfl, field 5 rfl rfl rfl,
      field 4 rfl rfl rfl, field 3 rfl rfl rfl, field 2 rfl rfl rfl⟩
  · have fit := Dev.offerFields_fit p geid most straps
    have field := fld_packedWord fit
    rw [Dev.offerBits_eq_packedWord]
    refine ⟨packedWord_lt fit, field 7 rfl rfl rfl, field 6 rfl rfl rfl, field 0 rfl rfl rfl, ?_⟩
    have geid' : fld _ 95 76 = _ := field 5 rfl rfl rfl
    have podBoard : fld _ 75 70 = _ := field 4 rfl rfl rfl
    have slot : fld _ 69 67 = _ := field 3 rfl rfl rfl
    have port : fld _ 66 62 = _ := field 2 rfl rfl rfl
    have hdie : fld _ 61 61 = _ := field 1 rfl rfl rfl
    rw [offerOf, geid', podBoard, slot, port, hdie]

end Sys2Proof
end

section
/-! PROOFS. Routers (R303, R306, R307, R308, R311). What a router answers at each judgement of a packet is said once; the statement puts
the parity error of its table first. -/

namespace Sys2Proof.Machine

theorem exec_packetForward_on {s : State} (on : s.dev.life = .on) (ingress : Option PortId) (pk : PacketSeen) :
    exec (.packetForward ingress pk) s = .next { s with
      dev := ((s.dev.tableSeen s.clk pk.tableParity).forward s.clk ingress pk.packet).flowControl } :=
  onDev_on (f := fun clk d => ((d.tableSeen clk pk.tableParity).forward clk ingress pk.packet).flowControl) on

/-- A guard of two parts stays shut where one of them fails. -/
theorem not_and_of_or_false {a b : Bool} (fails : a = false ∨ b = false) : ¬(a && b) = true := by
  rcases fails with rfl | rfl
  · rw [Bool.false_and]; decide
  · rw [Bool.and_false]; decide

/-! ### A packet without a route (R307) -/

theorem Dev.noRoute_own {d : Dev} {h : Nat} (c : Clock) (own : phSrc h = d.geid) : d.noRoute c h = d.ownNoRoute h := if_pos own

theorem Dev.ownNoRoute_request {d : Dev} {h : Nat} (request : phVc h / 2 = 0 ∨ phVc h / 2 = 2) :
    d.ownNoRoute h = d.bump 0x80B0 7 0 1 := by
  rw [Dev.ownNoRoute, if_pos (by simpa only [Bool.or_eq_true, decide_eq_true_eq] using request)]

/-- A request of another device is answered: the answer names the device the request was for. -/
theorem Dev.noRoute_request {d : Dev} {h : Nat} (c : Clock) (other : phSrc h ≠ d.geid) (request : phVc h / 2 = 0 ∨ phVc h / 2 = 2) :
    d.noRoute c h = d.respond c (phSrc h) (phE2e h) (.memResp
      ⟨BitVec.ofNat 20 (if phGeidRoute h then phDest h else d.geid), BitVec.ofNat 16 (phE2e h), .noRoute, false⟩) :=
  (if_neg other).trans (if_pos (by simpa only [Bool.or_eq_true, decide_eq_true_eq] using request))

theorem Dev.noRoute_dropped {d : Dev} {h : Nat} (c : Clock) (class0 : phVc h / 2 ≠ 0) (class2 : phVc h / 2 ≠ 2) : d.noRoute c h = d := by
  simp [Dev.noRoute, Dev.ownNoRoute, class0, class2]

/-! ### Where the route takes a packet (R303, R308) -/

/-- A judged packet goes where its route says: it is delivered, which leaves the device `here`, or sent on its link, or it has no
route. So do packets of a port (`Dev.tagTaken`) and of the device itself (`Dev.forward_own`). -/
def Dev.routed (d : Dev) (c : Clock) (p : Sent) (here : Dev) : Dev :=
  match d.route p.header with
  | .here => here
  | .link l h' => if (d.link l).long && !longOk (phType p.header) then d.noRoute c p.header else d.sendOn l { p with header := h' }
  | .none => d.noRoute c p.header

section
variable {d here : Dev} {p : Sent} {l h' : Nat} (c : Clock)

theorem Dev.routed_here (route : d.route p.header = .here) : d.routed c p here = here := by
  simp [Dev.routed, route]

theorem Dev.routed_none (route : d.route p.header = .none) : d.routed c p here = d.noRoute c p.header := by
  simp [Dev.routed, route]

theorem Dev.routed_link (route : d.route p.header = .link l h') (carries : (d.link l).long = false ∨ longOk (phType p.header) = true) :
    d.routed c p here = d.sendOn l { p with header := h' } := by
  rcases carries with short | ok
  · simp [Dev.routed, route, short]
  · simp [Dev.routed, route, ok]

theorem Dev.routed_notCarried (route : d.route p.header = .link l h') (long : (d.link l).long = true)
    (barred : longOk (phType p.header) = false) : d.routed c p here = d.noRoute c p.header := by
  simp [Dev.routed, route, long, barred]

end

/-! ### A packet of the device itself (R303) -/

theorem Dev.forward_toSelf {d : Dev} {pk : Packet} {h : Nat} (c : Clock) (hdr : pk.header.toNat = h) (byGeid : phGeidRoute h = true)
    (self : phDest h = d.geid) : d.forward c none pk = d.emit (.loop ⟨h, .raw pk.payload, none⟩) := by
  subst hdr
  simp [Dev.forward, byGeid, self]

theorem Dev.forward_own {d : Dev} {pk : Packet} {h : Nat} (c : Clock) (hdr : pk.header.toNat = h)
    (away : phGeidRoute h = false ∨ phDest h ≠ d.geid) : d.forward c none pk =
      d.routed c ⟨h, .raw pk.payload, none⟩ (d.emit (.loop ⟨h, .raw pk.payload, none⟩)) := by
  subst hdr
  exact if_neg (not_and_of_or_false (away.imp id decide_eq_false))

/-! ### A packet of a port is judged (R34, R306, R311) -/

/-- Does the link of a port discard the domain of a packet that arrives there (`Dev.forward_drained`)? -/
def Dev.drainsAt (e : Dev) (i : PortId) (h : Nat) : Bool :=
  (e.port i.val).link.isSome && (e.link ((e.port i.val).link.getD 0)).discards (phDomain h)

/-- What the answer of the stroke tag check makes of a packet that has passed the judgements before it (`Dev.forward_judged`). -/
def Dev.tagTaken (e : Dev) (c : Clock) (i : PortId) (pk : Packet) (h : Nat) : TagCheck → Dev
  | .discard => e.bump 0x8000 2 0 1
  | .hold => { e with heldIn := e.heldIn ++ [.packetForward (some i) ⟨pk, none⟩] }
  | .pass => if 8 ≤ phType h then e.bump 0x80B0 6 0 1
    else e.routed c ⟨h, .raw pk.payload, none⟩ (((e.owesEcho h).takeEcho c h).emit (.loop ⟨h, .raw pk.payload, none⟩))

section
variable {d e : Dev} {i : PortId} {pk : Packet} {h : Nat} (c : Clock) (hdr : pk.header.toNat = h)
  (carried : d.setPort i.val ((d.port i.val).carry (phDomain h)) = e)
include hdr carried

theorem Dev.forward_drained (drained : e.drainsAt i h = true) :
    d.forward c (some i) pk = e.bump 0x80B0 0x0A 0 1 := by
  subst hdr carried
  exact if_pos drained

variable (drained : e.drainsAt i h = false)
include drained

theorem Dev.forward_otherEpoch (epoch : phEpoch h ≠ e.v 0x4010 5 0) (notMgmt : phType h ≠ 6) :
    d.forward c (some i) pk = e.bump 0x80B0 4 0 1 := by
  subst hdr carried
  refine (if_neg (Bool.not_eq_true _ ▸ drained)).trans (if_pos ?_)
  simpa using ⟨epoch, notMgmt⟩

variable (epoch : phEpoch h = e.v 0x4010 5 0 ∨ phType h = 6)
include epoch

theorem Dev.forward_noHops (hops : phHops h = 0) (away : e.route h ≠ .here) : d.forward c (some i) pk = e.bump 0x80B0 5 0 1 := by
  subst hdr carried
  refine (if_neg (Bool.not_eq_true _ ▸ drained)).trans ((if_neg ?_).trans (if_pos ?_))
  · exact not_and_of_or_false (epoch.imp bne_eq_false_iff_eq.2 bne_eq_false_iff_eq.2)
  · simpa using ⟨hops, away⟩

variable (hops : phHops h ≠ 0 ∨ e.route h = .here)
include hops

/-- What is left is the stroke tag's to say, and then the route's. -/
theorem Dev.forward_judged : d.forward c (some i) pk = e.tagTaken c i pk h (tagCheck c h) := by
  subst hdr carried
  refine (if_neg (Bool.not_eq_true _ ▸ drained)).trans ((if_neg ?_).trans ((if_neg ?_).trans rfl))
  · exact not_and_of_or_false (epoch.imp bne_eq_false_iff_eq.2 bne_eq_false_iff_eq.2)
  · exact not_and_of_or_false (hops.imp decide_eq_false bne_eq_false_iff_eq.2)

end

end Sys2Proof.Machine

open Sys2Proof.Machine
namespace Sys2Proof

/-- Settles O51: each judgement of a packet is answered by the lemma of its case. -/
theorem routersJudgePacketsInOrder : Obligations.RoutersJudgePacketsInOrder := by
  refine ⟨fun s i pk on => ?_, fun s pk on => ?_⟩
  · intro h d0 d sent does drained kept taken
    have becomes : ∀ {x : Dev}, d0.forward s.clk (some i) pk.packet = x → does x := fun eq => eq ▸ exec_packetForward_on on _ _
    have judged : taken → d0.forward s.clk (some i) pk.packet = d.tagTaken s.clk i pk.packet h (tagCheck s.clk h) :=
      fun ⟨⟨passes, epoch⟩, hops⟩ => Dev.forward_judged s.clk rfl rfl passes epoch hops
    refine ⟨fun out => becomes (Dev.forward_drained s.clk rfl rfl out),
      fun passes epoch notMgmt => becomes (Dev.forward_otherEpoch s.clk rfl rfl passes epoch notMgmt),
      fun ⟨passes, epoch⟩ hops away => becomes (Dev.forward_noHops s.clk rfl rfl passes epoch hops away),
      fun t tag => becomes ?_, fun t tag => becomes ?_, fun t tag reserved => becomes ?_, fun t tag known => ?_⟩
    · rw [judged t, tag, Dev.tagTaken]
    · rw [judged t, tag, Dev.tagTaken]
    · rw [judged t, tag, Dev.tagTaken, if_pos reserved]
    · have routed := judged t
      rw [tag, Dev.tagTaken, if_neg (Nat.not_le.2 known)] at routed
      exact ⟨fun route => becomes (routed.trans (Dev.routed_here s.clk route)),
        fun l h' route carries => becomes (routed.trans (Dev.routed_link s.clk route carries)),
        fun l h' route long barred => becomes (routed.trans (Dev.routed_notCarried s.clk route long barred)),
        fun route => becomes (routed.trans (Dev.routed_none s.clk route))⟩
  · intro h d does
    have becomes : ∀ {x : Dev}, d.forward s.clk none pk.packet = x → does x := fun eq => eq ▸ exec_packetForward_on on _ _
    refine ⟨fun byGeid self => becomes (Dev.forward_toSelf s.clk rfl byGeid self),
      fun l h' route away carries => becomes ((Dev.forward_own s.clk rfl away).trans (Dev.routed_link s.clk route carries)),
      fun route away => ?_⟩
    have lost := (Dev.forward_own s.clk rfl away).trans (Dev.routed_none s.clk route)
    exact ⟨fun class0 class2 => becomes (lost.trans (Dev.noRoute_dropped s.clk class0 class2)),
      fun request => ⟨fun own => becomes (lost.trans ((Dev.noRoute_own s.clk own).trans (Dev.ownNoRoute_request request))),
        fun other => becomes (lost.trans (Dev.noRoute_request s.clk other request))⟩⟩

end Sys2Proof
end

section
/-! PROOFS. Ports, links and their frames (R26, R291 to R296, R308). A command of a port ends with the clock's upstream settled. -/

namespace Sys2Proof.Machine

/-! ### The upstream after ports have changed (R26) -/

theorem settleUpstream_none {c : Clock} (root : c.upstream = none) (d : Dev) : settleUpstream c d = (c, d) := by
  simp [settleUpstream, root]

theorem settleUpstream_linked {c : Clock} {d : Dev} {u : PortId} (up : c.upstream = some u) (linked : (d.port u.val).link.isSome = true) :
    settleUpstream c d = (c, d) := by
  simp [settleUpstream, up, linked]

/-- Without any link the upstream is lost, and a LOCKED counter goes to HOLDOVER. -/
theorem settleUpstream_lost {c : Clock} {d : Dev} {u : PortId} (up : c.upstream = some u) (alone : ∀ p : Fin 32, (d.port p.val).link = none) :
    settleUpstream c d = if c.sync = .locked then
        ({ c with upstream := none, stepDue := none, sync := .holdover }, d.bump 0x8000 3 0 1)
      else ({ c with upstream := none, stepDue := none }, d) := by
  have other : ((List.finRange 32).find? fun p => (d.port p.val).link.isSome && (d.port p.val).partner.any fun o => o.geid = c.upGeid) = none := by
    simp [alone]
  simp only [settleUpstream, up, alone u, other]
  rfl

/-! ### Frames (R291, R296, R308) -/

theorem exec_frame_on {s : State} (on : s.dev.life = .on) (root : s.clk.upstream = none) (i : PortId) (f : FrameIn) :
    exec (.frame i f) s = .next { s with dev := (s.dev.frameIn s.clk i f).flowControl } := by
  refine (onBoth_on (f := fun clk d => settleUpstream clk (d.frameIn clk i f).flowControl) on).trans ?_
  rw [settleUpstream_none root]

/-- The frames of a link that a frame leaves unacknowledged. -/
def Link.unackedAfter (k : Link) (f : FrameIn) : List FrameOut := k.unacked.filter fun x => !ackedBy x.seq f.ack.toNat

/-- The device after what a good frame says about the frames sent: those acknowledged are freed, the XOFF bits are taken. -/
def Dev.frameAcks (d : Dev) (l : Nat) (f : FrameIn) : Dev :=
  d.setLink l { d.link l with unacked := (d.link l).unackedAfter f, xoff := f.xoff.toNat }

/-- The replays of the frame now first unacknowledged are `n`. -/
def Dev.setReplays (d : Dev) (p n : Nat) : Dev := d.setPort p { d.port p with replays := n }

/-- What a frame carries is taken, by the number that the link expects: it is the next, one that came before, or behind a gap. -/
def Dev.frameData (d : Dev) (c : Clock) (port : PortId) (l : Nat) (f : FrameIn) : Dev :=
  let k := d.link l
  if f.seq.toNat = k.rxSeq then
    let got := cutPackets 16 (k.rx ++ f.data)
    got.1.foldl (fun d pk => d.forward c (some port) pk)
      ((d.setLink l { k with rxSeq := (k.rxSeq + 1) % 65536, rx := got.2 }).emit (.linkAck l ((k.rxSeq + 1) % 65536) false))
  else if ackedBy f.seq.toNat k.rxSeq then d
  else d.emit (.linkAck l k.rxSeq true)

/-- A negative acknowledgement replays what is outstanding. -/
def Dev.replayed (d : Dev) (p l : Nat) (rest : List FrameOut) : Dev :=
  (d.emit (.replay l (rest.map (·.seq)))).bump 0x80B0 1 p rest.length

/-- Does a frame ask for a replay of frames that it leaves unacknowledged? -/
def Dev.replaysAgain (d : Dev) (l : Nat) (f : FrameIn) : Bool := f.nack && !((d.link l).unackedAfter f).isEmpty

/-- The replays counted after a frame: progress starts the count anew. -/
def Dev.replaysAfter (d : Dev) (p l : Nat) (f : FrameIn) : Nat :=
  (if decide (((d.link l).unackedAfter f).length < (d.link l).unacked.length) then 0 else (d.port p).replays)
    + (if d.replaysAgain l f then 1 else 0)

/-- The device after a good frame's acknowledgement, before its own bytes are taken (`Dev.frameIn_good`). -/
def Dev.frameAnswered (d : Dev) (p l : Nat) (f : FrameIn) : Dev :=
  let e := (d.frameAcks l f).setReplays p (d.replaysAfter p l f)
  if d.replaysAgain l f then e.replayed p l ((d.link l).unackedAfter f) else e

section
variable {d : Dev} (c : Clock) {i : PortId} {f : FrameIn} {l : Nat}

theorem Dev.frameData_next (next : f.seq.toNat = (d.link l).rxSeq) : d.frameData c i l f =
    (cutPackets 16 ((d.link l).rx ++ f.data)).1.foldl (fun d pk => d.forward c (some i) pk)
      ((d.setLink l { d.link l with
        rxSeq := ((d.link l).rxSeq + 1) % 65536, rx := (cutPackets 16 ((d.link l).rx ++ f.data)).2 }).emit
        (.linkAck l (((d.link l).rxSeq + 1) % 65536) false)) := if_pos next

theorem Dev.frameData_duplicate (other : f.seq.toNat ≠ (d.link l).rxSeq) (before : ackedBy f.seq.toNat (d.link l).rxSeq = true) :
    d.frameData c i l f = d := (if_neg other).trans (if_pos before)

theorem Dev.frameData_gap (other : f.seq.toNat ≠ (d.link l).rxSeq) (ahead : ackedBy f.seq.toNat (d.link l).rxSeq = false) :
    d.frameData c i l f = d.emit (.linkAck l (d.link l).rxSeq true) :=
  (if_neg other).trans (if_neg (Bool.not_eq_true _ ▸ ahead))

theorem Dev.frameIn_noLink (unlinked : (d.port i.val).link = none) : d.frameIn c i f = d := by
  simp [Dev.frameIn, unlinked]

variable (linked : (d.port i.val).link = some l)
include linked

theorem Dev.frameIn_badCrc (bad : f.crcOk = false) : d.frameIn c i f = d.emit (.linkAck l (d.link l).rxSeq true) := by
  simp [Dev.frameIn, linked, bad]

variable (good : f.crcOk = true)
include good

/-- A good frame's acknowledgement is answered, what may leave leaves, and then its bytes are taken. -/
theorem Dev.frameIn_good : d.frameIn c i f =
    let e := ((d.frameAnswered i.val l f).flushLink l).frameData c i l f
    if d.replaysAgain l f && decide (8 ≤ d.replaysAfter i.val l f) then (e.portOut i.val).trainIf i.val else e := by
  rw [Dev.frameIn, linked]
  exact if_neg (by rw [good]; decide)

/-- A frame that asks for no replay. -/
theorem Dev.frameIn_accepted (accepted : f.nack = false ∨ (d.link l).unackedAfter f = []) : d.frameIn c i f =
    (((d.frameAcks l f).setReplays i.val (if ((d.link l).unackedAfter f).length < (d.link l).unacked.length then 0
      else (d.port i.val).replays)).flushLink l).frameData c i l f := by
  have again : d.replaysAgain l f = false := by
    rw [← Bool.not_eq_true]
    exact not_and_of_or_false (accepted.imp id fun none => by rw [none]; rfl)
  simp [Dev.frameIn_good c linked good, Dev.frameAnswered, Dev.replaysAfter, again]

variable (nack : f.nack = true) (left : (d.link l).unackedAfter f ≠ []) (stuck : ((d.link l).unackedAfter f).length = (d.link l).unacked.length)
include nack left stuck

/-- A negative acknowledgement that acknowledges nothing new replays once more; the eighth time the port leaves its link. -/
theorem Dev.frameIn_replays {n : Nat} (replays : (d.port i.val).replays = n) : d.frameIn c i f =
    let e := ((((d.frameAcks l f).setReplays i.val (n + 1)).replayed i.val l ((d.link l).unackedAfter f)).flushLink l).frameData c i l f
    if 8 ≤ n + 1 then (e.portOut i.val).trainIf i.val else e := by
  have again : d.replaysAgain l f = true := by simpa [Dev.replaysAgain, nack] using left
  have count : d.replaysAfter i.val l f = n + 1 := by simp [Dev.replaysAfter, again, stuck, replays]
  simp [Dev.frameIn_good c linked good, Dev.frameAnswered, again, count]

end

end Sys2Proof.Machine

open Sys2Proof.Machine
namespace Sys2Proof

/-- Settles O52: a frame's acknowledgement decides whether frames are replayed, its number what becomes of its bytes. -/
theorem framesAreTakenInSequence : Obligations.FramesAreTakenInSequence := by
  intro s i f on root
  have becomes : ∀ {x : Dev}, s.dev.frameIn s.clk i f = x → exec (.frame i f) s = .next { s with dev := x.flowControl } :=
    fun eq => eq ▸ exec_frame_on on root i f
  refine ⟨fun unlinked => becomes (Dev.frameIn_noLink s.clk unlinked), fun l linked => ⟨fun bad => becomes (Dev.frameIn_badCrc s.clk linked bad),
    fun good => ⟨fun accepted => ?_, fun nack left stuck few other before => becomes ?_,
      fun nack left stuck eighth other before => becomes ?_⟩⟩⟩
  · have answered := Dev.frameIn_accepted s.clk linked good accepted
    exact ⟨fun next => becomes (answered.trans (Dev.frameData_next s.clk next)),
      fun other before => becomes (answered.trans (Dev.frameData_duplicate s.clk other before)),
      fun other ahead => becomes (answered.trans (Dev.frameData_gap s.clk other ahead))⟩
  · have replays := Dev.frameIn_replays s.clk linked good nack left stuck rfl
    exact replays.trans ((if_neg (by omega)).trans (Dev.frameData_duplicate s.clk other before))
  · have replays := Dev.frameIn_replays s.clk linked good nack left stuck rfl
    exact replays.trans ((if_pos (by omega)).trans
      (congrArg (fun e : Dev => (e.portOut i.val).trainIf i.val) (Dev.frameData_duplicate s.clk other before)))

end Sys2Proof
end

section
/-! PROOFS. Ports train and leave (R26, R292 to R296, R308). An offer at a port in training is judged by its words, then by the store. -/

namespace Sys2Proof.Machine

/-! ### Offers (R292 to R294, R308) -/

/-- A signal is there at a port. -/
def Dev.signalled (d : Dev) (p : Nat) : Dev := d.setPort p { d.port p with signal := true }

@[simp] theorem Dev.signalled_signal (d : Dev) (p : Nat) : ((d.signalled p).port p).signal = true := by
  rw [Dev.signalled, Dev.port_setPort_self]

@[simp] theorem Dev.signalled_state (d : Dev) (p : Nat) : ((d.signalled p).port p).state = (d.port p).state := by
  rw [Dev.signalled, Dev.port_setPort_self]

theorem Dev.offerSeen_training {d : Dev} {p : Nat} (training : (d.port p).state = .training) : d.offerSeen p = d.signalled p := by
  simp [Dev.offerSeen, Dev.signalled, training]

theorem exec_linkOffer_on {s : State} (on : s.dev.life = .on) (root : s.clk.upstream = none) (i : PortId) (bits : BitVec 128)
    (rtt : BitVec 32) : exec (.linkOffer i bits rtt) s = .next { s with dev := s.dev.linkOffer i.val bits.toNat rtt.toNat } := by
  have row : exec (.linkOffer i bits rtt) s = execLinkOffer i bits rtt s := rfl
  have notUp : s.clk.upstream ≠ some i := by simp [root]
  rw [row, execLinkOffer, onBoth_on on]
  simp only [if_neg notUp, Option.getD_none, settleUpstream_none root]

section
variable {d : Dev} {b : Nat}

/-- The version that two ends have in common (R293). -/
def Dev.commonVersion (d : Dev) (b : Nat) : Nat := min (d.v 0x4000 3 0) (fld b 111 96)

theorem Dev.offerBar_noVersion (apart : d.commonVersion b < 1 ∨ d.commonVersion b < fld b 127 112) : d.offerBar b = 1 := by
  unfold Dev.commonVersion at apart
  simp only [Dev.offerBar, Bool.or_eq_true, decide_eq_true_eq, if_pos apart]

variable (least : 1 ≤ d.commonVersion b) (most : fld b 127 112 ≤ d.commonVersion b)
include least most

theorem Dev.offerBar_version : d.offerBar b = if fld b 95 76 = d.geid then
    (if fld b 75 70 = d.v 0x4000 2 0 ∧ fld b 69 67 = d.straps then 3 else 2) else 0 := by
  have common : ¬(d.commonVersion b < 1 ∨ d.commonVersion b < fld b 127 112) := by omega
  unfold Dev.commonVersion at common
  simp only [Dev.offerBar, Bool.or_eq_true, Bool.and_eq_true, decide_eq_true_eq, if_neg common]

end

/-- The port waits to join a link to the partner that an offer names. -/
def Dev.offerJoins (d : Dev) (p b rtt : Nat) : Dev := d.setPort p { d.port p with
  state := .joining, partner := some (offerOf b), refusal := 0, version := d.commonVersion b, rtt := rtt }

/-- The port has measured its round trip, and is refused. -/
def Dev.offerRefused (d : Dev) (p rtt reason : Nat) : Dev := (d.setPort p { d.port p with rtt := rtt }).refusePort p reason

section
variable {d0 d : Dev} {p b rtt : Nat} (training : (d0.port p).state = .training) (seen : d0.signalled p = d)
include training seen

/-- An offer is judged by its words, then by the store that its round trip reserves. -/
theorem Dev.linkOffer_training : d0.linkOffer p b rtt =
    if d.offerBar b != 0 then d.offerRefused p rtt (d.offerBar b)
    else if rtt > 900 && (d.offerJoins p b rtt).storeUsed (portHdie p) > 33554432 then d.offerRefused p rtt 4
    else d.offerJoins p b rtt := by
  have state : (d.port p).state = .training := by rw [← seen, Dev.signalled_state, training]
  rw [Dev.linkOffer, Dev.offerSeen_training training, seen]
  split
  next => rfl
  next joining => exact absurd (state.symm.trans joining) (by decide)
  next up => exact absurd (state.symm.trans up) (by decide)
  next other _ _ => exact absurd state other

theorem Dev.linkOffer_barred (bars : d.offerBar b ≠ 0) : d0.linkOffer p b rtt = d.offerRefused p rtt (d.offerBar b) := by
  simp [Dev.linkOffer_training training seen, bars]

variable (passes : d.offerBar b = 0)
include passes

theorem Dev.linkOffer_storeFull (long : 900 < rtt) (full : 33554432 < (d.offerJoins p b rtt).storeUsed (portHdie p)) :
    d0.linkOffer p b rtt = d.offerRefused p rtt 4 := by
  simp [Dev.linkOffer_training training seen, passes, long, full]

theorem Dev.linkOffer_joins (room : rtt ≤ 900 ∨ (d.offerJoins p b rtt).storeUsed (portHdie p) ≤ 33554432) :
    d0.linkOffer p b rtt = d.offerJoins p b rtt := by
  have fits : 900 < rtt → (d.offerJoins p b rtt).storeUsed (portHdie p) ≤ 33554432 := by omega
  simpa [Dev.linkOffer_training training seen, passes] using fun long full => absurd (fits long) (Nat.not_le.2 full)

end

/-! ### A port is lost, and its signal returns (R26, R296) -/

theorem exec_portDown_on {s : State} (on : s.dev.life = .on) (i : PortId) : exec (.portDown i) s =
    .next { s with clk := (settleUpstream s.clk (s.dev.portDown i.val)).1, dev := (settleUpstream s.clk (s.dev.portDown i.val)).2 } :=
  onBoth_on (f := fun c d => settleUpstream c (d.portDown i.val)) on

theorem Dev.trainIf_usable {d : Dev} {p : Nat} (usable : d.portUsable p = true) (signal : (d.port p).signal = true) :
    d.trainIf p = d.train p := by
  simp [Dev.trainIf, usable, signal]

theorem Dev.trainIf_unusable {d : Dev} {p : Nat} (unusable : d.portUsable p = false) : d.trainIf p = d := by
  simp [Dev.trainIf, unusable]

/-- A port that is DOWN begins to train, if it may, and any other goes on. -/
theorem exec_portSignalReturn_on {s : State} (on : s.dev.life = .on) (i : PortId) : exec (.portSignalReturn i) s =
    .next { s with dev := if (s.dev.port i.val).state = .down then (s.dev.signalled i.val).trainIf i.val else s.dev.signalled i.val } := by
  rw [← s.dev.signalled_state i.val]
  exact onDev_on (f := fun _ d => if ((d.signalled i.val).port i.val).state = .down then (d.signalled i.val).trainIf i.val
    else d.signalled i.val) on

end Sys2Proof.Machine

open Sys2Proof.Machine
namespace Sys2Proof

/-- Settles O53: an offer is judged by the first bar that it meets; a port's loss settles the upstream, its return may train it. -/
theorem portsTrainAndLeave : Obligations.PortsTrainAndLeave := by
  refine ⟨fun s i bits rtt on root training => ?_, fun s i on => ?_⟩
  · intro d d' b v
    have becomes : ∀ {x : Dev}, s.dev.linkOffer i.val b rtt.toNat = x → exec (.linkOffer i bits rtt) s = .next { s with dev := x } :=
      fun eq => eq ▸ exec_linkOffer_on on root i bits rtt
    refine ⟨fun apart => becomes ?_, fun least most => ⟨fun own => becomes ?_, fun other => ?_⟩⟩
    · have bar : d.offerBar b = 1 := Dev.offerBar_noVersion apart
      rw [Dev.linkOffer_barred training rfl (bar ▸ Nat.one_ne_zero)]
      exact congrArg (d.offerRefused i.val rtt.toNat) bar
    · have bar : d.offerBar b = if fld b 75 70 = d.v 0x4000 2 0 ∧ fld b 69 67 = d.straps then 3 else 2 :=
        (Dev.offerBar_version least most).trans (if_pos own)
      have bars : d.offerBar b ≠ 0 := by rw [bar]; split <;> decide
      rw [Dev.linkOffer_barred training rfl bars]
      exact congrArg (d.offerRefused i.val rtt.toNat) bar
    · have passes : d.offerBar b = 0 := (Dev.offerBar_version least most).trans (if_neg other)
      exact ⟨fun long full => becomes (Dev.linkOffer_storeFull training rfl passes long full),
        fun room => becomes (Dev.linkOffer_joins training rfl passes room)⟩
  · intro d e
    have lost {x : Clock × Dev} (settles : settleUpstream s.clk d = x) : exec (.portDown i) s = .next { s with clk := x.1, dev := x.2 } :=
      settles ▸ exec_portDown_on on i
    have returns := exec_portSignalReturn_on on i
    refine ⟨fun root => lost (settleUpstream_none root d), fun u up linked => lost (settleUpstream_linked up linked),
      fun u up _ alone => ?_, fun other => ?_, fun down usable => ?_, fun down unusable => ?_⟩
    · rw [lost (settleUpstream_lost up alone)]
      split <;> rfl
    · rw [returns, if_neg other]
      rfl
    · rw [returns, if_pos down]
      have signal : (e.port i.val).signal = true := s.dev.signalled_signal i.val
      exact congrArg (fun x : Dev => Host.Outcome.next { s with dev := x }) (Dev.trainIf_usable usable signal)
    · rw [returns, if_pos down]
      exact congrArg (fun x : Dev => Host.Outcome.next { s with dev := x }) (Dev.trainIf_unusable unusable)

end Sys2Proof
end

section
/-! PROOFS. Route loads and drains (R305, R311). -/

namespace Sys2Proof.Machine

/-! ### Route loads (R305) -/

theorem exec_routeLoadDone_on {s : State} (on : s.dev.life = .on) : exec .routeLoadDone s = .next { s with dev := s.dev.routeLoadDone } :=
  onDev_on (f := fun _ d => d.routeLoadDone) on

/-- The device after a load has ended, before its image is judged. -/
def Dev.loadEnded (d : Dev) : Dev := { d.tickFree with routeLoad := none }

theorem Dev.routeLoadDone_idle {d : Dev} (idle : d.routeLoad = none) : d.routeLoadDone = d := by
  simp [Dev.routeLoadDone, idle]

theorem Dev.routeLoadDone_loaded {d : Dev} {x : Nat × Memory} {t : RouteTable} (load : d.routeLoad = some x)
    (valid : readImage (imageSeen x.2 d.mem x.1 d.freeCtr) x.1 = some t) :
    d.routeLoadDone = ({ d.loadEnded with shadow := some t } : Dev).setV 0x4010 3 0 2 := by
  simp [Dev.routeLoadDone, load, valid, Dev.loadEnded]

theorem Dev.routeLoadDone_invalid {d : Dev} {x : Nat × Memory} (load : d.routeLoad = some x)
    (invalid : readImage (imageSeen x.2 d.mem x.1 d.freeCtr) x.1 = none) :
    d.routeLoadDone = ({ d.loadEnded with shadow := none } : Dev).setV 0x4010 3 0 3 := by
  simp [Dev.routeLoadDone, load, invalid, Dev.loadEnded]

theorem readImage_unaligned (m : Memory) {base : Nat} (unaligned : base % 64 ≠ 0) : readImage m base = none := by
  simp [readImage, unaligned]

/-! ### Drains (R311) -/

theorem exec_drainComplete_on {s : State} (on : s.dev.life = .on) (l : PortId) (dom : BitVec 12) :
    exec (.drainComplete l dom) s = .next { s with dev := s.dev.drainSignal l.val dom.toNat } :=
  onDev_on (f := fun _ d => d.drainSignal l.val dom.toNat) on

theorem exec_drainTimeout_on {s : State} (on : s.dev.life = .on) (l : PortId) :
    exec (.drainTimeout l) s = .next { s with dev := s.dev.drainTimeout l.val } :=
  onDev_on (f := fun _ d => d.drainTimeout l.val) on

/-- The device after a link's drain of `dom` has ended: held packets leave, the ports' sets start anew, and the link discards the domains
of `keep` from now on. -/
def Dev.drainEnded (d : Dev) (l dom : Nat) (keep : List Nat) : Dev :=
  let k := d.link l
  (k.ports.foldl (fun d p => d.setPort p { d.port p with domains := [] })
    (d.setLink l { k with drains := k.drains.filter fun x => x.domain != dom
                          partnerDrained := k.partnerDrained.filter (· != dom), keepDiscarding := keep })).flushLink l

section
variable {d : Dev} {l dom : Nat}

theorem Dev.endDrain_running (running : ∃ dr ∈ (d.link l).drains, dr.domain = dom) (keep : Bool) :
    d.endDrain l dom keep = d.drainEnded l dom
      (if keep && !(d.link l).keepDiscarding.contains dom then (d.link l).keepDiscarding ++ [dom] else (d.link l).keepDiscarding) := by
  have runs : ((d.link l).drains.any fun dr => decide (dr.domain = dom)) = true := by simpa using running
  exact if_neg (by rw [runs]; decide)

theorem Dev.drainSignal_running (running : ∃ dr ∈ (d.link l).drains, dr.domain = dom) :
    d.drainSignal l dom = d.drainEnded l dom (d.link l).keepDiscarding :=
  (if_pos (by simpa using running)).trans (Dev.endDrain_running running false)

variable (idle : ∀ dr ∈ (d.link l).drains, dr.domain ≠ dom)
include idle

theorem Dev.drainSignal_kept (ports : (d.link l).ports ≠ []) : d.drainSignal l dom =
    d.setLink l { d.link l with partnerDrained := dedupe ((d.link l).partnerDrained ++ [dom]) } :=
  (if_neg (by simpa using idle)).trans (if_neg (by simpa using ports))

theorem Dev.drainSignal_noLink (ports : (d.link l).ports = []) : d.drainSignal l dom = d :=
  (if_neg (by simpa using idle)).trans (if_pos (by simpa using ports))

end

/-- The oldest drain of a link ends, and the link keeps discarding its domain. -/
theorem Dev.drainTimeout_oldest {d : Dev} {l : Nat} {dr : Drain} {rest : List Drain} (drains : (d.link l).drains = dr :: rest) :
    d.drainTimeout l = d.drainEnded l dr.domain (if (d.link l).keepDiscarding.contains dr.domain then (d.link l).keepDiscarding
      else (d.link l).keepDiscarding ++ [dr.domain]) := by
  have running : ∃ x ∈ (d.link l).drains, x.domain = dr.domain := ⟨dr, drains ▸ List.mem_cons_self, rfl⟩
  rw [Dev.drainTimeout, drains]
  refine (Dev.endDrain_running running true).trans (congrArg (d.drainEnded l dr.domain) ?_)
  cases (d.link l).keepDiscarding.contains dr.domain <;> rfl

theorem Dev.drainTimeout_idle {d : Dev} {l : Nat} (idle : (d.link l).drains = []) : d.drainTimeout l = d := by
  rw [Dev.drainTimeout, idle]

end Sys2Proof.Machine

open Sys2Proof.Machine
namespace Sys2Proof

/-- Settles O54: a load ends by its image's validity, a drain by the partner's signal or, the oldest, by its time. -/
theorem routeLoadsAndDrainsEnd : Obligations.RouteLoadsAndDrainsEnd := by
  refine ⟨fun s on => ?_, fun s l dom on => ?_⟩
  · have becomes {x : Dev} (ends : s.dev.routeLoadDone = x) : exec .routeLoadDone s = .next { s with dev := x } :=
      ends ▸ exec_routeLoadDone_on on
    exact ⟨fun idle => becomes (Dev.routeLoadDone_idle idle), fun x load => ⟨fun t valid => becomes (Dev.routeLoadDone_loaded load valid),
      fun invalid => becomes (Dev.routeLoadDone_invalid load invalid)⟩, fun m base unaligned => readImage_unaligned m unaligned⟩
  · have signal {x : Dev} (ends : s.dev.drainSignal l.val dom.toNat = x) : exec (.drainComplete l dom) s = .next { s with dev := x } :=
      ends ▸ exec_drainComplete_on on l dom
    have timeout {x : Dev} (ends : s.dev.drainTimeout l.val = x) : exec (.drainTimeout l) s = .next { s with dev := x } :=
      ends ▸ exec_drainTimeout_on on l
    exact ⟨fun running => signal (Dev.drainSignal_running running),
      fun idle => ⟨fun ports => signal (Dev.drainSignal_kept idle ports), fun ports => signal (Dev.drainSignal_noLink idle ports)⟩,
      fun dr rest drains => timeout (Dev.drainTimeout_oldest drains), fun idle => timeout (Dev.drainTimeout_idle idle)⟩

end Sys2Proof
end

section
/-! PROOFS. The tree of a collective group (R316, R317). -/

namespace Sys2Proof.Machine

/-! ### Children in the tree (R317) -/

/-- The indices `f * i + 1 + t` with `t < f` are those whose parent `(j - 1) / f` is `i`. -/
theorem mem_treeChildren {f m i j : Nat} (hf : 0 < f) : j ∈ treeChildren f m i ↔ 0 < j ∧ j < m ∧ (j - 1) / f = i := by
  simp only [treeChildren, List.mem_filter, List.mem_map, List.mem_range, decide_eq_true_eq]
  constructor
  · rintro ⟨⟨t, ht, rfl⟩, hm⟩
    have parent : (f * i + 1 + t - 1) / f = i := by
      rw [show f * i + 1 + t - 1 = f * i + t by omega, Nat.mul_add_div hf, Nat.div_eq_of_lt ht, Nat.add_zero]
    exact ⟨by omega, hm, parent⟩
  · rintro ⟨pos, hm, rfl⟩
    have split := Nat.div_add_mod (j - 1) f
    exact ⟨⟨(j - 1) % f, Nat.mod_lt _ hf, by omega⟩, hm⟩

theorem treeChildren_ascending (f m i : Nat) : (treeChildren f m i).Pairwise (· < ·) :=
  (List.pairwise_lt_range.map (fun t => f * i + 1 + t) fun _ _ h => Nat.add_lt_add_left h _).filter _

/-! ### What a member keeps of its group's list (R316, R317) -/

/-- The group that the member at index `i` of a descriptor's list keeps. -/
def Dev.groupAt (d : Dev) (k : Nat) (head : List Byte) (l : List Nat) (i : Nat) : CollGroup :=
  let m := leNat (head.take 4)
  let f := (head.getD 6 0#8).toNat
  { state := .pendingCreate, groupId := leNat ((head.drop 4).take 2), ctx := k, partition := (d.ctx k).partition, m := m, f := f
    self := memberAt l i, parent := if i = 0 then none else some (memberAt l ((i - 1) / f))
    children := (treeChildren f m i).map (memberAt l) }

/-- A group is formed for the member whose GEID is the device's own. -/
theorem Dev.formGroup_some {d : Dev} {k : Nat} {head : List Byte} {l : List Nat} {slot : Nat} {g : CollGroup}
    (formed : d.formGroup k head l = some (slot, g)) : ∃ i, i < l.length ∧ l.getD i 0 % 2 ^ 20 = d.geid ∧ g = d.groupAt k head l i := by
  unfold Dev.formGroup at formed
  simp only at formed
  split at formed
  · exact absurd formed nofun
  · split at formed
    · exact absurd formed nofun
    next i own =>
      obtain ⟨hi, geid, -⟩ := List.findIdx?_eq_some_iff_getElem.mp own
      have inList : i < l.length := by simpa using hi
      refine ⟨i, inList, ?_, (congrArg Prod.snd (Option.some.inj formed)).symm⟩
      rw [List.getD_eq_getElem?_getD, List.getElem?_eq_getElem inList, Option.getD_some]
      simpa only [List.getElem_map, decide_eq_true_eq] using geid

end Sys2Proof.Machine

open Sys2Proof.Machine
namespace Sys2Proof

/-- Settles O29: a formed group is its own member's group, and the tree is that of the indices' quotients by FANIN. -/
theorem groupTreesFollowMemberOrder : Obligations.GroupTreesFollowMemberOrder := by
  refine ⟨fun f m i j hf => mem_treeChildren hf, treeChildren_ascending, fun d k head l slot g formed => ?_⟩
  obtain ⟨i, inList, own, rfl⟩ := Dev.formGroup_some formed
  exact ⟨rfl, rfl, own, i, inList, rfl, own, rfl, rfl⟩

end Sys2Proof
end

section
/-! PROOFS. The collective commands ALLSUM and GROUP_CREATE issue (R316 to R322). -/

namespace Sys2Proof.Machine

/-! ### ALLSUM (R320 to R322) -/

theorem exec_allsum_at {s : State} {q : CmdRead} {x : QCmd} (h : s.CmdAt q.q.val 7 x) :
    exec (.allsum q) s = .next { s with dev := (s.dev.readCmd s.clk x q).runAllsum s.clk x } := by
  have hexec : exec (.allsum q) s = onDev s fun clk d => d.issueRead clk q 7 fun d x => d.runAllsum clk x := rfl
  rw [hexec, onDev_on h.on, Dev.issueRead_at h]

theorem Dev.allsums_of_unitWork {d e : Dev} (h : e.unitWork = d.unitWork) : e.allsums = d.allsums := congrArg UnitWork.allsums h

/-- What a command's reads find does not touch the sums. -/
theorem Dev.allsums_seenBy (d : Dev) (c : Clock) (x : QCmd) (r : CmdRead) : (d.seenBy c x r).allsums = d.allsums := by
  have kept := Dev.allsums_of_unitWork (d.unitWork_eccAll c (some x.ctx) r.ecc)
  unfold Dev.seenBy
  cases r.controlParity with
  | false => exact kept
  | true => exact (Dev.allsums_of_unitWork (Dev.unitWork_raiseUncorrected _ _ _ _ _)).trans kept

theorem Dev.allsums_readCmd (d : Dev) (c : Clock) (x : QCmd) (r : CmdRead) : (d.readCmd c x r).allsums = d.allsums := by
  have issued : (d.issuedCmd x).allsums = (d.takeWait x).allsums := rfl
  rw [Dev.readCmd, Dev.allsums_seenBy, issued, Dev.allsums_of_unitWork (d.unitWork_takeWait x)]

/-- The device with an unread place for the ALLSUM `x` behind its other sums (R322). -/
def Dev.placed (d : Dev) (x : QCmd) : Dev := { d with allsums := d.allsums ++ [Allsum.unread x] }

theorem Dev.allsum_placed {d : Dev} {x : QCmd} (absent : d.allsum x.id = none) : (d.placed x).allsum x.id = some (Allsum.unread x) := by
  have noneBefore : d.allsums.find? (fun a => a.cmd = x.id) = none := absent
  simp [Dev.allsum, Dev.placed, List.find?_append, noneBefore, Allsum.unread]

section
variable {d : Dev} {c : Clock} {x : QCmd} {bs : List Byte} {word : Nat}

/-- An ALLSUM that has no place takes one, and its descriptor is read. -/
theorem Dev.runAllsum_reads (absent : d.allsum x.id = none) (aligned : fld (envPayload x.env) 47 0 % 64 = 0)
    (load : (d.placed x).load (whoCmd x) (fld (envPayload x.env) 47 0) 64 = .ok (bs, false)) :
    d.runAllsum c x = ((d.placed x).enterAllsum x (leNat bs) false).startAllsums c := by
  have entered : ((d.placed x).load (whoCmd x) (fld (envPayload x.env) 47 0) 64).map
      (fun y => (d.placed x).enterAllsum x (leNat y.1) y.2) = .ok ((d.placed x).enterAllsum x (leNat bs) false) := by rw [load]; rfl
  have unread : ((d.placed x).allsum x.id).filter (·.known) = none := by rw [Dev.allsum_placed absent]; rfl
  have place : (if (d.allsum x.id).isSome then d else { d with allsums := d.allsums ++ [Allsum.unread x] }) = d.placed x := by
    rw [absent]; rfl
  unfold Dev.runAllsum
  simp only [place, unread, aligned, bne_self_eq_false, Bool.false_eq_true, if_false]
  exact congrArg (Dev.startAllsums · c) (Dev.unitPart_ok entered)

theorem Dev.enterAllsum_accepted {a : Allsum} {g : CollGroup} (desc : Allsum.ofWord x.id x.ctx word = a)
    (ok : d.allsumOk word a = true) (group : d.group a.slot = some g) : d.enterAllsum x word false =
      (({ d with fetched := d.fetched.filter fun y => y.cmd != x.id } : Dev).setAllsum a).setGroup a.slot
        (some { g with used := g.used ++ [a.seq] }) := by
  have kept : (({ d with fetched := d.fetched.filter fun y => y.cmd != x.id } : Dev).setAllsum a).group a.slot = some g := group
  simp only [Dev.enterAllsum, desc, ok, kept, Bool.not_true, Bool.or_self, Bool.false_eq_true, if_false]

theorem Dev.enterAllsum_rejected {a : Allsum} (desc : Allsum.ofWord x.id x.ctx word = a) (bad : d.allsumOk word a = false) :
    d.enterAllsum x word false = d.cmdFault x.id x.ctx .collInvalid 0 := by
  simp only [Dev.enterAllsum, desc, bad, Bool.not_false, Bool.or_true, if_true]

end

/-! ### GROUP_CREATE (R316 to R319) -/

theorem exec_groupCreate_at {s : State} {q : CmdRead} {x : QCmd} (h : s.CmdAt q.q.val 9 x) :
    exec (.groupCreate q) s = .next { s with dev := (s.dev.readCmd s.clk x q).runGroupCreate s.clk x } := by
  have hexec : exec (.groupCreate q) s = onDev s fun clk d => d.issueRead clk q 9 fun d x => d.runGroupCreate clk x := rfl
  rw [hexec, onDev_on h.on, Dev.issueRead_at h]

/-- A descriptor whose head and list are read and form a group puts that group into its slot. -/
theorem Dev.runGroupCreate_forms {d : Dev} {x : QCmd} {head list : List Byte} {slot : Nat} {g : CollGroup} (c : Clock)
    (aligned : fld (envPayload x.env) 47 0 % 64 = 0)
    (loadHead : d.load (whoCmd x) (fld (envPayload x.env) 47 0) 64 = .ok (head, false))
    (someMember : 1 ≤ leNat (head.take 4)) (atMost : leNat (head.take 4) ≤ 16384)
    (faninLow : 2 ≤ (head.getD 6 0#8).toNat) (faninHigh : (head.getD 6 0#8).toNat ≤ 8)
    (loadList : d.load (whoCmd x) (fld (envPayload x.env) 47 0 + 64) (4 * leNat (head.take 4)) = .ok (list, false))
    (formed : d.formGroup x.ctx head (memberList list) = some (slot, g)) :
    d.runGroupCreate c x = (d.setGroup slot (some g)).unitDone c (whoCmd x) := by
  unfold Dev.runGroupCreate
  refine Dev.unitRun_ok ?_
  simp only [aligned, bne_self_eq_false, Bool.false_eq_true, if_false, loadHead]
  rw [if_neg (by simp only [Bool.false_or, Bool.or_eq_true, decide_eq_true_eq]; omega), loadList]
  simp only [Except.map, Bool.false_eq_true, if_false, formed]

end Sys2Proof.Machine

open Sys2Proof.Machine
namespace Sys2Proof

/-- Settles O28: an ALLSUM's place and its descriptor's check are said apart, and a GROUP_CREATE's descriptor is followed to its group. -/
theorem collectivesIssue : Obligations.CollectivesIssue := by
  refine ⟨fun s q x bs hs => ?_, fun s q x head list slot g hs => ?_⟩
  · intro d va a absent aligned load
    have placed : (s.dev.readCmd s.clk x q).placed x = d := by rw [Dev.placed, Dev.allsums_readCmd]
    have unplaced : (s.dev.readCmd s.clk x q).allsum x.id = none := by rw [Dev.allsum, Dev.allsums_readCmd]; exact absent
    have runs : exec (.allsum q) s = .next { s with dev := (d.enterAllsum x (leNat bs) false).startAllsums s.clk } := by
      rw [exec_allsum_at hs, Dev.runAllsum_reads unplaced aligned (placed ▸ load), placed]
    exact ⟨fun ok g group => by rw [runs, Dev.enterAllsum_accepted rfl ok group], fun bad => by rw [runs, Dev.enterAllsum_rejected rfl bad]⟩
  · intro d va m f aligned loadHead someMember atMost faninLow faninHigh loadList formed
    rw [exec_groupCreate_at hs, Dev.runGroupCreate_forms s.clk aligned loadHead someMember atMost faninLow faninHigh loadList formed]

end Sys2Proof
end

section
/-! PROOFS. The frames of the commands (R382, R415, R426, R450). All but a few rows act through one of four frames, so what a frame may do
is said once for each: it leaves the queue of commands alone, and without power it changes nothing. -/

namespace Sys2Proof.Machine

/-- An outcome is that of a command which acts on a module in service, answers a dictionary request, or works the test port. -/
inductive Framed (s : State) : Host.Outcome State Fault Refusal → Prop where
  | dev (f : Clock → Dev → Dev) : Framed s (onDev s f)
  | both (f : Clock → Dev → Clock × Dev) : Framed s (onBoth s f)
  | request (p : Path) (f : Clock → Dev → Clock × Dev) : Framed s (onRequest s p f)
  | tap (f : Dev → Dev) : Framed s (onTap s f)

/-- The rows that none of those frames holds: supply, lands, resets, the end of a flash operation. -/
def ownFrame : Instr → Bool
  | .perstN _ | .powerOn _ | .moduleResetN _ | .fullReset | .resetRelease _ | .flashOpDone _ | .thermalSample _ | .undervoltageLockout
  | .overvoltageLockout | .trstN _ => true
  | _ => false

theorem Framed.entry (p : Path) (txn : BitVec 16) (idx sub : Nat) (data : List Byte) (s : State) : Framed s (writeEntry p txn idx sub data s) :=
  .request _ _

theorem Framed.turnover (s : State) (st : Stage) (f : Clock → Dev → Clock × Dev) : Framed s (turnoverEvent s st f) := .both _

/-- Every other row acts through a frame. -/
theorem exec_framed {c : Instr} (other : ownFrame c = false) (s : State) : Framed s (exec c s) := by
  cases c
  all_goals dsimp only [exec]
  case perstN | powerOn | moduleResetN | fullReset | resetRelease | flashOpDone | thermalSample | undervoltageLockout
    | overvoltageLockout | trstN => cases other
  case read | write | describe | memRead | memWrite => exact .request _ _
  case periodChange | routeLoad | epochChange | domainDrain | portRetrain | define | remove | abort | resume | seqDropsClear | logClear
    | lsClear | deviceReset | flashRead | flashProgram | flashErase | svnAdvance | keyRevoke | bootPreference | attestNonce =>
      exact .entry _ _ _ _ _ _
  case deadline | skewGuardEnd | verdicts | unitHangCheck | turnoverChanges | refreshBurstEnd | valveCountReset | strokeStart =>
    exact .turnover _ _ _
  case counterHoldRelease | inStrokeRefreshSlot | refreshSlotEnd | timingMarker | holdoverTimeout | frame | linkOffer | portDown
    | mbxDoorbell | hostBar2Write | primingComplete => exact .both _
  case idcode | samplePreload | extest | extestPulse | extestTrain | clamp | highz | bypass => exact .tap _
  all_goals exact .dev _

/-- A frame answers a next state with the queue it was given. -/
theorem Framed.next {s : State} {o : Host.Outcome State Fault Refusal} (h : Framed s o) : ∃ t, o = .next t ∧ t.pending = s.pending := by
  cases h with
  | dev f => exact ⟨_, rfl, by split <;> rfl⟩
  | both f => exact ⟨_, rfl, by split <;> rfl⟩
  | request p f => exact ⟨_, rfl, by split <;> rfl⟩
  | tap f => exact ⟨_, rfl, by split <;> rfl⟩

/-- A frame lets no command through without power. -/
theorem Framed.off {s : State} {o : Host.Outcome State Fault Refusal} (h : Framed s o) (off : s.dev.life = .off) : o = .next s := by
  cases h with
  | dev f => exact onDev_off (by simp [off]) f
  | both f => exact onBoth_off (by simp [off]) f
  | request p f => simp [onRequest, off]
  | tap f => simp [onTap, off]

/-! ### Rows with a frame of their own -/

theorem State.powerLost_off {s : State} (off : s.dev.life = .off) : s.powerLost = s := if_pos off

@[simp] theorem State.powerLost_pending (s : State) : s.powerLost.pending = s.pending := by
  unfold State.powerLost
  split <;> rfl

theorem exec_ownFrame_next {c : Instr} (own : ownFrame c = true) (s : State) : ∃ t, exec c s = .next t ∧ t.pending = s.pending := by
  cases c
  case perstN => exact ⟨_, rfl, rfl⟩
  case trstN => exact ⟨_, rfl, rfl⟩
  case powerOn => exact ⟨_, rfl, by split <;> rfl⟩
  case flashOpDone => exact ⟨_, rfl, by split <;> rfl⟩
  case undervoltageLockout => exact ⟨_, rfl, s.powerLost_pending⟩
  case overvoltageLockout => exact ⟨_, rfl, s.powerLost_pending⟩
  case moduleResetN level =>
    cases level with
    | true => exact ⟨_, rfl, rfl⟩
    | false => exact ⟨_, rfl, by dsimp only; split <;> rfl⟩
  case fullReset =>
    show ∃ t, execFullReset s = .next t ∧ _
    unfold execFullReset
    dsimp only
    split
    · exact ⟨_, rfl, rfl⟩
    · split <;> exact ⟨_, rfl, rfl⟩
  case resetRelease straps =>
    show ∃ t, execResetRelease straps s = .next t ∧ _
    unfold execResetRelease
    split
    · split <;> exact ⟨_, rfl, rfl⟩
    · exact ⟨_, rfl, rfl⟩
  case thermalSample t =>
    show ∃ u, execThermalSample t s = .next u ∧ _
    unfold execThermalSample
    split
    · exact ⟨_, rfl, s.powerLost_pending⟩
    · exact (Framed.dev _).next
  all_goals cases own

/-- Of the rows with a frame of their own those that need power change nothing without it. -/
theorem exec_ownFrame_off {c : Instr} (own : ownFrame c = true) (powered : actsWithoutPower c = false) {s : State}
    (off : s.dev.life = .off) : exec c s = .next s := by
  cases c
  case perstN | trstN | powerOn | moduleResetN => cases powered
  case flashOpDone ok => exact congrArg _ (if_neg (by simp [off]))
  case undervoltageLockout => exact congrArg _ (State.powerLost_off off)
  case overvoltageLockout => exact congrArg _ (State.powerLost_off off)
  case fullReset => show execFullReset s = _; simp [execFullReset, off]
  case resetRelease straps => show execResetRelease straps s = _; simp [execResetRelease, off]
  case thermalSample t =>
    show execThermalSample t s = _
    rw [execThermalSample, State.powerLost_off off]
    split
    · rfl
    · exact (Framed.dev _).off off
  all_goals cases own

end Sys2Proof.Machine

open Sys2Proof.Machine
namespace Sys2Proof

/-- Settles O2: by the frame of each row. -/
theorem everyCommandCompletes : Obligations.EveryCommandCompletes := by
  intro c s
  cases own : ownFrame c with
  | true => exact exec_ownFrame_next own s
  | false => exact (exec_framed own s).next

/-- Settles O3: by the frame of each row. -/
theorem offModuleDoesNothing : Obligations.OffModuleDoesNothing := by
  intro c s off powered
  cases own : ownFrame c with
  | true => exact exec_ownFrame_off own powered off
  | false => exact (exec_framed own s).off off

end Sys2Proof
end

section
/-! PROOFS. Values of the dictionary after writes of others (R354), and what a fold keeps. -/

namespace Sys2Proof.Machine

/-- What every step of a fold keeps, the fold keeps. -/
theorem foldl_keeps {σ α β : Type} {f : σ → β → σ} (g : σ → α) (keeps : ∀ d x, g (f d x) = g d) (l : List β) (d : σ) :
    g (l.foldl f d) = g d := by
  induction l generalizing d with
  | nil => rfl
  | cons x l ih => exact (ih (f d x)).trans (keeps d x)

@[simp] theorem Dev.v_setV_self (d : Dev) (i s e x : Nat) : (d.setV i s e x).v i s e = x := SMap.get_put_self _ d.val _ x

theorem Dev.v_setV_other {d : Dev} {i s e i' s' e' : Nat} (x : Nat) (apart : ctr i' s' e' ≠ ctr i s e) :
    (d.setV i s e x).v i' s' e' = d.v i' s' e' := SMap.get_put_other _ d.val _ _ x apart

theorem Dev.v_bump_other {d : Dev} {i s e i' s' e' : Nat} (n : Nat) (apart : ctr i' s' e' ≠ ctr i s e) :
    (d.bump i s e n).v i' s' e' = d.v i' s' e' := SMap.get_put_other _ d.val _ _ _ apart

end Sys2Proof.Machine
end

section
/-! PROOFS. Supply and cooling (R426, R430 to R438). A tick of the power controller is bounded by its slew whatever current it asks for;
its duty and its ballast are bounded by their own definitions. -/

namespace Sys2Proof.Machine

/-! ### What a tick leaves alone (R426, R430) -/

@[simp] theorem Dev.watchInput_mem (d : Dev) (v : Rat) : (d.watchInput v).mem = d.mem := by
  unfold Dev.watchInput
  dsimp only
  split <;> split <;> rfl

@[simp] theorem Dev.watchInput_cores (d : Dev) (v : Rat) : (d.watchInput v).cores = d.cores := by
  unfold Dev.watchInput
  dsimp only
  split <;> split <;> rfl

@[simp] theorem Dev.watchInput_ctxs (d : Dev) (v : Rat) : (d.watchInput v).ctxs = d.ctxs := by
  unfold Dev.watchInput
  dsimp only
  split <;> split <;> rfl

theorem Dev.watchInput_power (d : Dev) (v : Rat) : (d.watchInput v).power =
    { d.power with warning := d.power.warning || decide (v < 40), high := decide (59.5 < v) } := by
  unfold Dev.watchInput
  dsimp only
  split <;> split <;> rfl

/-- The counters of warnings are those of 0x8100. -/
theorem Dev.v_watchInput {i s e : Nat} (d : Dev) (v : Rat) (warnings : ctr i s e ≠ ctr 0x8100 8 0) (highs : ctr i s e ≠ ctr 0x8100 9 0) :
    (d.watchInput v).v i s e = d.v i s e := by
  have counted : ∀ (b : Prop) [Decidable b] (sub : Nat) (d : Dev), ctr i s e ≠ ctr 0x8100 sub 0 →
      (if b then d.bump 0x8100 sub 0 1 else d).v i s e = d.v i s e := fun b _ sub d apart => by
    split
    · exact Dev.v_bump_other 1 apart
    · rfl
  exact (counted _ 9 _ highs).trans (counted _ 8 d warnings)

/-- The device once the controller's measurement is stored and watched (`Dev.powerTick`). -/
def Dev.sampled (d : Dev) (m : PowerIn) : Dev :=
  ((d.setV 0x8100 1 0 m.volts.toNat).setV 0x8100 2 0 m.amps.toNat).watchInput (f32Rat m.volts.toNat)

theorem Dev.setting_sampled (d : Dev) (m : PowerIn) {sub : Nat} (small : sub < 256) : (d.sampled m).v 0x2050 sub 0 = d.v 0x2050 sub 0 := by
  have apart : ∀ el, el < 256 → ctr 0x2050 sub 0 ≠ ctr 0x8100 el 0 := fun el _ => by
    unfold ctr
    omega
  rw [Dev.sampled, Dev.v_watchInput _ _ (apart 8 (by decide)) (apart 9 (by decide)), Dev.v_setV_other _ (apart 2 (by decide)),
    Dev.v_setV_other _ (apart 1 (by decide))]

theorem Dev.slewPerUs_sampled (d : Dev) (m : PowerIn) : (d.sampled m).slewPerUs = d.slewPerUs := by
  unfold Dev.slewPerUs
  rw [d.setting_sampled m (by decide)]

theorem Dev.warnCap_sampled (d : Dev) (m : PowerIn) : (d.sampled m).warnCap = d.warnCap := by
  unfold Dev.warnCap
  rw [d.setting_sampled m (by decide)]

theorem Dev.power_sampled (d : Dev) (m : PowerIn) : (d.sampled m).power =
    { d.power with warning := d.power.warning || decide (f32Rat m.volts.toNat < 40), high := decide (59.5 < f32Rat m.volts.toNat) } :=
  Dev.watchInput_power _ _

/-- A tick changes the sampled device in its power controller and in one counter. -/
theorem Dev.powerTick_parts (d : Dev) (m : PowerIn) : ∃ (b : Prop) (_ : Decidable b) (el : Nat) (p : Power),
    d.powerTick m = { if b then (d.sampled m).bump 0x8100 7 el 1 else d.sampled m with power := p } := ⟨_, _, _, _, rfl⟩

theorem Dev.powerTick_frame (d : Dev) (m : PowerIn) :
    (d.powerTick m).mem = d.mem ∧ (d.powerTick m).cores = d.cores ∧ (d.powerTick m).ctxs = d.ctxs := by
  obtain ⟨b, _, el, p, ticked⟩ := d.powerTick_parts m
  rw [ticked]
  by_cases throttled : b
  · simp [throttled, Dev.sampled]
  · simp [throttled, Dev.sampled]

/-! ### What a tick makes of the controller (R430, R432 to R434) -/

/-- A current moves towards what is asked by at most `s`. -/
def slewedTo (cur s asked : Rat) : Rat := min (max asked (cur - s)) (cur + s)

/-- The bound of the supply warning (R432). -/
def Dev.warnWatts (d : Dev) (volts : Rat) : Rat := if d.power.warning then min d.warnCap (115 * volts) else 4600

/-- Is the power in use beyond its thermal target, or the warning's? -/
def Dev.overTarget (d : Dev) (volts : Rat) : Bool :=
  decide (d.power.thermal < d.power.current * volts) || decide (d.warnWatts volts < d.power.current * volts)

theorem Dev.powerTick_current (d : Dev) (m : PowerIn) : ∃ asked safe, (d.powerTick m).power.current =
    if (d.sampled m).overTarget (f32Rat m.volts.toNat) then min (slewedTo d.power.current d.slewPerUs asked) safe
    else slewedTo d.power.current d.slewPerUs asked := by
  have cur : (d.sampled m).power.current = d.power.current := by rw [Dev.power_sampled]
  rw [← cur, ← d.slewPerUs_sampled m]
  exact ⟨_, _, rfl⟩

theorem Dev.powerTick_duty (d : Dev) (m : PowerIn) : ∃ watts, (d.powerTick m).power.duty = dutyFor m.workWatts watts := ⟨_, rfl⟩

theorem Dev.powerTick_ballast (d : Dev) (m : PowerIn) : ∃ watts, (d.powerTick m).power.ballast = max 0 watts := ⟨_, rfl⟩

theorem Dev.powerTick_warning (d : Dev) (m : PowerIn) :
    (d.powerTick m).power.warning = (d.power.warning || decide (f32Rat m.volts.toNat < 40)) := by
  show (d.sampled m).power.warning = _
  rw [Dev.power_sampled]

theorem Dev.powerTick_thermal (d : Dev) (m : PowerIn) : (d.powerTick m).power.thermal = d.power.thermal := by
  show (d.sampled m).power.thermal = _
  rw [Dev.power_sampled]

/-! ### The bounds -/

theorem slewedTo_le (cur s asked : Rat) : slewedTo cur s asked ≤ cur + s := min_le_right _ _

theorem le_slewedTo {s : Rat} (nonneg : 0 ≤ s) (cur asked : Rat) : cur - s ≤ slewedTo cur s asked :=
  le_min (le_max_right _ _) (by linarith)

theorem Dev.slewPerUs_nonneg (d : Dev) : 0 ≤ d.slewPerUs := div_nonneg (Nat.cast_nonneg _) (by norm_num)

theorem dutyFor_bounds (work : Nat) (watts : Rat) : 1 ≤ dutyFor work watts ∧ dutyFor work watts ≤ 64 := by
  unfold dutyFor
  cases found : ((List.range 64).map fun i : Nat => 64 - i).find? fun n : Nat => decide (workDraw work n ≤ watts) with
  | none => exact ⟨le_refl 1, by decide⟩
  | some n =>
    obtain ⟨i, small, rfl⟩ := List.mem_map.1 (List.mem_of_find?_eq_some found)
    have := List.mem_range.1 small
    rw [Option.getD_some]
    omega

theorem exec_powerControlTick_on {s : State} (on : s.dev.life = .on) (m : PowerIn) :
    exec (.powerControlTick m) s = .next { s with dev := s.dev.powerTick m } := onDev_on (f := fun _ d => d.powerTick m) on

end Sys2Proof.Machine

open Sys2Proof.Machine
namespace Sys2Proof

/-- Settles O40: the current by its slew, the duty and the ballast by their definitions. -/
theorem powerTargetsStayWithinTheirBounds : Obligations.PowerTargetsStayWithinTheirBounds := by
  intro s m on v p slewed
  obtain ⟨asked, safe, current⟩ := s.dev.powerTick_current m
  obtain ⟨_, duty⟩ := s.dev.powerTick_duty m
  obtain ⟨_, ballast⟩ := s.dev.powerTick_ballast m
  obtain ⟨mem, cores, ctxs⟩ := s.dev.powerTick_frame m
  have dutyIn := dutyFor_bounds m.workWatts
  refine ⟨_, exec_powerControlTick_on on m, rfl, ?_, fun thermal warn => ?_, by rw [duty]; exact (dutyIn _).1, by rw [duty]; exact (dutyIn _).2,
    by rw [ballast]; exact le_max_left _ _, s.dev.powerTick_warning m, s.dev.powerTick_thermal m, mem, cores, ctxs⟩
  · have bound := slewedTo_le p.current slewed asked
    rw [current]
    split
    · exact (min_le_left _ _).trans bound
    · exact bound
  · have within : (s.dev.sampled m).overTarget v = false := by
      simp only [Dev.overTarget, Dev.warnWatts, Dev.power_sampled, Dev.warnCap_sampled, Bool.or_eq_false_iff, decide_eq_false_iff_not,
        not_lt, Bool.or_eq_true, decide_eq_true_eq]
      exact ⟨thermal, warn⟩
    rw [current, within]
    exact le_slewedTo s.dev.slewPerUs_nonneg _ _

end Sys2Proof

namespace Sys2Proof.Machine

/-! ### Supply warnings, temperatures and coolant (R426, R437, R438) -/

theorem exec_supplyWarningExit_on {s : State} (on : s.dev.life = .on) : exec .supplyWarningExit s = .next { s with
    dev := if 41 < f32Rat (s.dev.v 0x8100 1 0) then { s.dev with power := { s.dev.power with warning := false } } else s.dev } :=
  onDev_on (f := fun _ d => if 41 < f32Rat (d.v 0x8100 1 0) then { d with power := { d.power with warning := false } } else d) on

theorem State.powerLost_on {s : State} (powered : s.dev.life ≠ .off) : s.powerLost = { s with clk := {}, dev := s.dev.unpowered } :=
  if_neg powered

theorem exec_thermalSample_hot {s : State} {t : Thermal} (shutdown : thermalShutdown t = true) :
    exec (.thermalSample t) s = .next s.powerLost := if_pos shutdown

theorem exec_thermalSample_on {s : State} {t : Thermal} (on : s.dev.life = .on) (below : thermalShutdown t = false) :
    exec (.thermalSample t) s = .next { s with dev := s.dev.takeTemps s.clk t } :=
  (if_neg (by rw [below]; decide)).trans (onDev_on (f := fun c d => d.takeTemps c t) on)

theorem exec_thermalLimitStep_on {s : State} (on : s.dev.life = .on) :
    exec .thermalLimitStep s = .next { s with dev := s.dev.thermalStep } := onDev_on (f := fun _ d => d.thermalStep) on

theorem exec_coolantSample_on {s : State} (on : s.dev.life = .on) (i o f : F32) :
    exec (.coolantSample i o f) s = .next { s with dev := s.dev.coolant i o f } := onDev_on (f := fun _ d => d.coolant i o f) on

@[simp] theorem Dev.storeTemps_mem (d : Dev) (sub : Nat) (l : List Nat) : (d.storeTemps sub l).mem = d.mem := by
  unfold Dev.storeTemps
  exact foldl_keeps Dev.mem (fun _ _ => by rfl) _ d

@[simp] theorem Dev.storeTemps_power (d : Dev) (sub : Nat) (l : List Nat) : (d.storeTemps sub l).power = d.power := by
  unfold Dev.storeTemps
  exact foldl_keeps Dev.power (fun _ _ => by rfl) _ d

theorem Dev.takeTemps_mem (d : Dev) (c : Clock) (t : Thermal) : (d.takeTemps c t).mem = d.mem := by
  simp [Dev.takeTemps]

theorem Dev.takeTemps_thermal (d : Dev) (c : Clock) (t : Thermal) : (d.takeTemps c t).power.thermal = d.power.thermal := by
  simp [Dev.takeTemps]

/-- The first temperature above 85 °C is kept with its turnover (R31). -/
theorem Dev.takeTemps_hot {d : Dev} {c : Clock} (normal : c.extended = false) (none : d.power.hot = none) (t : Thermal) :
    (d.takeTemps c t).power.hot = (thermalOver85 t).map fun ci => (ci, nextTurnover c) := by
  simp [Dev.takeTemps, normal, none]

theorem Dev.thermalStep_held {d : Dev} (cool : d.power.throttling = false) (held : d.power.released = false) : d.thermalStep = d := by
  have same : (if d.power.throttling then max 0 (d.power.thermal - d.powerCap / 50)
      else if d.power.released then min 4600 (d.power.thermal + d.powerCap / 100) else d.power.thermal) = d.power.thermal := by
    simp [cool, held]
  rw [Dev.thermalStep, same]

theorem Dev.coolant_good {d : Dev} {i o f : F32} (cold : 17 ≤ f32Rat i.toNat) (warm : f32Rat i.toNat ≤ 45) (least : 6 ≤ f32Rat f.toNat)
    (most : f32Rat f.toNat ≤ 10) : (d.coolant i o f).power = { d.power with
      coolantGood := min (d.power.coolantGood + 1) 1000
      coolantOk := d.power.coolantOk || decide (1000 ≤ d.power.coolantGood + 1) } := by
  simp [Dev.coolant, cold, warm, least, most]

theorem Dev.coolant_bad {d : Dev} {i o f : F32} (bad : f32Rat i.toNat < 17 ∨ 45 < f32Rat i.toNat ∨ f32Rat f.toNat < 6 ∨ 10 < f32Rat f.toNat) :
    (d.coolant i o f).power = { d.power with coolantGood := 0, coolantOk := false } := by
  have off : (decide (17 ≤ f32Rat i.toNat) && decide (f32Rat i.toNat ≤ 45) && decide (6 ≤ f32Rat f.toNat) && decide (f32Rat f.toNat ≤ 10))
      = false := by
    simp only [Bool.and_eq_false_iff, decide_eq_false_iff_not, not_le]
    tauto
  simp [Dev.coolant, off]

end Sys2Proof.Machine

open Sys2Proof.Machine
namespace Sys2Proof

/-- Settles O41: one lemma for each watch. -/
theorem powerAndCoolantAreWatched : Obligations.PowerAndCoolantAreWatched := by
  refine ⟨fun s on => ⟨fun above => ?_, fun below => ?_⟩, fun s => ⟨fun t hot powered => ?_, fun on => ⟨fun t below => ?_, fun hot => ?_,
    fun cool released => ?_, fun cool held => ?_⟩⟩, fun s i o f on => ?_⟩
  · rw [exec_supplyWarningExit_on on, if_pos above]
  · rw [exec_supplyWarningExit_on on, if_neg (not_lt.2 below)]
  · rw [exec_thermalSample_hot hot, State.powerLost_on powered]
  · exact ⟨_, exec_thermalSample_on on below, rfl, s.dev.takeTemps_mem s.clk t, rfl, s.dev.takeTemps_thermal s.clk t,
      fun normal none => Dev.takeTemps_hot normal none t⟩
  · simp [exec_thermalLimitStep_on on, Dev.thermalStep, hot]
  · simp [exec_thermalLimitStep_on on, Dev.thermalStep, cool, released]
  · rw [exec_thermalLimitStep_on on, Dev.thermalStep_held cool held]
  · refine ⟨_, exec_coolantSample_on on i o f, rfl, ?_, ?_, Dev.v_setV_self _ _ _ _ _, Dev.coolant_good, Dev.coolant_bad⟩
    · exact (Dev.v_setV_other _ (by decide)).trans ((Dev.v_setV_other _ (by decide)).trans (Dev.v_setV_self _ _ _ _ _))
    · exact (Dev.v_setV_other _ (by decide)).trans (Dev.v_setV_self _ _ _ _ _)

end Sys2Proof
end

section
/-! PROOFS. The test port (R444, R450, R451): the rows that need MODULE_RESET_N low differ in what they present alone. -/

namespace Sys2Proof.Machine

theorem onTap_on {s : State} (powered : s.dev.life ≠ .off) (high : s.dev.tap.trst = true) (f : Dev → Dev) :
    onTap s f = .next { s with dev := f s.dev } := by
  simp [onTap, powered, high]

/-- A row that needs the reset loads its instruction, or acts as BYPASS (R451). -/
theorem exec_tapRow {x : Instr × TapInstr × (TestPort → List Output)} (row : x ∈ tapRows) (s : State) :
    exec x.1 s = onTap s fun d => d.tapHeld x.2.1 (x.2.2 d.tap) := by
  simp only [tapRows, List.mem_cons, List.not_mem_nil, or_false] at row
  rcases row with rfl | rfl | rfl | rfl | rfl <;> rfl

theorem Dev.tapHeld_low {d : Dev} (low : d.resetPinHigh = false) (i : TapInstr) (out : List Output) : d.tapHeld i out = d.tapLoad i out := by
  simp [Dev.tapHeld, low]

theorem Dev.tapHeld_high {d : Dev} (high : d.resetPinHigh = true) (i : TapInstr) (out : List Output) : d.tapHeld i out = d.tapBypass :=
  if_pos high

theorem idcodeBits_eq : idcodeBits = (List.range 32).map fun i => Nat.testBit 0x104805AB i :=
  congrArg (fun f => (List.range 32).map f) (funext fun _ => Nat.testBit_eq_decide_div_mod_eq.symm)

/-- At the rise of MODULE_RESET_N the port leaves an instruction that needed it low. -/
theorem exec_moduleResetN_rise {s : State} (low : s.dev.resetPinHigh = false) (held : s.dev.tap.instr ∈ tapRows.map (·.2.1)) :
    exec (.moduleResetN true) s =
      .next { s with dev := { s.dev with resetPinHigh := true, tap := { s.dev.tap with instr := .idcode } } } := by
  have row : exec (.moduleResetN true) s = execModuleResetN true s := rfl
  simp only [tapRows, List.map_cons, List.map_nil, List.mem_cons, List.not_mem_nil, or_false] at held
  rcases held with is | is | is | is | is <;> simp [row, execModuleResetN, low, is]

end Sys2Proof.Machine

open Sys2Proof.Machine
namespace Sys2Proof

/-- Settles O42: by the frame of the test port's rows. -/
theorem testPortInstructionsNeedTheReset : Obligations.TestPortInstructionsNeedTheReset := by
  intro s powered high went
  have port := fun f => onTap_on powered high f
  refine ⟨fun x row => ⟨fun low => ?_, fun up => ?_⟩, port _, ?_,
    fun pins preload => port fun d => ({ d with tap := { d.tap with captured := pins, preload := preload } } : Dev).tapLoad .samplePreload [.tdo pins],
    fun level => rfl, exec_moduleResetN_rise⟩
  · rw [exec_tapRow row, port, Dev.tapHeld_low low]
    rfl
  · rw [exec_tapRow row, port, Dev.tapHeld_high up]
    rfl
  · rw [← idcodeBits_eq]
    exact port fun d => d.tapLoad .idcode [.tdo idcodeBits]

end Sys2Proof
end

section
/-! PROOFS. Resets of the module (R382, R383, R415, R425 to R427). -/

namespace Sys2Proof.Machine

theorem State.resetBy_whole {s : State} (whole : s.dev.flashOp = none) (cause : ResetCause) : s.resetBy cause = { State.reset with
    pending := s.pending
    dev := { State.reset.dev with
      life := .held cause, resetCause := s.dev.resetCause, flash := s.dev.flash, fusedSvn := s.dev.fusedSvn, keyRevoked := s.dev.keyRevoked
      hostMem := s.dev.hostMem, resetPinHigh := s.dev.resetPinHigh, perstHigh := s.dev.perstHigh, tap := s.dev.tap
      freeCtr := s.dev.freeCtr + 1, out := s.dev.out ++ [.flashReset true] } } := by
  simp only [State.resetBy, Dev.held, whole]
  rfl

theorem exec_moduleResetN_low {s : State} (powered : s.dev.life ≠ .off) : exec (.moduleResetN false) s =
    .next { s.resetBy .resetPin with dev := { (s.resetBy .resetPin).dev with resetPinHigh := false } } := by
  have row : exec (.moduleResetN false) s = execModuleResetN false s := rfl
  simp [row, execModuleResetN, powered]

theorem exec_fullReset_asked {s : State} (up : s.dev.life = .on ∨ s.dev.life = .fatal) (asked : s.dev.resetAsked = true) :
    exec .fullReset s = .next (s.resetBy .command) := by
  have row : exec .fullReset s = execFullReset s := rfl
  simp [row, execFullReset, up, asked]

theorem exec_fullReset_fatal {s : State} (fatal : s.dev.life = .fatal) (unasked : s.dev.resetAsked = false) (resets : s.dev.v 0x7200 4 0 = 1) :
    exec .fullReset s = .next (s.resetBy .fatal) := by
  have row : exec .fullReset s = execFullReset s := rfl
  simp [row, execFullReset, fatal, unasked, resets]

theorem exec_fullReset_unasked {s : State} (on : s.dev.life = .on) (unasked : s.dev.resetAsked = false) : exec .fullReset s = .next s := by
  have row : exec .fullReset s = execFullReset s := rfl
  simp [row, execFullReset, on, unasked]

theorem exec_resetRelease_held {s : State} {cause : ResetCause} (held : s.dev.life = .held cause) (high : s.dev.resetPinHigh = true)
    (straps : Fin 8) : exec (.resetRelease straps) s = .next { s with clk := {}, dev := s.dev.released cause straps.val } := by
  have row : exec (.resetRelease straps) s = execResetRelease straps s := rfl
  simp [row, execResetRelease, held, high]

theorem exec_resetRelease_low {s : State} (low : s.dev.resetPinHigh = false) (straps : Fin 8) : exec (.resetRelease straps) s = .next s := by
  have row : exec (.resetRelease straps) s = execResetRelease straps s := rfl
  rw [row, execResetRelease]
  split
  · simp [low]
  · rfl

theorem exec_powerOn_rises {s : State} {volts : F32} (off : s.dev.life = .off) (enough : 40 ≤ f32Rat volts.toNat) :
    exec (.powerOn volts) s = .next { s with dev := { s.dev with life := .held .powerOn } } :=
  congrArg Host.Outcome.next (if_pos ⟨off, enough⟩)

theorem exec_powerOn_other {s : State} {volts : F32} (other : s.dev.life ≠ .off ∨ f32Rat volts.toNat < 40) :
    exec (.powerOn volts) s = .next s := by
  refine congrArg Host.Outcome.next (if_neg fun ⟨off, enough⟩ => ?_)
  rcases other with powered | low
  · exact powered off
  · exact absurd enough (not_le.2 low)

end Sys2Proof.Machine

open Sys2Proof.Machine
namespace Sys2Proof

/-- Settles O38: one lemma for each way into reset and out of it. -/
theorem fullResetsLoseAllButWhatSurvives : Obligations.FullResetsLoseAllButWhatSurvives := by
  refine fun s => ⟨fun cause whole => State.resetBy_whole whole cause, exec_moduleResetN_low, exec_fullReset_asked, exec_fullReset_fatal,
    exec_fullReset_unasked, fun cause straps held high => exec_resetRelease_held held high straps,
    fun straps low => exec_resetRelease_low low straps, fun i row powered => ?_, fun volts => exec_powerOn_rises,
    fun volts => exec_powerOn_other⟩
  have lost := State.powerLost_on powered
  simp only [List.mem_cons, List.not_mem_nil, or_false] at row
  rcases row with rfl | rfl
  · exact congrArg Host.Outcome.next lost
  · exact congrArg Host.Outcome.next lost

end Sys2Proof
end

section
/-! PROOFS. Lock-step signatures (R420, R421). -/

namespace Sys2Proof.Machine

theorem exec_lockstepSignatures_kept {s : State} {p : PortId} {bs : List Byte} {x : Signatures} (on : s.dev.life = .on)
    (spells : signaturesOf bs = some x) (runs : s.dev.lsOn = true) (port : p.val = s.dev.lsPort) :
    exec (.lockstepSignatures p bs) s = .next { s with dev := { s.dev with ls := { s.dev.ls with theirs := some x } } } := by
  have row : exec (.lockstepSignatures p bs) s = execLockstepSignatures p bs s := rfl
  rw [row, execLockstepSignatures, onDev_on on]
  simp [spells, runs, port]

theorem exec_lockstepSignatures_other {s : State} {p : PortId} {bs : List Byte} (on : s.dev.life = .on)
    (other : signaturesOf bs = none ∨ s.dev.lsOn = false ∨ p.val ≠ s.dev.lsPort) : exec (.lockstepSignatures p bs) s = .next s := by
  have row : exec (.lockstepSignatures p bs) s = execLockstepSignatures p bs s := rfl
  rw [row, execLockstepSignatures, onDev_on on]
  cases spells : signaturesOf bs with
  | none => rfl
  | some x =>
    have elsewhere : (s.dev.lsOn && decide (p.val = s.dev.lsPort)) = false := by
      rcases other with nothing | off | port
      · cases spells.symm.trans nothing
      · rw [off, Bool.false_and]
      · rw [decide_eq_false port, Bool.and_false]
    simp only [elsewhere, Bool.false_eq_true, if_false]

theorem signaturesOf_length {bs : List Byte} (other : bs.length ≠ 544) : signaturesOf bs = none := by
  simp [signaturesOf, other]

end Sys2Proof.Machine

open Sys2Proof.Machine
namespace Sys2Proof

/-- Settles O44: by what the payload spells, then by lock-step and its port. -/
theorem signaturesAreKeptForTheVerdict : Obligations.SignaturesAreKeptForTheVerdict :=
  fun _ _ _ on => ⟨fun _ spells runs port => exec_lockstepSignatures_kept on spells runs port,
    fun other => exec_lockstepSignatures_other on other, signaturesOf_length⟩

end Sys2Proof
end

section
/-! PROOFS. Ports are taken down (R296, R388, R415): what that touches, and the state each port ends in. -/

namespace Sys2Proof.Machine

/-! ### What ports and links touch (R291, R296) -/

/-- `d'` differs from `d` in ports, links, dictionary values and what has been sent out, alone. -/
def Dev.linksOnly (d d' : Dev) : Prop := ∃ ps ls vs os, d' = { d with ports := ps, links := ls, val := vs, out := os }

theorem Dev.linksOnly_refl (d : Dev) : d.linksOnly d := ⟨_, _, _, _, rfl⟩

theorem Dev.linksOnly.trans {a b c : Dev} (h : a.linksOnly b) (k : b.linksOnly c) : a.linksOnly c := by
  obtain ⟨_, _, _, _, rfl⟩ := h
  obtain ⟨_, _, _, _, rfl⟩ := k
  exact ⟨_, _, _, _, rfl⟩

theorem Dev.linksOnly_foldl {α : Type} {f : Dev → α → Dev} (step : ∀ d x, Dev.linksOnly d (f d x)) (l : List α) (d : Dev) :
    d.linksOnly (l.foldl f d) := by
  induction l generalizing d with
  | nil => exact d.linksOnly_refl
  | cons x l ih => exact (step d x).trans (ih (f d x))

theorem Dev.linksOnly.mem {d d' : Dev} (h : d.linksOnly d') : d'.mem = d.mem := by
  obtain ⟨_, _, _, _, rfl⟩ := h
  rfl

theorem Dev.linksOnly.prime {d d' : Dev} (h : d.linksOnly d') : d'.prime = d.prime := by
  obtain ⟨_, _, _, _, rfl⟩ := h
  rfl

theorem Dev.linksOnly_setPort (d : Dev) (p : Nat) (x : Port) : d.linksOnly (d.setPort p x) := ⟨_, d.links, d.val, d.out, rfl⟩

theorem Dev.linksOnly_setLink (d : Dev) (l : Nat) (x : Link) : d.linksOnly (d.setLink l x) := ⟨d.ports, _, d.val, d.out, rfl⟩

theorem Dev.linksOnly_bump (d : Dev) (i j e n : Nat) : d.linksOnly (d.bump i j e n) := ⟨d.ports, d.links, _, d.out, rfl⟩

theorem Dev.linksOnly_emit (d : Dev) (o : Output) : d.linksOnly (d.emit o) := ⟨d.ports, d.links, d.val, _, rfl⟩

theorem Dev.linksOnly_leaveLink (d : Dev) (p : Nat) : d.linksOnly (d.leaveLink p) := by
  unfold Dev.leaveLink
  split
  · exact d.linksOnly_refl
  · dsimp only
    split
    · exact (Dev.linksOnly_setPort _ _ _).trans (Dev.linksOnly_setLink _ _ _)
    · split
      · exact (Dev.linksOnly_setPort _ _ _).trans (Dev.linksOnly_setLink _ _ _)
      · exact (((Dev.linksOnly_setPort _ _ _).trans (Dev.linksOnly_setLink _ _ _)).trans (Dev.linksOnly_emit _ _)).trans
          (Dev.linksOnly_bump _ _ _ _ _)

theorem Dev.linksOnly_portOut (d : Dev) (p : Nat) : d.linksOnly (d.portOut p) := by
  unfold Dev.portOut
  split
  · exact d.linksOnly_refl
  · exact (d.linksOnly_leaveLink p).trans (Dev.linksOnly_setPort _ _ _)

/-! ### The states of ports (R296) -/

/-- A port that is taken down is DOWN, but for one that is DISABLED. -/
def PortState.dark : PortState → PortState
  | .disabled => .disabled
  | _ => .down

theorem PortState.dark_dark (st : PortState) : st.dark.dark = st.dark := by cases st <;> rfl

theorem PortState.dark_eq (st : PortState) : st.dark = .down ∨ st.dark = .disabled := by cases st <;> decide

theorem PortState.dark_enabled {st : PortState} (enabled : st ≠ .disabled) : st.dark = .down := by
  cases st with
  | disabled => exact absurd rfl enabled
  | down | training | joining | up | refused => rfl

/-- Leaving a link concerns one port's link number. -/
theorem Dev.state_leaveLink (d : Dev) (p q : Nat) : ((d.leaveLink p).port q).state = (d.port q).state := by
  have off : ∀ (e : Dev), e.ports = (d.setPort p { d.port p with link := none }).ports → (e.port q).state = (d.port q).state := fun e same => by
    have port : e.port q = (d.setPort p { d.port p with link := none }).port q := congrArg (fun ps => SMap.get (fun _ => ({} : Port)) ps q) same
    rw [port]
    by_cases eq : q = p
    · rw [eq, Dev.port_setPort_self]
    · rw [Dev.port_setPort_other _ _ _ _ eq]
  unfold Dev.leaveLink
  split
  · rfl
  · dsimp only
    split
    · exact off _ rfl
    · split <;> exact off _ rfl

theorem Dev.state_portOut (d : Dev) (p q : Nat) :
    ((d.portOut p).port q).state = if q = p then (d.port q).state.dark else (d.port q).state := by
  unfold Dev.portOut
  split
  next disabled =>
    split
    next eq => rw [eq, disabled]; rfl
    next => rfl
  next enabled =>
    split
    next eq => rw [eq, Dev.port_setPort_self, PortState.dark_enabled enabled]
    next other => rw [Dev.port_setPort_other _ _ _ _ other, Dev.state_leaveLink]

/-- Ports taken down one after another are each as one alone would be. -/
theorem foldl_dark {f : Dev → Nat → Dev}
    (step : ∀ d p q, ((f d p).port q).state = if q = p then (d.port q).state.dark else (d.port q).state) (l : List Nat) (d : Dev) (q : Nat) :
    ((l.foldl f d).port q).state = if q ∈ l then (d.port q).state.dark else (d.port q).state := by
  induction l generalizing d with
  | nil => rfl
  | cons p l ih =>
    rw [List.foldl_cons, ih, step]
    by_cases eq : q = p
    · simp [eq, PortState.dark_dark]
    · simp [eq]

end Sys2Proof.Machine
end

section
/-! PROOFS. Failures (R413 to R415): device fatal takes down the ports and the contexts; a unit's reset ends as it was asked for. -/

namespace Sys2Proof.Machine

/-! ### Device fatal (R415) -/

theorem Dev.state_allPortsDown (d : Dev) (q : Nat) :
    (d.allPortsDown.port q).state = if q < 32 then (d.port q).state.dark else (d.port q).state := by
  have step : ∀ (d : Dev) (p q : Nat), ((if (d.port p).state = .disabled then d else (d.emit (.linkDown p)).portDown p).port q).state =
      if q = p then (d.port q).state.dark else (d.port q).state := fun d p q => by
    split
    next disabled =>
      split
      next eq => rw [eq, disabled]; rfl
      next => rfl
    next enabled =>
      rw [Dev.portDown, Dev.state_portOut]
      by_cases eq : q = p
      · rw [if_pos eq, if_pos eq, eq, Dev.port_setPort_self]
        rfl
      · rw [if_neg eq, if_neg eq, Dev.port_setPort_other _ _ _ _ eq]
        rfl
  have all := foldl_dark step (List.range 32) d q
  simp only [List.mem_range] at all
  exact all

@[simp] theorem Dev.countStatus_ports (d : Dev) (st : Status) : (d.countStatus st).ports = d.ports := by
  unfold Dev.countStatus
  split <;> rfl

@[simp] theorem Dev.countStatus_ctxs (d : Dev) (st : Status) : (d.countStatus st).ctxs = d.ctxs := by
  unfold Dev.countStatus
  split <;> rfl

@[simp] theorem Dev.log_ports (d : Dev) (dom : Nat) (r : LogRec) : (d.log dom r).ports = d.ports := by
  unfold Dev.log
  simp only
  split
  · rfl
  · exact Dev.bump_ports _ _ _ _ _

@[simp] theorem Dev.log_ctxs (d : Dev) (dom : Nat) (r : LogRec) : (d.log dom r).ctxs = d.ctxs := by
  unfold Dev.log
  simp only
  split
  · rfl
  · exact Dev.bump_ctxs _ _ _ _ _

theorem Dev.loseResident_ports (d : Dev) : d.loseResident.ports = d.ports := rfl

/-- The record and the count of device fatal concern neither ports nor contexts. -/
theorem Dev.fatal_ports (d : Dev) (c : Clock) (kind : UnitKind) (unit : Nat) : (d.fatal c kind unit).ports = d.allPortsDown.ports := by
  simp only [Dev.fatal, Dev.logStatus, Dev.log_ports, Dev.countStatus_ports, Dev.emit_ports, Dev.loseResident_ports]

theorem Dev.fatal_ctxs (d : Dev) (c : Clock) (kind : UnitKind) (unit : Nat) :
    (d.fatal c kind unit).ctxs = d.allPortsDown.loseResident.ctxs := by
  simp only [Dev.fatal, Dev.logStatus, Dev.log_ctxs, Dev.countStatus_ctxs, Dev.emit_ctxs]

/-- A key reads as the default, or as something listed. -/
theorem SMap.get_default_or_mem {α : Type} (d : Nat → α) (m : SMap α) (k : Nat) : SMap.get d m k = d k ∨ (k, SMap.get d m k) ∈ m := by
  induction m with
  | nil => exact .inl rfl
  | cons x m ih =>
    obtain ⟨j, v⟩ := x
    rw [SMap.get_cons]
    by_cases eq : k = j
    · rw [if_pos eq]
      exact .inr (by simp [eq])
    · rw [if_neg eq]
      exact ih.imp id (List.mem_cons_of_mem _)

theorem Dev.resident_loseResident (d : Dev) (k : Nat) : (d.loseResident.ctx k).resident = false := by
  rcases SMap.get_default_or_mem (fun _ => ({} : Ctx)) d.loseResident.ctxs k with default | listed
  · exact (congrArg Ctx.resident default).trans rfl
  · obtain ⟨⟨j, x⟩, -, eq⟩ := List.mem_map.1 (List.mem_filter.1 listed).1
    obtain ⟨-, eq⟩ := Prod.mk.inj eq
    have lost : d.loseResident.ctx k = if x.resident then {} else x := eq.symm
    rw [lost]
    split
    · rfl
    · exact Bool.eq_false_iff.2 ‹_›

theorem Dev.fatal_resident (d : Dev) (c : Clock) (kind : UnitKind) (unit k : Nat) : ((d.fatal c kind unit).ctx k).resident = false := by
  have same : (d.fatal c kind unit).ctx k = d.allPortsDown.loseResident.ctx k :=
    congrArg (fun cs => SMap.get (fun _ => ({} : Ctx)) cs k) (d.fatal_ctxs c kind unit)
  rw [same, Dev.resident_loseResident]

theorem Dev.fatal_port {d : Dev} {p : Nat} (exists_ : p < 32) (enabled : (d.port p).state ≠ .disabled) (c : Clock) (kind : UnitKind)
    (unit : Nat) : ((d.fatal c kind unit).port p).state = .down := by
  have same : (d.fatal c kind unit).port p = d.allPortsDown.port p :=
    congrArg (fun ps => SMap.get (fun _ => ({} : Port)) ps p) (d.fatal_ports c kind unit)
  rw [same, Dev.state_allPortsDown, if_pos exists_, PortState.dark_enabled enabled]

theorem Dev.fatal_moduleOk (d : Dev) (c : Clock) (kind : UnitKind) (unit : Nat) : (d.fatal c kind unit).moduleOk = false := by
  simp [Dev.moduleOk, Dev.fatal]

/-! ### Watchdogs (R413, R414) -/

theorem exec_heartbeatTimeout_on {s : State} (on : s.dev.life = .on) (cp : Fin 8) :
    exec (.heartbeatTimeout cp) s = .next { s with dev := s.dev.fatal s.clk .controlProcessor cp.val } :=
  onDev_on (f := fun c d => d.fatal c .controlProcessor cp.val) on

theorem exec_bridgeFlitReplay_on {s : State} (on : s.dev.life = .on) (b : Fin 14) (n : Nat) : exec (.bridgeFlitReplay b n) s = .next { s with
    dev := if n ≥ 16 then (s.dev.bump 0x80F0 7 0 1).fatal s.clk .bridge b.val else s.dev.bump 0x80F0 7 0 1 } :=
  onDev_on (f := fun c d => if n ≥ 16 then (d.bump 0x80F0 7 0 1).fatal c .bridge b.val else d.bump 0x80F0 7 0 1) on

/-- A unit is no longer to be reset. -/
def Dev.resetEnded (d : Dev) (u : UnitName) : Dev := { d with unitResets := d.unitResets.filter (· != u) }

section
variable {s : State} {u : UnitName} (on : s.dev.life = .on)
include on

theorem exec_unitResetDone_unasked (unasked : u ∉ s.dev.unitResets) (cleared : Bool) : exec (.unitResetDone u cleared) s = .next s := by
  have row : exec (.unitResetDone u cleared) s = execUnitResetDone u cleared s := rfl
  rw [row, execUnitResetDone, onDev_on on]
  simp [unasked]

variable (asked : u ∈ s.dev.unitResets)
include asked

theorem exec_unitResetDone_cleared : exec (.unitResetDone u true) s = .next { s with dev := s.dev.resetEnded u } := by
  have row : exec (.unitResetDone u true) s = execUnitResetDone u true s := rfl
  rw [row, execUnitResetDone, onDev_on on]
  simp [asked, Dev.resetEnded]

theorem exec_unitResetDone_cluster {cl : Nat} (of : unitCluster u = some cl) : exec (.unitResetDone u false) s = .next { s with
    dev := (s.dev.resetEnded u).updCluster cl fun x => { x with disabled := true } } := by
  have row : exec (.unitResetDone u false) s = execUnitResetDone u false s := rfl
  rw [row, execUnitResetDone, onDev_on on]
  simp [asked, of, Dev.resetEnded]

theorem exec_unitResetDone_hdie {h : HdieId} (is : u = .hdie h) : exec (.unitResetDone u false) s = .next { s with
    dev := (s.dev.resetEnded u).fatal s.clk .hdie h.val } := by
  have row : exec (.unitResetDone u false) s = execUnitResetDone u false s := rfl
  subst is
  rw [row, execUnitResetDone, onDev_on on]
  simp [asked, unitCluster, unitKindOf, Dev.resetEnded]

end

end Sys2Proof.Machine

open Sys2Proof.Machine
namespace Sys2Proof

/-- Settles O43: what device fatal leaves, and one lemma for each end of a unit's reset. -/
theorem failuresStopOrDisable : Obligations.FailuresStopOrDisable := by
  refine ⟨⟨fun s kind unit => ⟨rfl, s.dev.fatal_moduleOk s.clk kind unit, s.dev.fatal_resident s.clk kind unit,
      fun p exists_ enabled => Dev.fatal_port exists_ enabled s.clk kind unit⟩,
    fun s on => ⟨exec_heartbeatTimeout_on on, fun b n few => ?_, fun b n many => ?_⟩⟩,
    fun s u on => ⟨fun unasked => exec_unitResetDone_unasked on unasked, fun asked => ⟨exec_unitResetDone_cleared on asked,
      fun cl of => exec_unitResetDone_cluster on asked of, fun h is => exec_unitResetDone_hdie on asked is⟩⟩⟩
  · rw [exec_bridgeFlitReplay_on on, if_neg (Nat.not_le.2 few)]
  · rw [exec_bridgeFlitReplay_on on, if_pos many]

end Sys2Proof
end

section
/-! PROOFS. Boot, priming, flash and reports (R383 to R399). The ROM's three endings, the ends of priming, and the ends of a flash
operation are said apart; what a range of writes leaves of a map is said once. -/

namespace Sys2Proof.Machine

/-! ### Maps after a range of writes -/

/-- A map after one value has been written at every key of a list. -/
theorem SMap.get_foldl_put {α : Type} [DecidableEq α] (d : Nat → α) (v : α) (l : List Nat) (m : SMap α) (k : Nat) :
    SMap.get d (l.foldl (fun m j => SMap.put d m j v) m) k = if k ∈ l then v else SMap.get d m k := by
  induction l generalizing m with
  | nil => simp
  | cons j l ih =>
    rw [List.foldl_cons, ih, SMap.get_put]
    by_cases last : k ∈ l
    · simp [last]
    · simp [last]

/-- Values written at `n` keys from `a` on. -/
def SMap.putRange {α : Type} [DecidableEq α] (d : Nat → α) (m : SMap α) (a n : Nat) (f : Nat → α) : SMap α :=
  (List.range n).foldl (fun m i => SMap.put d m (a + i) (f i)) m

theorem SMap.get_putRange {α : Type} [DecidableEq α] (d : Nat → α) (m : SMap α) (a n : Nat) (f : Nat → α) (k : Nat) :
    SMap.get d (SMap.putRange d m a n f) k = if a ≤ k ∧ k < a + n then f (k - a) else SMap.get d m k := by
  induction n with
  | zero => exact (if_neg (by omega)).symm
  | succ n ih =>
    unfold SMap.putRange at ih ⊢
    rw [List.range_succ, List.foldl_append, List.foldl_cons, List.foldl_nil, SMap.get_put, ih]
    by_cases last : k = a + n
    · rw [if_pos last, if_pos (by omega), last, Nat.add_sub_cancel_left]
    · rw [if_neg last]
      by_cases before : a ≤ k ∧ k < a + n
      · rw [if_pos before, if_pos (by omega)]
      · rw [if_neg before, if_neg (by omega)]

/-! ### The boot ROM (R391, R392) -/

theorem exec_bootRom_done {s : State} (on : s.dev.life = .on) (done : s.dev.boot.done = true) (ea eb : Bool) :
    exec (.bootRom ea eb) s = .next s :=
  (onDev_on (f := fun _ d => if d.boot.done then d else d.runRom ea eb) on).trans (by rw [if_pos done])

theorem exec_bootRom_runs {s : State} (on : s.dev.life = .on) (first : s.dev.boot.done = false) (ea eb : Bool) :
    exec (.bootRom ea eb) s = .next { s with dev := s.dev.runRom ea eb } :=
  (onDev_on (f := fun _ d => if d.boot.done then d else d.runRom ea eb) on).trans (by rw [if_neg (by simp [first])])

/-- What trying a slot comes to. -/
def Dev.tried (d : Dev) (ea eb : Bool) (slot : Nat) : Nat := d.slotResult slot (if slot = 0 then ea else eb)

theorem Dev.preferred_eq (d : Dev) : d.preferred = 0 ∨ d.preferred = 1 := by
  unfold Dev.preferred
  split
  · exact .inr rfl
  · exact .inl rfl

section
variable {d : Dev} {ea eb : Bool}

/-- The preferred slot is tried first; where neither is good, recovery takes what trying each came to. -/
theorem Dev.runRom_eq (d : Dev) (ea eb : Bool) : ∃ a b a' b', d.runRom ea eb =
    if d.tried ea eb d.preferred = 0 then d.startImage d.preferred a b
    else if d.tried ea eb (1 - d.preferred) = 0 then d.startImage (1 - d.preferred) a' b'
    else d.enterRecovery (if d.preferred = 0 then d.tried ea eb d.preferred else d.tried ea eb (1 - d.preferred))
      (if d.preferred = 0 then d.tried ea eb (1 - d.preferred) else d.tried ea eb d.preferred) := ⟨_, _, _, _, rfl⟩

theorem Dev.runRom_preferred (good : d.tried ea eb d.preferred = 0) : ∃ a b, d.runRom ea eb = d.startImage d.preferred a b := by
  obtain ⟨a, b, _, _, runs⟩ := d.runRom_eq ea eb
  exact ⟨a, b, by rw [runs, if_pos good]⟩

theorem Dev.runRom_other (bad : d.tried ea eb d.preferred ≠ 0) (good : d.tried ea eb (1 - d.preferred) = 0) :
    ∃ a b, d.runRom ea eb = d.startImage (1 - d.preferred) a b := by
  obtain ⟨_, _, a, b, runs⟩ := d.runRom_eq ea eb
  exact ⟨a, b, by rw [runs, if_neg bad, if_pos good]⟩

theorem Dev.runRom_recovers (badA : d.tried ea eb 0 ≠ 0) (badB : d.tried ea eb 1 ≠ 0) :
    d.runRom ea eb = d.enterRecovery (d.tried ea eb 0) (d.tried ea eb 1) := by
  obtain ⟨_, _, _, _, runs⟩ := d.runRom_eq ea eb
  rcases d.preferred_eq with first | first
  · rw [runs, first, if_neg badA, if_neg badB, if_pos rfl, if_pos rfl]
  · rw [runs, first, if_neg badB, if_neg badA, if_neg Nat.one_ne_zero, if_neg Nat.one_ne_zero]

theorem Dev.runRom_done (d : Dev) (ea eb : Bool) : (d.runRom ea eb).boot.done = true := by
  obtain ⟨_, _, _, _, runs⟩ := d.runRom_eq ea eb
  rw [runs]
  split
  · rfl
  · split <;> rfl

end

/-- Recovery leaves its functions FAULTED and the others as they were. -/
theorem Dev.primeOf_enterRecovery (d : Dev) (a b k : Nat) :
    (d.enterRecovery a b).primeOf k = if k ∈ recoveryFaults then 2 else d.primeOf k := by
  unfold Dev.primeOf Dev.enterRecovery
  generalize recoveryFaults = faulted
  exact SMap.get_foldl_put _ _ _ _ _

/-! ### Priming (R384 to R388) -/

/-- The priming of a function has ended with state `code`. -/
def Dev.primeEnds (d : Dev) (fn : PrimeFn) (code : Nat) : Dev := { d with prime := SMap.put (fun _ => 0) d.prime (primeKey fn) code }

theorem Dev.primeOf_primeEnds (d : Dev) (fn : PrimeFn) (code k : Nat) :
    (d.primeEnds fn code).primeOf k = if k = primeKey fn then code else d.primeOf k := SMap.get_put _ d.prime _ _ _

/-- All ports of a device are taken down. -/
def Dev.portsOut (d : Dev) : Dev := (List.range 32).foldl (fun d p => d.portOut p) d

section
variable {c : Clock} {d : Dev} {fn : PrimeFn} (may : d.mayPrime fn = true)
include may

theorem endPriming_primed : endPriming c d fn true = primedNow c (d.primeEnds fn 1) fn := by
  rw [endPriming, may]
  rfl

theorem endPriming_security (is : fn = .security) : endPriming c d fn false = (c, { d.primeEnds fn 2 with identity := 3 }) := by
  subst is
  rw [endPriming, may]
  rfl

theorem endPriming_hdie {h : HdieId} (is : fn = .hdie h) : endPriming c d fn false = settleUpstream c (d.primeEnds fn 2).portsOut := by
  subst is
  simp only [endPriming, may, Bool.not_true, Bool.false_eq_true, if_false, Dev.portsOut, Dev.primeEnds]

theorem endPriming_faulted (notSecurity : fn ≠ .security) (notHdie : ∀ h, fn ≠ .hdie h) : endPriming c d fn false = (c, d.primeEnds fn 2) := by
  rw [endPriming, may]
  cases fn with
  | security => exact absurd rfl notSecurity
  | hdie h => exact absurd rfl (notHdie h)
  | mgmt | stroke | pcie | cluster | cistern | port => rfl

end

theorem endPriming_barred {d : Dev} {fn : PrimeFn} (bars : d.mayPrime fn = false) (c : Clock) (ok : Bool) : endPriming c d fn ok = (c, d) := by
  rw [endPriming, bars]
  rfl

/-- What the end of a function's priming comes to is what the command leaves. -/
theorem exec_primingComplete_on {s : State} {fn : PrimeFn} {ok : Bool} {c : Clock} {d : Dev} (on : s.dev.life = .on)
    (ends : endPriming s.clk s.dev fn ok = (c, d)) : exec (.primingComplete fn ok) s = .next { s with clk := c, dev := d } := by
  have row : exec (.primingComplete fn ok) s = execPrimingComplete fn ok s := rfl
  rw [row, execPrimingComplete, onBoth_on on, ends]

/-- A dictionary for which no mailbox waits has nothing to perform on its priming (R387). -/
theorem primedNow_mgmt {d : Dev} (c : Clock) (none : ∀ f, (d.reg f).waiting = none) : primedNow c d .mgmt = (c, d) := by
  have idle : ∀ f, runWaiting c d f = (c, d) := fun f => by simp [runWaiting, none f]
  exact List.foldl_fixed' (f := fun (x : Clock × Dev) f => runWaiting x.1 x.2 f) idle _

theorem Dev.linksOnly_portsOut (d : Dev) : d.linksOnly d.portsOut := Dev.linksOnly_foldl Dev.linksOnly_portOut (List.range 32) d

theorem Dev.state_portsOut (d : Dev) {p : Nat} (exists_ : p < 32) : (d.portsOut.port p).state = (d.port p).state.dark :=
  (foldl_dark Dev.state_portOut (List.range 32) d p).trans (if_pos (List.mem_range.2 exists_))

theorem Dev.linksOnly_settleUpstream (c : Clock) (d : Dev) : d.linksOnly (settleUpstream c d).2 ∧ (settleUpstream c d).2.ports = d.ports := by
  unfold settleUpstream
  split
  · exact ⟨d.linksOnly_refl, rfl⟩
  · split
    · exact ⟨d.linksOnly_refl, rfl⟩
    · simp only
      split
      · exact ⟨d.linksOnly_refl, rfl⟩
      · split
        · exact ⟨d.linksOnly_bump _ _ _ _, rfl⟩
        · exact ⟨d.linksOnly_refl, rfl⟩

theorem Dev.servesOnly_of_prime {d : Dev} {h : HdieId} (faulted : d.primeOf (primeKey (.hdie h)) = 2) : d.servesOnly = true := by
  have key : 16 + h.val = 16 ∨ 16 + h.val = 17 := by omega
  unfold Dev.servesOnly Dev.hdieIs
  rcases key with one | two
  · rw [primeKey, one] at faulted
    simp [faulted]
  · rw [primeKey, two] at faulted
    simp [faulted]

theorem Dev.portUsable_served {d : Dev} (serves : d.servesOnly = true) (p : Nat) : d.portUsable p = false := by
  simp [Dev.portUsable, serves]

/-! ### Flash operations (R395) -/

/-- The buffer of FLASH_READ holds 4,096 bytes. -/
def Dev.bufferFilled (d : Dev) (f : Nat → Byte) : Dev := (List.range 4096).foldl (fun d i => d.setV 0x9010 2 i (f i).toNat) d

theorem Dev.flash_bufferFilled (d : Dev) (f : Nat → Byte) : (d.bufferFilled f).flash = d.flash := by
  unfold Dev.bufferFilled
  exact foldl_keeps Dev.flash (fun _ _ => by rfl) _ d

theorem Dev.flashOp_bufferFilled (d : Dev) (f : Nat → Byte) : (d.bufferFilled f).flashOp = d.flashOp := by
  unfold Dev.bufferFilled
  exact foldl_keeps Dev.flashOp (fun _ _ => by rfl) _ d

theorem Dev.v_bufferFilled (d : Dev) (f : Nat → Byte) {i : Nat} (within : i < 4096) : (d.bufferFilled f).v 0x9010 2 i = (f i).toNat := by
  have filled : ∀ n, i < n → ((List.range n).foldl (fun d i => d.setV 0x9010 2 i (f i).toNat) d).v 0x9010 2 i = (f i).toNat := by
    intro n
    induction n with
    | zero => intro none; omega
    | succ n ih =>
      intro some
      rw [List.range_succ, List.foldl_append, List.foldl_cons, List.foldl_nil]
      by_cases last : i = n
      · rw [last, Dev.v_setV_self]
      · rw [Dev.v_setV_other _ (by unfold ctr; omega), ih (by omega)]
  exact filled 4096 within

/-- What a flash operation leaves where it succeeds, its status aside. -/
def Dev.flashDone (d : Dev) (o : FlashOp) : Dev :=
  match o.op with
  | 1 => ({ d with flashOp := none } : Dev).bufferFilled fun i => d.flashByte (o.offset + i)
  | 2 => { d with flashOp := none, flash := SMap.putRange flashDflt d.flash o.offset 4096 fun i => o.data.getD i 0#8 }
  | _ => { d with flashOp := none, flash := SMap.putRange flashDflt d.flash o.offset 65536 fun _ => 0xFF#8 }

/-- What it leaves after a flash error. -/
def Dev.flashTorn (d : Dev) (o : FlashOp) : Dev :=
  let a := o.offset / 65536 * 65536
  let e : Dev := { ({ d with flashOp := none } : Dev).tickFree with
    flash := SMap.putRange flashDflt d.flash a 65536 fun i => Config.freeByte d.freeCtr (a + i) }
  if o.op = 1 then e.bufferFilled fun i => Config.freeByte d.freeCtr (2 ^ 32 + i) else e

theorem Dev.flashDone_read {o : FlashOp} (op : o.op = 1) (d : Dev) :
    d.flashDone o = ({ d with flashOp := none } : Dev).bufferFilled fun i => d.flashByte (o.offset + i) := by
  simp only [Dev.flashDone, op]

theorem Dev.flashByte_flashDone_program {o : FlashOp} (op : o.op = 2) (d : Dev) (a : Nat) : (d.flashDone o).flashByte a =
    if o.offset ≤ a ∧ a < o.offset + 4096 then o.data.getD (a - o.offset) 0#8 else d.flashByte a := by
  simp only [Dev.flashByte, Dev.flashDone, op]
  rw [SMap.get_putRange]

theorem Dev.flashByte_flashDone_erase {o : FlashOp} (op : o.op = 3) (d : Dev) (a : Nat) : (d.flashDone o).flashByte a =
    if o.offset ≤ a ∧ a < o.offset + 65536 then 0xFF#8 else d.flashByte a := by
  simp only [Dev.flashByte, Dev.flashDone, op]
  rw [SMap.get_putRange]

section
variable {d : Dev} {o : FlashOp} (under : d.flashOp = some o)
include under

theorem Dev.flashEnds_ok : d.flashEnds true = (d.flashDone o).setV 0x9010 4 0 2 := by
  unfold Dev.flashEnds
  rw [under]
  rfl

theorem Dev.flashEnds_error : d.flashEnds false = (d.flashTorn o).setV 0x9010 4 0 4 := by
  unfold Dev.flashEnds
  rw [under]
  rfl

end

theorem Dev.flashOp_flashDone (d : Dev) (o : FlashOp) : (d.flashDone o).flashOp = none := by
  unfold Dev.flashDone
  split
  · exact Dev.flashOp_bufferFilled _ _
  · rfl
  · rfl

theorem Dev.flashOp_flashTorn (d : Dev) (o : FlashOp) : (d.flashTorn o).flashOp = none := by
  unfold Dev.flashTorn
  simp only
  split
  · exact Dev.flashOp_bufferFilled _ _
  · rfl

theorem exec_flashOpDone_up {s : State} (up : s.dev.life = .on ∨ s.dev.life = .fatal) (ok : Bool) :
    exec (.flashOpDone ok) s = .next { s with dev := s.dev.flashEnds ok } := congrArg Host.Outcome.next (if_pos (by simpa using up))

/-! ### Reports (R398) -/

theorem exec_attestReportReady_on {s : State} (on : s.dev.life = .on) :
    exec .attestReportReady s = .next { s with dev := s.dev.attestReady } := onDev_on (f := fun _ d => d.attestReady) on

theorem Dev.attestReady_idle {d : Dev} (none : d.attest.forming = []) : d.attestReady = d := by
  unfold Dev.attestReady
  rw [none]

theorem Dev.attestReady_forms {d : Dev} {body : List Byte} {rest : List (List Byte)} (forms : d.attest.forming = body :: rest) :
    d.attestReady = { d.tickFree with attest := { d.attest with
      forming := rest, report := body ++ (List.finRange 64).map (Config.sm2Signature d.freeCtr body) } } := by
  unfold Dev.attestReady
  rw [forms]

end Sys2Proof.Machine

open Sys2Proof.Machine
namespace Sys2Proof

/-- Settles O39: the ROM's endings, the ends of priming and of flash operations, and the reports, each by its lemmas. -/
theorem bootPrimingFlashAndReports : Obligations.BootPrimingFlashAndReports := by
  refine ⟨fun s ea eb on => ?_, fun s fn on => ⟨fun bars ok => exec_primingComplete_on on (endPriming_barred bars _ ok),
    fun may => ?_⟩, fun s o up under => ?_, fun s on => ?_⟩
  · refine ⟨fun done => exec_bootRom_done on done ea eb, fun first => ⟨_, exec_bootRom_runs on first ea eb, rfl, s.dev.runRom_done ea eb,
      fun good => ?_, fun bad good => ?_, fun badA badB => ?_⟩⟩
    · obtain ⟨a, b, runs⟩ := Dev.runRom_preferred good
      simp [runs, Dev.startImage]
    · obtain ⟨a, b, runs⟩ := Dev.runRom_other bad good
      simp [runs, Dev.startImage]
    · have runs := Dev.runRom_recovers badA badB
      refine ⟨?_, ?_, ?_, ?_, fun k => ?_⟩
      · rw [runs]; rfl
      · rw [runs]; rfl
      · rw [runs]; rfl
      · rw [runs]; rfl
      · exact (congrArg (fun d : Dev => d.primeOf k) runs).trans (s.dev.primeOf_enterRecovery _ _ k)
  · have primed : ∀ {c d}, primedNow s.clk (s.dev.primeEnds fn 1) fn = (c, d) →
        exec (.primingComplete fn true) s = .next { s with clk := c, dev := d } :=
      fun now => exec_primingComplete_on on ((endPriming_primed may).trans now)
    refine ⟨s.dev.primeOf_primeEnds fn, fun is => exec_primingComplete_on on (endPriming_security may is), fun h is => ?_,
      fun notSecurity notHdie => exec_primingComplete_on on (endPriming_faulted may notSecurity notHdie), fun is => primed (is ▸ rfl),
      fun is => primed (is ▸ rfl), fun p is => primed (is ▸ rfl), fun ci is => primed (is ▸ rfl),
      fun is none => primed (is ▸ primedNow_mgmt s.clk none), fun is => primed ?_⟩
    · have out := (s.dev.primeEnds fn 2).linksOnly_portsOut
      obtain ⟨settled, ports⟩ := Dev.linksOnly_settleUpstream s.clk (s.dev.primeEnds fn 2).portsOut
      have both := out.trans settled
      have serves : (settleUpstream s.clk (s.dev.primeEnds fn 2).portsOut).2.servesOnly = true := by
        refine Dev.servesOnly_of_prime (h := h) ?_
        refine (congrArg (fun m => SMap.get (fun _ => 0) m (primeKey (.hdie h))) both.prime).trans ?_
        exact (s.dev.primeOf_primeEnds fn 2 _).trans (if_pos (by rw [is]))
      refine ⟨_, exec_primingComplete_on on (endPriming_hdie may is), serves, both.prime, both.mem, fun p exists_ => ?_,
        fun p _ => Dev.portUsable_served serves p, fun root => congrArg Prod.fst (settleUpstream_none root _)⟩
      have port : (settleUpstream s.clk (s.dev.primeEnds fn 2).portsOut).2.port p = (s.dev.primeEnds fn 2).portsOut.port p :=
        congrArg (fun ps => SMap.get (fun _ => ({} : Port)) ps p) ports
      have dark := Dev.state_portsOut (s.dev.primeEnds fn 2) exists_
      rw [← port] at dark
      exact (PortState.dark_eq _).imp dark.trans dark.trans
    · rcases is with is | ⟨h, is⟩ | ⟨cl, is⟩
      · exact is ▸ rfl
      · exact is ▸ rfl
      · exact is ▸ rfl
  · have ok := Dev.flashEnds_ok under
    have apart : ∀ i, ctr 0x9010 2 i ≠ ctr 0x9010 4 0 ∨ 4096 ≤ i := fun i => by
      unfold ctr
      omega
    refine ⟨fun good => ⟨_, exec_flashOpDone_up up good, ?_⟩, fun op => ⟨_, exec_flashOpDone_up up true, ?_⟩,
      fun op => ⟨_, exec_flashOpDone_up up true, ?_⟩, fun op => ⟨_, exec_flashOpDone_up up true, ?_⟩⟩
    · cases good with
      | true => exact ⟨ok ▸ s.dev.flashOp_flashDone o, ok ▸ Dev.v_setV_self _ _ _ _ _, rfl⟩
      | false =>
        have error := Dev.flashEnds_error under
        exact ⟨error ▸ s.dev.flashOp_flashTorn o, error ▸ Dev.v_setV_self _ _ _ _ _, rfl⟩
    · simp only [ok, Dev.flashDone_read op]
      refine ⟨(Dev.setV_flash _ _ _ _ _).trans (Dev.flash_bufferFilled _ _), fun i within => ?_⟩
      rw [Dev.v_setV_other _ ((apart i).resolve_right (Nat.not_le.2 within)), Dev.v_bufferFilled _ _ within]
    · rw [ok]
      exact Dev.flashByte_flashDone_program op s.dev
    · rw [ok]
      exact Dev.flashByte_flashDone_erase op s.dev
  · refine ⟨fun none => ?_, fun body rest forms => ⟨_, exec_attestReportReady_on on, ?_⟩⟩
    · rw [exec_attestReportReady_on on, Dev.attestReady_idle none]
    · rw [Dev.attestReady_forms forms]
      exact ⟨rfl, List.take_left, by simp, rfl, rfl⟩

end Sys2Proof
end

section
/-! PROOFS. Resets of functions (R373, R382). A reset of one function is described so that a reset of several follows from it by
composition: what becomes of the queues, of the contexts, of the register blocks. -/

namespace Sys2Proof.Machine

/-! ### Folds over numbered parts -/

/-- A fold whose steps leave something alone, each at the numbers it meets, leaves it alone. -/
theorem foldl_keeps_of_mem {σ α β : Type} {f : σ → β → σ} (g : σ → α) (l : List β) (keeps : ∀ d, ∀ x ∈ l, g (f d x) = g d) (d : σ) :
    g (l.foldl f d) = g d := by
  induction l generalizing d with
  | nil => rfl
  | cons x l ih =>
    exact (ih (fun d y mem => keeps d y (List.mem_cons_of_mem x mem)) (f d x)).trans (keeps d x List.mem_cons_self)

/-- A fold whose step at `q` sets what its other steps leave alone. -/
theorem foldl_sets {σ α : Type} {f : σ → Nat → σ} (g : σ → α) (l : List Nat) {q : Nat} {z : α} (sets : ∀ d, g (f d q) = z)
    (keeps : ∀ d, ∀ x ∈ l, x ≠ q → g (f d x) = g d) (d : σ) : g (l.foldl f d) = if q ∈ l then z else g d := by
  induction l generalizing d with
  | nil => rfl
  | cons x l ih =>
    rw [List.foldl_cons, ih fun d y mem => keeps d y (List.mem_cons_of_mem x mem)]
    by_cases later : q ∈ l
    · simp [later]
    · by_cases now : x = q
      · simp [now, sets]
      · simp [later, Ne.symm now, keeps d x List.mem_cons_self now]

/-! ### Queues (R363, R373) -/

/-- A submission queue is disabled, its doorbell at zero. -/
def Dev.disableSq (d : Dev) (q : Nat) : Dev := (d.setV (0x3400 + q) 3 0 0).setSq q { d.sq q with tail := 0 }

/-- A completion queue is disabled, its doorbell at zero. -/
def Dev.disableCq (d : Dev) (q : Nat) : Dev := (d.setV (0x3800 + q) 3 0 0).setCq q { d.cq q with head := 0 }

/-- The queues of a function that are enabled. -/
def Dev.ownSqs (d : Dev) (f : Nat) : List Nat := (List.range 1024).filter fun q => d.sqSize q != 0 && d.sqFunction q = f
def Dev.ownCqs (d : Dev) (f : Nat) : List Nat := (List.range 1024).filter fun q => d.cqSize q != 0 && d.cqFunction q = f

theorem Dev.disableQueues_eq (d : Dev) (f : Nat) :
    d.disableQueues f = (d.ownCqs f).foldl Dev.disableCq ((d.ownSqs f).foldl Dev.disableSq d) := rfl

theorem Dev.mem_ownSqs {d : Dev} {f q : Nat} : q ∈ d.ownSqs f ↔ q < 1024 ∧ d.sqSize q ≠ 0 ∧ d.sqFunction q = f := by
  simp [Dev.ownSqs]

theorem Dev.mem_ownCqs {d : Dev} {f q : Nat} : q ∈ d.ownCqs f ↔ q < 1024 ∧ d.cqSize q ≠ 0 ∧ d.cqFunction q = f := by
  simp [Dev.ownCqs]

theorem Dev.v_setSq (d : Dev) (q : Nat) (x : SqRun) (i j e : Nat) : (d.setSq q x).v i j e = d.v i j e := rfl
theorem Dev.v_setCq (d : Dev) (q : Nat) (x : CqRun) (i j e : Nat) : (d.setCq q x).v i j e = d.v i j e := rfl

theorem Dev.sq_setV (d : Dev) (i j e x q : Nat) : (d.setV i j e x).sq q = d.sq q := rfl
theorem Dev.cq_setV (d : Dev) (i j e x q : Nat) : (d.setV i j e x).cq q = d.cq q := rfl

theorem Dev.sq_setCq (d : Dev) (j : Nat) (x : CqRun) (q : Nat) : (d.setCq j x).sq q = d.sq q := rfl
theorem Dev.cq_setSq (d : Dev) (j : Nat) (x : SqRun) (q : Nat) : (d.setSq j x).cq q = d.cq q := rfl

theorem Dev.sq_disableCq (d : Dev) (x q : Nat) : (d.disableCq x).sq q = d.sq q := by
  unfold Dev.disableCq
  rw [Dev.sq_setCq, Dev.sq_setV]

theorem Dev.cq_disableSq (d : Dev) (x q : Nat) : (d.disableSq x).cq q = d.cq q := by
  unfold Dev.disableSq
  rw [Dev.cq_setSq, Dev.cq_setV]

theorem Dev.v_disableSq {d : Dev} {q i s e : Nat} (apart : ctr i s e ≠ ctr (0x3400 + q) 3 0) : (d.disableSq q).v i s e = d.v i s e := by
  unfold Dev.disableSq
  rw [Dev.v_setSq, Dev.v_setV_other 0 apart]

theorem Dev.v_disableCq {d : Dev} {q i s e : Nat} (apart : ctr i s e ≠ ctr (0x3800 + q) 3 0) : (d.disableCq q).v i s e = d.v i s e := by
  unfold Dev.disableCq
  rw [Dev.v_setCq, Dev.v_setV_other 0 apart]

theorem Dev.sqFunction_disableSq (d : Dev) {q x : Nat} : (d.disableSq x).sqFunction q = d.sqFunction q := by
  unfold Dev.sqFunction
  exact Dev.v_disableSq (by unfold ctr; omega)

theorem Dev.sqFunction_disableCq (d : Dev) {q x : Nat} : (d.disableCq x).sqFunction q = d.sqFunction q := by
  unfold Dev.sqFunction
  exact Dev.v_disableCq (by unfold ctr; omega)

theorem Dev.cqFunction_disableSq (d : Dev) {q x : Nat} : (d.disableSq x).cqFunction q = d.cqFunction q := by
  unfold Dev.cqFunction
  exact Dev.v_disableSq (by unfold ctr; omega)

theorem Dev.cqFunction_disableCq (d : Dev) {q x : Nat} : (d.disableCq x).cqFunction q = d.cqFunction q := by
  unfold Dev.cqFunction
  exact Dev.v_disableCq (by unfold ctr; omega)

theorem Dev.sqSize_disableSq_self (d : Dev) (q : Nat) : (d.disableSq q).sqSize q = 0 := by
  unfold Dev.sqSize Dev.disableSq
  rw [Dev.v_setSq, Dev.v_setV_self]

theorem Dev.sqSize_disableSq_other (d : Dev) {q x : Nat} (other : x ≠ q) : (d.disableSq x).sqSize q = d.sqSize q := by
  unfold Dev.sqSize
  exact Dev.v_disableSq (by unfold ctr; omega)

theorem Dev.sqSize_disableCq (d : Dev) {q x : Nat} (small : q < 1024) : (d.disableCq x).sqSize q = d.sqSize q := by
  unfold Dev.sqSize
  exact Dev.v_disableCq (by unfold ctr; omega)

theorem Dev.cqSize_disableCq_self (d : Dev) (q : Nat) : (d.disableCq q).cqSize q = 0 := by
  unfold Dev.cqSize Dev.disableCq
  rw [Dev.v_setCq, Dev.v_setV_self]

theorem Dev.cqSize_disableCq_other (d : Dev) {q x : Nat} (other : x ≠ q) : (d.disableCq x).cqSize q = d.cqSize q := by
  unfold Dev.cqSize
  exact Dev.v_disableCq (by unfold ctr; omega)

theorem Dev.cqSize_disableSq (d : Dev) {q x : Nat} (small : x < 1024) : (d.disableSq x).cqSize q = d.cqSize q := by
  unfold Dev.cqSize
  exact Dev.v_disableSq (by unfold ctr; omega)

theorem Dev.tail_disableSq_self (d : Dev) (q : Nat) : ((d.disableSq q).sq q).tail = 0 := by
  unfold Dev.disableSq
  rw [Dev.sq_setSq_self]

theorem Dev.tail_disableSq_other (d : Dev) {q x : Nat} (other : x ≠ q) : ((d.disableSq x).sq q).tail = (d.sq q).tail := by
  unfold Dev.disableSq
  rw [Dev.sq_setSq_other _ _ _ _ (Ne.symm other), Dev.sq_setV]

theorem Dev.head_disableCq_self (d : Dev) (q : Nat) : ((d.disableCq q).cq q).head = 0 := by
  unfold Dev.disableCq
  rw [Dev.cq_setCq_self]

theorem Dev.head_disableCq_other (d : Dev) {q x : Nat} (other : x ≠ q) : ((d.disableCq x).cq q).head = (d.cq q).head := by
  unfold Dev.disableCq
  rw [Dev.cq_setCq_other _ _ _ _ (Ne.symm other), Dev.cq_setV]

/-- The queues of the functions `fs` have been disabled, with their doorbells at zero, and no others. -/
structure QueuesOff (fs : List Nat) (d e : Dev) : Prop where
  sqOwner : ∀ q, q < 1024 → e.sqFunction q = d.sqFunction q
  cqOwner : ∀ q, q < 1024 → e.cqFunction q = d.cqFunction q
  sq : ∀ q, q < 1024 → e.sqSize q = if d.sqFunction q ∈ fs then 0 else d.sqSize q
  cq : ∀ q, q < 1024 → e.cqSize q = if d.cqFunction q ∈ fs then 0 else d.cqSize q
  tail : ∀ q, q < 1024 → (e.sq q).tail = if d.sqSize q ≠ 0 ∧ d.sqFunction q ∈ fs then 0 else (d.sq q).tail
  head : ∀ q, q < 1024 → (e.cq q).head = if d.cqSize q ≠ 0 ∧ d.cqFunction q ∈ fs then 0 else (d.cq q).head

theorem QueuesOff.refl (d : Dev) : QueuesOff [] d d := by constructor <;> intro q _ <;> simp

theorem QueuesOff.trans {fs gs : List Nat} {a b c : Dev} (h : QueuesOff fs a b) (k : QueuesOff gs b c) : QueuesOff (fs ++ gs) a c where
  sqOwner q small := (k.sqOwner q small).trans (h.sqOwner q small)
  cqOwner q small := (k.cqOwner q small).trans (h.cqOwner q small)
  sq q small := by
    rw [k.sq q small, h.sq q small, h.sqOwner q small]
    by_cases first : a.sqFunction q ∈ fs <;> simp [first]
  cq q small := by
    rw [k.cq q small, h.cq q small, h.cqOwner q small]
    by_cases first : a.cqFunction q ∈ fs <;> simp [first]
  tail q small := by
    rw [k.tail q small, h.tail q small, h.sq q small, h.sqOwner q small]
    by_cases first : a.sqFunction q ∈ fs <;> simp [first]
  head q small := by
    rw [k.head q small, h.head q small, h.cq q small, h.cqOwner q small]
    by_cases first : a.cqFunction q ∈ fs <;> simp [first]

/-- One pass disables a function's submission queues, the next its completion queues, and neither touches what the other sets. -/
theorem Dev.disableQueues_off (d : Dev) (f : Nat) : QueuesOff [f] d (d.disableQueues f) := by
  have sqs : ∀ {α : Type} (g : Dev → α), (∀ (d : Dev) x, x < 1024 → g (d.disableSq x) = g d) →
      g ((d.ownSqs f).foldl Dev.disableSq d) = g d := fun g keeps =>
    foldl_keeps_of_mem g _ (fun d x mem => keeps d x (Dev.mem_ownSqs.1 mem).1) d
  have cqs : ∀ {α : Type} (g : Dev → α), (∀ (d : Dev) x, x < 1024 → g (d.disableCq x) = g d) →
      g (d.disableQueues f) = g ((d.ownSqs f).foldl Dev.disableSq d) := fun g keeps => by
    rw [Dev.disableQueues_eq]
    exact foldl_keeps_of_mem g _ (fun d x mem => keeps d x (Dev.mem_ownCqs.1 mem).1) _
  refine ⟨fun q _ => ?_, fun q _ => ?_, fun q small => ?_, fun q small => ?_, fun q small => ?_, fun q small => ?_⟩
  · rw [cqs (fun d => d.sqFunction q) fun d x _ => d.sqFunction_disableCq,
      sqs (fun d => d.sqFunction q) fun d x _ => d.sqFunction_disableSq]
  · rw [cqs (fun d => d.cqFunction q) fun d x _ => d.cqFunction_disableCq,
      sqs (fun d => d.cqFunction q) fun d x _ => d.cqFunction_disableSq]
  · rw [cqs (fun d => d.sqSize q) fun d x _ => d.sqSize_disableCq small,
      foldl_sets (f := Dev.disableSq) (fun d => d.sqSize q) _ (fun d => d.sqSize_disableSq_self q) fun d x _ => d.sqSize_disableSq_other]
    by_cases size : d.sqSize q = 0 <;> simp [Dev.mem_ownSqs, small, size]
  · rw [Dev.disableQueues_eq, foldl_sets (f := Dev.disableCq) (fun d => d.cqSize q) _ (fun d => d.cqSize_disableCq_self q) fun d x _ => d.cqSize_disableCq_other,
      sqs (fun d => d.cqSize q) fun d x small => d.cqSize_disableSq small]
    by_cases size : d.cqSize q = 0 <;> simp [Dev.mem_ownCqs, small, size]
  · rw [cqs (fun d => (d.sq q).tail) fun d x _ => by rw [Dev.sq_disableCq],
      foldl_sets (f := Dev.disableSq) (fun d => (d.sq q).tail) _ (fun d => d.tail_disableSq_self q) fun d x _ => d.tail_disableSq_other]
    simp [Dev.mem_ownSqs, small]
  · rw [Dev.disableQueues_eq, foldl_sets (f := Dev.disableCq) (fun d => (d.cq q).head) _ (fun d => d.head_disableCq_self q) fun d x _ => d.head_disableCq_other,
      sqs (fun d => (d.cq q).head) fun d x _ => by rw [Dev.cq_disableSq]]
    simp [Dev.mem_ownCqs, small]

/-! ### Contexts (R349, R373) -/

/-- What a map lists stays listed after a write, but for what was read at the key written. -/
theorem SMap.mem_insert_or {α : Type} (d : Nat → α) {m : SMap α} {x : Nat × α} (listed : x ∈ m) (k : Nat) (v : α) :
    x ∈ SMap.insert m k v ∨ (x.1 = k ∧ SMap.get d m k = x.2) := by
  induction m with
  | nil => cases listed
  | cons y m ih =>
    obtain ⟨j, w⟩ := y
    unfold SMap.insert
    split
    · exact .inl (List.mem_cons_of_mem _ listed)
    · split
      next eq =>
        rcases List.mem_cons.1 listed with rfl | later
        · exact .inr ⟨eq.symm, by rw [SMap.get_cons, if_pos eq]⟩
        · exact .inl (List.mem_cons_of_mem _ later)
      next other =>
        rcases List.mem_cons.1 listed with rfl | later
        · exact .inl List.mem_cons_self
        · refine (ih later).imp (List.mem_cons_of_mem _) fun ⟨key, value⟩ => ⟨key, ?_⟩
          rw [SMap.get_cons, if_neg other, value]

theorem SMap.mem_insert_self {α : Type} (m : SMap α) (k : Nat) (v : α) : (k, v) ∈ SMap.insert m k v := by
  induction m with
  | nil => exact List.mem_singleton_self _
  | cons y m ih =>
    unfold SMap.insert
    split
    · exact List.mem_cons_self
    · split
      · exact List.mem_cons_self
      · exact List.mem_cons_of_mem _ ih

/-- A context goes at turnover `n` at the latest. -/
def Ctx.goesBy (x : Ctx) (n : Nat) : Ctx := { x with removeAt := some (min (x.removeAt.getD n) n) }

theorem Dev.mem_ctxIds {d : Dev} {k : Nat} : k ∈ d.ctxIds ↔ ∃ x : Ctx, (k, x) ∈ d.ctxs ∧ x.state ≠ .undefined ∧ x.state ≠ .tornDown := by
  unfold Dev.ctxIds
  constructor
  · intro mem
    obtain ⟨⟨j, x⟩, listed, rfl⟩ := List.mem_map.1 mem
    have := List.mem_filter.1 listed
    exact ⟨x, this.1, by simpa using this.2⟩
  · rintro ⟨x, listed, live⟩
    exact List.mem_map.2 ⟨(k, x), List.mem_filter.2 ⟨listed, by simpa using live⟩, rfl⟩

theorem Dev.ctxIds_goesBy {d : Dev} {k : Nat} (live : k ∈ d.ctxIds) (j n : Nat) : k ∈ (d.updCtx j fun x => x.goesBy n).ctxIds := by
  obtain ⟨x, listed, state⟩ := Dev.mem_ctxIds.1 live
  have put : (d.updCtx j fun x => x.goesBy n).ctxs = SMap.insert d.ctxs j ((d.ctx j).goesBy n) :=
    if_neg fun same => by simpa [Ctx.goesBy] using congrArg Ctx.removeAt same
  refine Dev.mem_ctxIds.2 ?_
  rw [put]
  rcases SMap.mem_insert_or (fun _ => ({} : Ctx)) listed j ((d.ctx j).goesBy n) with stays | ⟨key, read⟩
  · exact ⟨x, stays, state⟩
  · obtain rfl : k = j := key
    have read : d.ctx k = x := read
    exact ⟨(d.ctx k).goesBy n, SMap.mem_insert_self _ _ _, by rw [read]; exact state⟩

/-- The live contexts that `p` selects go at turnover `n` at the latest, and the others are as they were. -/
structure ContextsGo (n : Nat) (p : Nat → Ctx → Prop) (d e : Dev) : Prop where
  client : ∀ k, (e.ctx k).client = (d.ctx k).client
  live : ∀ k ∈ d.ctxIds, k ∈ e.ctxIds
  gone : ∀ k ∈ d.ctxIds, p k (d.ctx k) → ∃ m, (e.ctx k).removeAt = some m ∧ m ≤ n
  others : ∀ k, ¬p k (d.ctx k) → e.ctx k = d.ctx k

theorem ContextsGo.refl (n : Nat) (d : Dev) : ContextsGo n (fun _ x => x.client ∈ []) d d :=
  ⟨fun _ => rfl, fun _ live => live, fun _ _ none => by simp at none, fun _ _ => rfl⟩

theorem ContextsGo.trans {n : Nat} {fs gs : List Nat} {a b c : Dev} (h : ContextsGo n (fun _ x => x.client ∈ fs) a b)
    (k : ContextsGo n (fun _ x => x.client ∈ gs) b c) : ContextsGo n (fun _ x => x.client ∈ fs ++ gs) a c where
  client j := (k.client j).trans (h.client j)
  live j live := k.live j (h.live j live)
  gone j live selected := by
    by_cases second : (b.ctx j).client ∈ gs
    · exact k.gone j (h.live j live) second
    · rw [k.others j second]
      rw [h.client j] at second
      exact h.gone j live ((List.mem_append.1 selected).resolve_right second)
  others j apart := by
    have neither := not_or.1 (mt List.mem_append.2 apart)
    rw [k.others j (by rw [h.client j]; exact neither.2), h.others j neither.1]

/-- Contexts marked one after another. -/
theorem Dev.foldl_goesBy (n : Nat) (l : List Nat) (d : Dev) :
    ContextsGo n (fun k _ => k ∈ l) d (l.foldl (fun d k => d.updCtx k fun x => x.goesBy n) d) := by
  induction l generalizing d with
  | nil => exact ⟨fun _ => rfl, fun _ live => live, fun _ _ none => by simp at none, fun _ _ => rfl⟩
  | cons j l ih =>
    have rest := ih (d.updCtx j fun x => x.goesBy n)
    have self : (d.updCtx j fun x => x.goesBy n).ctx j = (d.ctx j).goesBy n := Dev.ctx_setCtx_self _ _ _
    have other : ∀ k, k ≠ j → (d.updCtx j fun x => x.goesBy n).ctx k = d.ctx k := fun k ne => Dev.ctx_setCtx_other _ _ _ _ ne
    refine ⟨fun k => (rest.client k).trans ?_, fun k live => rest.live k (Dev.ctxIds_goesBy live j n), fun k live selected => ?_,
      fun k apart => ?_⟩
    · by_cases eq : k = j
      · rw [eq, self]; rfl
      · rw [other k eq]
    · by_cases later : k ∈ l
      · exact rest.gone k (Dev.ctxIds_goesBy live j n) later
      · obtain rfl : k = j := (List.mem_cons.1 selected).resolve_right later
        exact ⟨_, congrArg Ctx.removeAt ((rest.others k later).trans self), min_le_right _ _⟩
    · have apart := not_or.1 (mt List.mem_cons.2 apart)
      exact (rest.others k apart.2).trans (other k apart.1)

theorem Dev.removeClient_go (d : Dev) (c : Clock) (f : Nat) :
    ContextsGo (nextTurnover c) (fun _ x => x.client ∈ [f]) d (d.removeClient c f) := by
  obtain ⟨client, live, gone, others⟩ := Dev.foldl_goesBy (nextTurnover c) (d.ctxIds.filter fun k => (d.ctx k).client = f) d
  refine ⟨client, live, fun k alive owned => gone k alive ?_, fun k apart => others k fun mem => apart ?_⟩
  · exact List.mem_filter.2 ⟨alive, by simpa using owned⟩
  · simpa using (List.mem_filter.1 mem).2

/-! ### One function, and several (R373) -/

/-- What a reset of the functions in `fs` leaves, in a form that composes (`FunctionsReset`). -/
structure ResetsOf (c : Clock) (fs : List Nat) (d e : Dev) : Prop where
  regs : ∀ g, e.reg g = if g ∈ fs then {} else d.reg g
  queues : QueuesOff fs d e
  contexts : ContextsGo (nextTurnover c) (fun _ x => x.client ∈ fs) d e
  mem : e.mem = d.mem
  cores : e.cores = d.cores
  valves : e.valves = d.valves

theorem ResetsOf.refl (c : Clock) (d : Dev) : ResetsOf c [] d d :=
  ⟨fun _ => by simp, .refl d, .refl _ d, rfl, rfl, rfl⟩

theorem ResetsOf.trans {c : Clock} {fs gs : List Nat} {x y z : Dev} (h : ResetsOf c fs x y) (k : ResetsOf c gs y z) :
    ResetsOf c (fs ++ gs) x z where
  regs g := by
    rw [k.regs, h.regs]
    by_cases second : g ∈ gs <;> simp [second]
  queues := h.queues.trans k.queues
  contexts := h.contexts.trans k.contexts
  mem := k.mem.trans h.mem
  cores := k.cores.trans h.cores
  valves := k.valves.trans h.valves

theorem Dev.setV_setSq_keeps {α : Type} (g : Dev → α) (values : ∀ (d : Dev) vs ss cs, g { d with val := vs, sqs := ss, cqs := cs } = g d)
    (d : Dev) (i j e v q : Nat) (x : SqRun) : g ((d.setV i j e v).setSq q x) = g d := values d _ _ d.cqs

theorem Dev.setV_setCq_keeps {α : Type} (g : Dev → α) (values : ∀ (d : Dev) vs ss cs, g { d with val := vs, sqs := ss, cqs := cs } = g d)
    (d : Dev) (i j e v q : Nat) (x : CqRun) : g ((d.setV i j e v).setCq q x) = g d := values d _ d.sqs _

/-- Disabling queues concerns queues and dictionary values alone. -/
theorem Dev.disableQueues_keeps {α : Type} (g : Dev → α) (values : ∀ (d : Dev) vs ss cs, g { d with val := vs, sqs := ss, cqs := cs } = g d)
    (d : Dev) (f : Nat) : g (d.disableQueues f) = g d := by
  rw [Dev.disableQueues_eq]
  refine (foldl_keeps g (fun d x => ?_) _ _).trans (foldl_keeps g (fun d x => ?_) _ d)
  · exact Dev.setV_setCq_keeps g values d _ _ _ _ _ _
  · exact Dev.setV_setSq_keeps g values d _ _ _ _ _ _

theorem Dev.removeClient_eq (d : Dev) (c : Clock) (f : Nat) : d.removeClient c f =
    { (d.ctxIds.filter fun k => (d.ctx k).client = f).foldl (fun d k => d.updCtx k fun x => x.goesBy (nextTurnover c)) d with
      defines := d.defines.map fun r => if r.client = f then { r with doomed := true } else r } := by
  have defines := foldl_keeps (f := fun (d : Dev) k => d.updCtx k fun x => x.goesBy (nextTurnover c)) Dev.defines (fun _ _ => by rfl)
    (d.ctxIds.filter fun k => (d.ctx k).client = f) d
  rw [← defines]
  rfl

/-- Removing a client's contexts concerns contexts and DEFINEs alone. -/
theorem Dev.removeClient_keeps {α : Type} (g : Dev → α) (values : ∀ (d : Dev) cs ds, g { d with ctxs := cs, defines := ds } = g d)
    (d : Dev) (c : Clock) (f : Nat) : g (d.removeClient c f) = g d := by
  rw [Dev.removeClient_eq]
  exact (values _ _ _).trans (foldl_keeps g (fun d _ => values d _ d.defines) _ d)

/-- Of a reset, the queues see what is kept of values and queues alone. -/
theorem QueuesOff.congr {fs : List Nat} {d e y : Dev} (h : QueuesOff fs d e) (val : y.val = e.val) (sqs : y.sqs = e.sqs) (cqs : y.cqs = e.cqs) :
    QueuesOff fs d y := by
  have v : ∀ i s k, y.v i s k = e.v i s k := fun i s k => by unfold Dev.v; rw [val]
  have sq : ∀ q, y.sq q = e.sq q := fun q => by unfold Dev.sq; rw [sqs]
  have cq : ∀ q, y.cq q = e.cq q := fun q => by unfold Dev.cq; rw [cqs]
  refine ⟨fun q small => (v _ _ _).trans (h.sqOwner q small), fun q small => (v _ _ _).trans (h.cqOwner q small),
    fun q small => (v _ _ _).trans (h.sq q small), fun q small => (v _ _ _).trans (h.cq q small), ?_, ?_⟩
  · simpa only [sq] using h.tail
  · simpa only [cq] using h.head

/-- The contexts see what is kept of contexts alone. -/
theorem ContextsGo.congr {n : Nat} {p : Nat → Ctx → Prop} {d x e y : Dev} (h : ContextsGo n p x e) (before : x.ctxs = d.ctxs)
    (after : y.ctxs = e.ctxs) : ContextsGo n p d y := by
  have old : ∀ k, x.ctx k = d.ctx k := fun k => by unfold Dev.ctx; rw [before]
  have new : ∀ k, y.ctx k = e.ctx k := fun k => by unfold Dev.ctx; rw [after]
  have oldIds : x.ctxIds = d.ctxIds := by unfold Dev.ctxIds; rw [before]
  have newIds : y.ctxIds = e.ctxIds := by unfold Dev.ctxIds; rw [after]
  obtain ⟨client, live, gone, others⟩ := h
  simp only [← new, old, oldIds, ← newIds] at client live gone others
  exact ⟨client, live, gone, others⟩

theorem Dev.resetFunction_resets (d : Dev) (c : Clock) (f : Nat) : ResetsOf c [f] d (d.resetFunction c f) := by
  have off := d.disableQueues_off f
  have ctxs := Dev.disableQueues_keeps Dev.ctxs (fun _ _ _ _ => by rfl) d f
  have regs := Dev.disableQueues_keeps Dev.regs (fun _ _ _ _ => by rfl) d f
  have mem := Dev.disableQueues_keeps Dev.mem (fun _ _ _ _ => by rfl) d f
  have cores := Dev.disableQueues_keeps Dev.cores (fun _ _ _ _ => by rfl) d f
  have valves := Dev.disableQueues_keeps Dev.valves (fun _ _ _ _ => by rfl) d f
  unfold Dev.resetFunction
  generalize d.disableQueues f = x at off ctxs regs mem cores valves ⊢
  have go := (x.setReg f {}).removeClient_go c f
  have keeps : ∀ {α : Type} (g : Dev → α), (∀ (d : Dev) cs ds, g { d with ctxs := cs, defines := ds } = g d) →
      g ((x.setReg f {}).removeClient c f) = g (x.setReg f {}) := fun g values => Dev.removeClient_keeps g values _ c f
  have val := keeps Dev.val fun _ _ _ => by rfl
  have sqs := keeps Dev.sqs fun _ _ _ => by rfl
  have cqs := keeps Dev.cqs fun _ _ _ => by rfl
  have regs' := keeps Dev.regs fun _ _ _ => by rfl
  have mem' := keeps Dev.mem fun _ _ _ => by rfl
  have cores' := keeps Dev.cores fun _ _ _ => by rfl
  have valves' := keeps Dev.valves fun _ _ _ => by rfl
  generalize (x.setReg f {}).removeClient c f = y at go val sqs cqs regs' mem' cores' valves' ⊢
  refine ⟨fun g => ?_, off.congr val sqs cqs, go.congr ctxs rfl, mem'.trans mem, cores'.trans cores, valves'.trans valves⟩
  have block : y.reg g = (x.setReg f {}).reg g := by unfold Dev.reg; rw [regs']
  have before : x.reg g = d.reg g := by unfold Dev.reg; rw [regs]
  refine Eq.trans block ?_
  by_cases own : g = f
  · simp [own]
  · simp [own, Dev.reg_setReg_other _ _ _ _ own, before]

theorem Dev.resetFunctions_resets (d : Dev) (c : Clock) : ResetsOf c (List.range 9) d (d.resetFunctions c) := by
  have several : ∀ (fs : List Nat) (d : Dev), ResetsOf c fs d (fs.foldl (fun d f => d.resetFunction c f) d) := fun fs => by
    induction fs with
    | nil => exact .refl c
    | cons f fs ih =>
      intro d
      rw [List.foldl_cons]
      exact (d.resetFunction_resets c f).trans (ih _)
  unfold Dev.resetFunctions
  exact several _ d

/-- What composes is what O37 states. -/
theorem ResetsOf.functionsReset {c : Clock} {fs : List Nat} {d e : Dev} (h : ResetsOf c fs d e) : FunctionsReset c fs d e where
  regs := h.regs
  sq := h.queues.sq
  cq := h.queues.cq
  tail q small enabled := by simpa [enabled] using h.queues.tail q small
  head q small enabled := by simpa [enabled] using h.queues.head q small
  gone := h.contexts.gone
  others := h.contexts.others
  mem := h.mem
  cores := h.cores
  valves := h.valves

/-- The hold of PERST# is none of a reset's parts. -/
theorem FunctionsReset.perst {c : Clock} {fs : List Nat} {d e : Dev} (h : FunctionsReset c fs d e) (high : Bool) :
    FunctionsReset c fs d { e with perstHigh := high } :=
  ⟨h.regs, h.sq, h.cq, h.tail, h.head, h.gone, h.others, h.mem, h.cores, h.valves⟩

theorem exec_functionLevelReset {s : State} (on : s.dev.life = .on) (up : s.dev.hostUp = true) (f : FunctionId) :
    exec (.functionLevelReset f) s =
      .next { s with dev := if f.val = 0 then s.dev.resetFunctions s.clk else s.dev.resetFunction s.clk f.val } := by
  dsimp only [exec, execFunctionLevelReset]
  rw [onDev_on on, up, Bool.not_true, if_neg Bool.false_ne_true]

theorem exec_hotReset {s : State} (on : s.dev.life = .on) (up : s.dev.hostUp = true) :
    exec .hotReset s = .next { s with dev := s.dev.resetFunctions s.clk } := by
  dsimp only [exec, execHotReset]
  rw [onDev_on on, up, if_pos rfl]

theorem exec_pcieLinkLoss {s : State} (on : s.dev.life = .on) (up : s.dev.hostUp = true) :
    exec .pcieLinkLoss s = .next { s with dev := s.dev.resetFunctions s.clk } := by
  dsimp only [exec, execPcieLinkLoss]
  rw [onDev_on on, up, if_pos rfl]

theorem exec_perstFall {s : State} (on : s.dev.life = .on) (up : s.dev.hostUp = true) :
    exec (.perstN false) s = .next { s with dev := { s.dev.resetFunctions s.clk with perstHigh := false } } := by
  dsimp only [exec, execPerstN]
  rw [on, up, decide_eq_true rfl, Bool.and_true, Bool.not_false, Bool.and_true, if_pos rfl]

theorem exec_perstRise (s : State) : exec (.perstN true) s = .next { s with dev := { s.dev with perstHigh := true } } := by
  dsimp only [exec, execPerstN]
  rw [Bool.not_true, Bool.and_false, if_neg Bool.false_ne_true]

end Sys2Proof.Machine
open Sys2Proof.Machine
namespace Sys2Proof

/-- Settles O37: a reset of several functions is a reset of one after another, each of which reaches what its function owns. -/
theorem functionResetsReachWhatTheFunctionsOwn : Obligations.FunctionResetsReachWhatTheFunctionsOwn := by
  unfold Obligations.FunctionResetsReachWhatTheFunctionsOwn
  intro s on up
  have all := (s.dev.resetFunctions_resets s.clk).functionsReset
  refine ⟨fun f virtual => ⟨_, exec_functionLevelReset on up f, rfl, ?_⟩, fun i row => ?_, exec_perstRise s⟩
  · rw [if_neg virtual]
    exact (s.dev.resetFunction_resets s.clk f.val).functionsReset
  · simp only [List.mem_cons, List.not_mem_nil, or_false] at row
    rcases row with rfl | rfl | rfl | rfl
    · exact ⟨_, exec_functionLevelReset on up 0, rfl, by rw [if_pos (show (0 : FunctionId).val = 0 from rfl)]; exact all⟩
    · exact ⟨_, exec_hotReset on up, rfl, all⟩
    · exact ⟨_, exec_pcieLinkLoss on up, rfl, all⟩
    · exact ⟨_, exec_perstFall on up, rfl, all.perst false⟩

end Sys2Proof
end

section
/-! PROOFS. Commands without a unit of their own issue and complete (R230, R318, R376, R377). -/

namespace Sys2Proof.Machine

/-- A command whose envelope asks for no wait takes nothing at its issue (R377). -/
theorem Dev.issuedCmd_of_no_wait {x : QCmd} (d : Dev) (none : envWaitMode x.env = 0) : d.issuedCmd x = d.cmdIssue x.id := by
  unfold Dev.issuedCmd Dev.takeWait
  rw [if_pos (by simp [none])]

theorem exec_nopCommand_at {s : State} {q : QueueId} {x : QCmd} (h : s.CmdAt q.val 0x0B x) :
    exec (.nopCommand q) s = .next { s with dev := (s.dev.issuedCmd x).cmdWork x.id } := by
  dsimp only [exec, execNopCommand]
  rw [onDev_on h.on, Dev.issueCmd_at h]

theorem exec_jobEnd_at {s : State} {q : QueueId} {x : QCmd} (h : s.CmdAt q.val 0x11 x) :
    exec (.jobEnd q) s = .next { s with dev := (s.dev.issuedCmd x).cmdWork x.id } := by
  dsimp only [exec, execJobEnd]
  rw [onDev_on h.on, Dev.issueCmd_at h]

theorem exec_groupDestroy_at {s : State} {q : QueueId} {x : QCmd} (h : s.CmdAt q.val 0x0A x) :
    exec (.groupDestroy q) s = .next { s with dev := (s.dev.issuedCmd x).runGroupDestroy x } := by
  dsimp only [exec, execGroupDestroy]
  rw [onDev_on h.on, Dev.issueCmd_at h]

/-- A group of the command's own context, past its creation, is to be destroyed (R318). -/
theorem Dev.runGroupDestroy_own {d : Dev} {x : QCmd} {g : CollGroup} (group : d.group (fld (envPayload x.env) 5 0) = some g)
    (own : g.ctx = x.ctx) (created : g.state ≠ .pendingCreate) :
    d.runGroupDestroy x = (d.setGroup (fld (envPayload x.env) 5 0) (some { g with state := .pendingDestroy })).cmdWork x.id := by
  simp [Dev.runGroupDestroy, group, Option.filter, own, created]

theorem exec_commandComplete_at {s : State} (work : s.Working) (q : QueueId) (index : BitVec 16) :
    exec (.commandComplete q index) s = .next { s with dev := s.dev.completeCmd s.clk (q.val * 65536 + index.toNat) } := by
  dsimp only [exec, execCommandComplete]
  rw [onDev_on work.on, if_pos work.work]

/-- Command `id` is `x`, its work is done, and only its signal stands between it and its completion (R376). -/
structure Dev.MayComplete (d : Dev) (id : Nat) (x : QCmd) : Prop where
  cmd : d.cmd id = some x
  work : x.work = true
  fresh : x.completed = false
  job : envOp x.env = 0x11 → d.jobEndOk x = true

section
variable {d : Dev} {id : Nat} {x : QCmd} (c : Clock) (h : d.MayComplete id x)
include h

/-- A command with a status, or without a signal, completes with nothing more. -/
theorem Dev.completeCmd_quiet (quiet : x.status.isSome = true ∨ envSigEn x.env = false) : d.completeCmd c id = d.cmdDone id := by
  have job : ¬(envOp x.env = 0x11 ∧ d.jobEndOk x = false) := fun ⟨op, late⟩ => by simp [h.job op] at late
  rcases quiet with status | noSignal
  · simp [Dev.completeCmd, h.cmd, h.work, h.fresh, job, status]
  · simp [Dev.completeCmd, h.cmd, h.work, h.fresh, job, noSignal]

/-- A command that signals a local valve looks at the valve, then at the valve's cluster. -/
theorem Dev.completeCmd_signals (clean : x.status = none) (signals : envSigEn x.env = true) (home : envSigRemote x.env = false) :
    d.completeCmd c id =
      if d.valveUsable x.ctx (envSigValve x.env) = false then d.cmdFault id x.ctx .valveAccessFault 0
      else if d.clusterFaulted (envSigValve x.env / 512) then d.cmdFault id x.ctx .functionFaulted 0
      else ((d.valveTouch x.ctx (envSigValve x.env) false).addSignal (some x.ctx) (envSigValve x.env) (envSigCount x.env)).cmdDone id := by
  have job : ¬(envOp x.env = 0x11 ∧ d.jobEndOk x = false) := fun ⟨op, late⟩ => by simp [h.job op] at late
  simp [Dev.completeCmd, h.cmd, h.work, h.fresh, job, clean, signals, home]

end

end Sys2Proof.Machine
open Sys2Proof.Machine
namespace Sys2Proof

/-- Settles O24: the issuing queue's gate gives the command to its work, and a completion goes the way of its signal. -/
theorem commandsIssueAndComplete : Obligations.CommandsIssueAndComplete := by
  unfold Obligations.CommandsIssueAndComplete
  refine ⟨fun s q x => ⟨exec_nopCommand_at, exec_jobEnd_at, fun h g group own created => ?_, s.dev.issuedCmd_of_no_wait⟩,
    fun s q index x work cmd done fresh job => ?_⟩
  · rw [exec_groupDestroy_at h, Dev.runGroupDestroy_own group own created]
  · have h : s.dev.MayComplete (q.val * 65536 + index.toNat) x := ⟨cmd, done, fresh, job⟩
    rw [exec_commandComplete_at work]
    refine ⟨fun quiet => ?_, fun clean signals home usable sound => ?_, fun clean signals home unusable => ?_⟩
    · rw [Dev.completeCmd_quiet s.clk h quiet]
    · rw [Dev.completeCmd_signals s.clk h clean signals home, usable, sound, if_neg Bool.noConfusion, if_neg Bool.noConfusion]
    · rw [Dev.completeCmd_signals s.clk h clean signals home, if_pos unusable]

end Sys2Proof
end

section
/-! PROOFS. Switch-overs move wells and aborts end (R344, R345, R350). -/

namespace Sys2Proof.Machine

/-- A set bit reads as set. -/
theorem bit_setBit (w n : Nat) : bit (setBit w n) n = true := by
  unfold setBit
  split
  · assumption
  next clear =>
    have even : w / 2 ^ n % 2 = 0 := by simpa [bit, Nat.shiftRight_eq_div_pow] using clear
    have high : (w + 2 ^ n) / 2 ^ n = w / 2 ^ n + 1 := Nat.add_div_right w (by positivity)
    have odd : (w + 2 ^ n) / 2 ^ n % 2 = 1 := by omega
    simpa [bit, Nat.shiftRight_eq_div_pow] using odd

/-! ### Memory filled with zeros -/

/-- Where a span is plain, what is not listed in it reads as zero. -/
theorem memDflt_of_plain {m : Memory} {a n j : Nat} (plain : m.plain a n = true) (inside : inSpan a n j = true) : memDflt m.gen j = 0 := by
  obtain ⟨low, high⟩ : a ≤ j ∧ j < a + n := by simpa [inSpan] using inside
  have lower : memRegion a ≤ memRegion j := Nat.div_le_div_right low
  have upper : memRegion j ≤ memRegion (a + n - 1) := Nat.div_le_div_right (by omega)
  have zero := List.all_eq_true.1 plain (memRegion j - memRegion a) (List.mem_range.2 (by omega))
  rw [Nat.add_sub_cancel' lower] at zero
  unfold memDflt
  rw [of_decide_eq_true zero]

/-- What a span filled with zeros reads as, and everything else. -/
theorem Memory.byte_zero (m : Memory) (a n j : Nat) : (m.zero a n).byte j = if inSpan a n j then 0 else m.byte j := by
  by_cases plain : m.plain a n = true
  · have cleared : (m.zero a n).byte j = SMap.get (memDflt m.gen) (SMap.clear (inSpan a n) m.cells) j := by
      unfold Memory.zero Memory.byte
      rw [if_pos plain]
    rw [cleared, SMap.get_clear]
    split
    next inside => exact memDflt_of_plain plain inside
    · rfl
  · have written : (m.zero a n).byte j = (m.writeBytes a (List.replicate n 0)).byte j := by
      unfold Memory.zero Memory.byte
      rw [if_neg plain]
    rw [written]
    split
    next inside =>
      obtain ⟨low, high⟩ : a ≤ j ∧ j < a + n := by simpa [inSpan] using inside
      obtain ⟨i, rfl⟩ := Nat.exists_eq_add_of_le low
      have small : i < n := by omega
      simpa [small] using Memory.byte_writeBytes m a (List.replicate n 0) i (by simpa using small)
    next outside =>
      have outside : j < a ∨ a + n ≤ j := by
        simp only [inSpan, Bool.and_eq_true, decide_eq_true_eq] at outside
        omega
      exact Memory.byte_writeBytes_other m a _ j (by simpa using outside)

/-- Spans filled with zeros one after another all read as zero. -/
theorem Memory.byte_foldl_zero (base : Nat → Nat) (n : Nat) (l : List Nat) {i j : Nat} (listed : i ∈ l) (inside : inSpan (base i) n j = true)
    (m : Memory) : (l.foldl (fun m i => m.zero (base i) n) m).byte j = 0 := by
  have stays : ∀ (l : List Nat) (m : Memory), m.byte j = 0 → (l.foldl (fun m i => m.zero (base i) n) m).byte j = 0 := fun l => by
    induction l with
    | nil => exact fun _ zero => zero
    | cons x l ih => exact fun m zero => ih _ (by rw [Memory.byte_zero]; split <;> [rfl; exact zero])
  induction l generalizing m with
  | nil => cases listed
  | cons x l ih =>
    rcases List.mem_cons.1 listed with rfl | later
    · exact stays l _ (by rw [Memory.byte_zero, if_pos inside])
    · exact ih later _

/-! ### The two halves of a switch-over -/

theorem Dev.spillIn_none {w : SwitchOver} (d : Dev) (cl : Nat) (none : w.into = none) : d.spillIn cl w = d := by
  unfold Dev.spillIn
  rw [none]

/-- A context that has nothing spilled here comes in to wells of zeros. -/
theorem Dev.spillIn_fresh {d : Dev} {cl k : Nat} {w : SwitchOver} (into : w.into = some k) (fresh : bit (d.ctx k).spilled cl = false) :
    (d.spillIn cl w).mem = (List.range 8).foldl (fun m i => m.zero (wellBase (8 * cl + i)) wellBytes) d.mem := by
  unfold Dev.spillIn
  rw [into]
  dsimp only
  rw [fresh, if_neg Bool.false_ne_true]

/-- A context keeps that its wells of cluster `cl` are spilled, and its slots that were armed there. -/
def Ctx.spilledAt (c : Ctx) (cl : Nat) (armed : List (Nat × Nat × Armed)) : Ctx :=
  { c with spilled := setBit c.spilled cl, keptArmed := c.keptArmed ++ armed }

/-- Beside memory and the free choices a spill concerns the outgoing context alone. -/
theorem Dev.spillOut_some {d : Dev} {cl k : Nat} {w : SwitchOver} (out : w.out = some k) :
    ∃ m, d.spillOut cl w = ({ d.tickFree with mem := m } : Dev).updCtx k fun c => c.spilledAt cl w.armed := by
  unfold Dev.spillOut
  rw [out]
  exact ⟨_, by rfl⟩

/-- The outgoing context has its wells spilled and its armed slots kept. -/
theorem Dev.spillOut_ctx {d : Dev} {cl k : Nat} {w : SwitchOver} (out : w.out = some k) :
    (d.spillOut cl w).ctx k = (d.ctx k).spilledAt cl w.armed := by
  obtain ⟨m, spill⟩ := d.spillOut_some (cl := cl) out
  rw [spill]
  exact Dev.ctx_setCtx_self _ _ _

/-- The device once both halves are done. -/
def Dev.switched (d : Dev) (cl : Nat) (w : SwitchOver) : Dev :=
  ((d.spillOut cl w).spillIn cl w).updCluster cl fun y => { y with switch := none }

theorem Dev.switched_ctx (d : Dev) (cl : Nat) (w : SwitchOver) (k : Nat) :
    (d.switched cl w).ctx k = ((d.spillOut cl w).spillIn cl w).ctx k := by
  unfold Dev.switched Dev.ctx
  rw [Dev.updCluster_ctxs]

theorem Dev.switched_mem (d : Dev) (cl : Nat) (w : SwitchOver) : (d.switched cl w).mem = ((d.spillOut cl w).spillIn cl w).mem := by
  unfold Dev.switched
  rw [Dev.updCluster_mem]

theorem Dev.switched_switch (d : Dev) (cl : Nat) (w : SwitchOver) : ((d.switched cl w).cluster cl).switch = none := by
  unfold Dev.switched Dev.updCluster
  rw [Dev.cluster_setCluster_self]

/-- A switch-over that may complete: its cluster is at one, the clock runs, and its stroke has come. -/
structure State.SwitchAt (s : State) (cl : Nat) (w : SwitchOver) : Prop where
  switch : (s.dev.cluster cl).switch = some w
  runs : s.clk.held = false
  began : w.began ≤ s.clk.stroke
  due : ¬(s.clk.stroke = w.began ∧ s.clk.stage ≠ .work ∧ s.clk.phase = 0)

/-- An armed slot that came too late for its stroke. -/
def Dev.armedLate (d : Dev) (a : Nat × Nat × Armed) : Dev := d.updCore a.1 fun co => co.setArmed a.2.1 (some { a.2.2 with late := true })

section
variable {s : State} {cl : Nat} {w : SwitchOver} (h : s.SwitchAt cl w)
include h

theorem State.SwitchAt.passes :
    ¬(s.clk.held || decide (s.clk.stroke < w.began) || (decide (s.clk.stroke = w.began) && s.clk.stage != .work && decide (s.clk.phase = 0))) = true := by
  have now := h.due
  have begun := h.began
  rw [h.runs]
  simp
  tauto

theorem Dev.switchComplete_out (out : w.into = none) : s.dev.switchComplete s.clk cl = s.dev.switched cl w := by
  unfold Dev.switchComplete
  rw [h.switch]
  dsimp only
  rw [if_neg h.passes, out]
  rfl

theorem Dev.switchComplete_prompt {k : Nat} (into : w.into = some k) (work : s.clk.stage = .work) (same : s.clk.stroke = w.began) :
    s.dev.switchComplete s.clk cl = ((s.dev.switched cl w).startAllArmed k [cl]).goOn s.clk := by
  unfold Dev.switchComplete
  rw [h.switch]
  dsimp only
  rw [if_neg h.passes, into]
  dsimp only
  rw [if_pos (by simp [work, same])]
  rfl

theorem Dev.switchComplete_late {k : Nat} (into : w.into = some k) (late : s.clk.stage ≠ .work ∨ w.began < s.clk.stroke) :
    s.dev.switchComplete s.clk cl =
      ((((s.dev.switched cl w).armedOf k).filter fun a => a.1 / 8 = cl).foldl Dev.armedLate (s.dev.switched cl w)).updCtx k
        fun x => { x with switchLate := if s.clk.stage = .work then none else some s.clk.stroke } := by
  have apart : ¬(s.clk.stage = .work && decide (s.clk.stroke = w.began)) = true := by
    rcases late with stage | begun
    · simp [stage]
    · simp [Nat.ne_of_gt begun]
  unfold Dev.switchComplete
  rw [h.switch]
  dsimp only
  rw [if_neg h.passes, into]
  dsimp only
  rw [if_neg apart]
  rfl

end

/-- Slots marked late concern the cores alone. -/
theorem Dev.foldl_armedLate {α : Type} (g : Dev → α) (cores : ∀ (d : Dev) cs, g { d with cores := cs } = g d) (l : List (Nat × Nat × Armed))
    (d : Dev) : g (l.foldl Dev.armedLate d) = g d :=
  foldl_keeps g (fun d _ => cores d _) l d

theorem exec_switchOverComplete {s : State} (on : s.dev.life = .on) (cl : ClusterId) :
    exec (.switchOverComplete cl) s = .next { s with dev := s.dev.switchComplete s.clk cl.val } := by
  dsimp only [exec, execSwitchOverComplete]
  rw [onDev_on on]

/-! ### Aborts (R350) -/

theorem Dev.ctx_setV (d : Dev) (i j e x k : Nat) : (d.setV i j e x).ctx k = d.ctx k := rfl

/-- Every unit of a context has stopped. -/
def Dev.aborted (d : Dev) (c : Clock) (k : Nat) : Dev :=
  (d.updCtx k fun x => { x with state := .aborted, removeAt := some (nextTurnover c) }).setV 0x3000 3 0 3

theorem exec_abortComplete {s : State} (on : s.dev.life = .on) (k : Fin 4096) :
    exec (.abortComplete k) s = .next { s with dev := if (s.dev.ctx k.val).state = .aborting then s.dev.aborted s.clk k.val else s.dev } := by
  dsimp only [exec, execAbortComplete]
  rw [onDev_on on]
  rfl

theorem Dev.aborted_self (d : Dev) (c : Clock) (k : Nat) :
    (d.aborted c k).ctx k = { d.ctx k with state := .aborted, removeAt := some (nextTurnover c) } := by
  unfold Dev.aborted Dev.updCtx
  rw [Dev.ctx_setV, Dev.ctx_setCtx_self]

theorem Dev.aborted_other (d : Dev) (c : Clock) {k j : Nat} (other : j ≠ k) : (d.aborted c k).ctx j = d.ctx j := by
  unfold Dev.aborted Dev.updCtx
  rw [Dev.ctx_setV, Dev.ctx_setCtx_other _ _ _ _ other]

theorem Dev.aborted_mem (d : Dev) (c : Clock) (k : Nat) : (d.aborted c k).mem = d.mem := by
  unfold Dev.aborted
  rw [Dev.setV_mem, Dev.updCtx_mem]

end Sys2Proof.Machine
open Sys2Proof.Machine
namespace Sys2Proof

/-- Settles O45: a switch-over is its two halves and the start of what was armed; each half says what it leaves. -/
theorem wellsSwitchAndAbortsEnd : Obligations.WellsSwitchAndAbortsEnd := by
  unfold Obligations.WellsSwitchAndAbortsEnd
  refine ⟨fun s cl w on switch runs began due => ?_, fun s k on => ⟨fun aborting => ?_, fun other => ?_⟩⟩
  · have h : s.SwitchAt cl.val w := ⟨switch, runs, began, due⟩
    have named : ((s.dev.spillOut cl.val w).spillIn cl.val w).updCluster cl.val (fun y => { y with switch := none }) =
      s.dev.switched cl.val w := rfl
    dsimp only
    rw [exec_switchOverComplete on cl, named]
    refine ⟨fun out => ?_, fun k into late => ?_, fun k into work same => ?_, s.dev.switched_switch _ _, fun k into fresh i a core inside => ?_,
      fun k out into => ?_⟩
    · rw [Dev.switchComplete_out h out]
    · rw [Dev.switchComplete_late h into late]
      generalize switched : s.dev.switched cl.val w = d
      generalize (d.armedOf k).filter (fun a => a.1 / 8 = cl.val) = l
      have mem := Dev.foldl_armedLate Dev.mem (fun _ _ => by rfl) l d
      have clusters := Dev.foldl_armedLate (fun d => d.cluster cl.val) (fun _ _ => by rfl) l d
      have ctx := Dev.foldl_armedLate (fun d => d.ctx k) (fun _ _ => by rfl) l d
      refine ⟨_, rfl, rfl, mem, ?_, ?_⟩
      · exact (congrArg Cluster.switch clusters).trans (switched ▸ s.dev.switched_switch cl.val w)
      · unfold Dev.updCtx
        rw [Dev.ctx_setCtx_self, ctx]
    · rw [Dev.switchComplete_prompt h into work same]
    · rw [Dev.switched_mem, Dev.spillIn_fresh into fresh]
      exact Memory.byte_foldl_zero (fun i => wellBase (8 * cl.val + i)) wellBytes _ (List.mem_range.2 core)
        (by simpa [inSpan] using inside) _
    · rw [Dev.switched_ctx, Dev.spillIn_none _ _ into, Dev.spillOut_ctx out]
      exact ⟨bit_setBit _ _, rfl⟩
  · rw [exec_abortComplete on k, if_pos aborting]
    exact ⟨_, rfl, s.dev.aborted_self s.clk k.val, Dev.v_setV_self _ _ _ _ _, fun j other => s.dev.aborted_other s.clk other,
      s.dev.aborted_mem s.clk k.val, rfl⟩
  · rw [exec_abortComplete on k, if_neg other]

end Sys2Proof
end

section
/-! PROOFS. JOB_START is examined at the turnover (R375, R378). -/

namespace Sys2Proof.Machine

theorem Dev.sameBut.jobPosts {d e : Dev} (h : d.sameBut e) : e.jobPosts = d.jobPosts := by
  obtain ⟨cs, vs, rfl⟩ := h
  rfl

/-- Where a context's records of statuses reach, they stay. -/
theorem Dev.mem_statuses_escalate {d : Dev} {k : Nat} {r : StatusRec} (mem : r ∈ (d.ctx k).statuses) :
    r ∈ ((d.escalate k).ctx k).statuses := by
  unfold Dev.escalate
  split
  · exact mem
  · have ctxs : ∀ (d : Dev) st, ((d.countStatus st).bump 0x80F0 8 0 1).ctx k = d.ctx k := fun d st => by
      unfold Dev.ctx Dev.bump Dev.bumpKey
      dsimp only
      rw [Dev.countStatus_ctxs]
    rw [ctxs]
    unfold Dev.updCtx
    rw [Dev.ctx_setCtx_self]
    exact List.mem_append_left _ mem

/-- A raised status stands in its context's records. -/
theorem Dev.mem_statuses_raise (d : Dev) (k : Nat) (st : Status) : ⟨st, 0, .none, 0⟩ ∈ ((d.raise k st).ctx k).statuses := by
  have noted : ⟨st, 0, .none, 0⟩ ∈
      (((d.setCtx k { d.ctx k with statuses := (d.ctx k).statuses ++ [⟨st, 0, .none, 0⟩] }).countStatus st).ctx k).statuses := by
    unfold Dev.ctx
    rw [Dev.countStatus_ctxs]
    have self := congrArg Ctx.statuses (Dev.ctx_setCtx_self d k { d.ctx k with statuses := (d.ctx k).statuses ++ [⟨st, 0, .none, 0⟩] })
    exact self ▸ List.mem_append_right _ (List.mem_singleton_self _)
  unfold Dev.raise Dev.raiseAt
  dsimp only
  split
  · exact Dev.mem_statuses_escalate noted
  · exact noted

/-! ### A queue passes its command and forms its next batch (R375) -/

/-- What a queue's turn leaves alone: the contexts, and the entries to be posted, to which it may add. -/
structure Dev.PostsOnly (d e : Dev) : Prop where
  ctxs : e.ctxs = d.ctxs
  posts : ∃ more, e.jobPosts = d.jobPosts ++ more

theorem Dev.formBatch_postsOnly (d : Dev) (q n : Nat) : d.PostsOnly (d.formBatch q n) := by
  unfold Dev.formBatch
  dsimp only
  split
  · exact ⟨rfl, [], (List.append_nil _).symm⟩
  · split
    · exact ⟨rfl, _, rfl⟩
    · split
      · exact ⟨rfl, [], (List.append_nil _).symm⟩
      · exact ⟨rfl, [], (List.append_nil _).symm⟩

/-- A queue whose command `y` is answered goes past it, and its next batch comes into force for stroke `n`. -/
def Dev.passJob (d : Dev) (q n : Nat) (y : QCmd) : Dev :=
  (({ d with jobPosts := d.jobPosts ++ [y] } : Dev).setSq q ((d.sq q).passed (d.sqSize q) 1)).formBatch q n

theorem Dev.passJob_ctxs (d : Dev) (q n : Nat) (y : QCmd) : (d.passJob q n y).ctxs = d.ctxs :=
  (Dev.formBatch_postsOnly _ q n).ctxs

theorem Dev.mem_jobPosts_passJob (d : Dev) (q n : Nat) (y : QCmd) : y ∈ (d.passJob q n y).jobPosts := by
  obtain ⟨more, posts⟩ := (Dev.formBatch_postsOnly (({ d with jobPosts := d.jobPosts ++ [y] } : Dev).setSq q ((d.sq q).passed (d.sqSize q) 1)) q n).posts
  unfold Dev.passJob
  rw [posts]
  exact List.mem_append_left _ (List.mem_append_right _ (List.mem_singleton_self y))

theorem Dev.withdraw_ctxs (d : Dev) (k : Nat) : (d.withdraw k).ctxs = d.ctxs := by
  unfold Dev.withdraw
  exact foldl_keeps Dev.ctxs (fun _ _ => by rfl) _ _

/-! ### The examination (R378) -/

/-- A JOB_START's job is set in its context and counted; where it starts later its batches are withdrawn. -/
def Dev.jobSet (d : Dev) (c : Clock) (x : QCmd) : Dev :=
  let start := fld (envPayload x.env) 255 192
  let d1 := (d.updCtx x.ctx fun y => { y with job := some ⟨start, bit (envPayload x.env) 171⟩ }).bump 0x80D0 6 (d.ctx x.ctx).client 1
  if c.stroke + 1 < start then d1.withdraw x.ctx else d1

theorem Dev.jobSet_ctxs (d : Dev) (c : Clock) (x : QCmd) : (d.jobSet c x).ctxs =
    (d.updCtx x.ctx fun y => { y with job := some ⟨fld (envPayload x.env) 255 192, bit (envPayload x.env) 171⟩ }).ctxs := by
  unfold Dev.jobSet
  dsimp only
  split
  · rw [Dev.withdraw_ctxs]
    rfl
  · rfl

/-- What the examination of `x` finds, one alternative after another. -/
def Dev.jobAnswer (d : Dev) (c : Clock) (q : Nat) (x : QCmd) : Dev :=
  let p := envPayload x.env
  if jobStartBad x.env then (d.passJob q (c.stroke + 1) { x with status := some .commandInvalid }).raise x.ctx .commandInvalid
  else
    match d.jobNote c x.ctx ((d.sq q).arrived.headD (c.stroke, 0)).1 (fld p 255 192) (fld p 191 172) with
    | some st => d.passJob q (c.stroke + 1) { x with note := some st }
    | none => (d.jobSet c x).passJob q (c.stroke + 1) x

theorem exec_jobStart_at {s : State} {q : QueueId} {x : QCmd} (h : s.JobAt q x) :
    exec (.jobStart q) s = .next { s with dev := s.dev.jobAnswer s.clk q.val x } := by
  dsimp only [exec, execJobStart]
  rw [onDev_on h.on, h.stage, h.runs]
  unfold Dev.examineJob
  rw [h.next]
  dsimp only
  rw [h.alone, h.quiet, h.there]
  rfl

end Sys2Proof.Machine
open Sys2Proof.Machine
namespace Sys2Proof

/-- Settles O46: each finding passes the command, which keeps the contexts and posts the answer. -/
theorem jobStartsAreExamined : Obligations.JobStartsAreExamined := by
  unfold Obligations.JobStartsAreExamined
  intro s q x h
  dsimp only
  rw [exec_jobStart_at h]
  unfold Dev.jobAnswer
  dsimp only
  refine ⟨fun bad => ?_, fun good st note => ?_, fun good clear => ?_⟩
  · rw [bad, if_pos rfl]
    refine ⟨_, rfl, ?_, Dev.mem_statuses_raise _ _ _⟩
    have posts := (Dev.raiseAt_same (s.dev.passJob q.val (s.clk.stroke + 1) { x with status := some .commandInvalid }) x.ctx
      .commandInvalid 0 .none 0).jobPosts
    exact posts ▸ Dev.mem_jobPosts_passJob _ _ _ _
  · rw [good, if_neg Bool.false_ne_true, note]
    exact ⟨_, rfl, Dev.mem_jobPosts_passJob _ _ _ _, Dev.passJob_ctxs _ _ _ _⟩
  · rw [good, if_neg Bool.false_ne_true, clear]
    have ctx : ∀ k, (((s.dev.jobSet s.clk x).passJob q.val (s.clk.stroke + 1) x).ctx k) = (s.dev.updCtx x.ctx fun y =>
        { y with job := some ⟨fld (envPayload x.env) 255 192, bit (envPayload x.env) 171⟩ }).ctx k := fun k => by
      unfold Dev.ctx
      rw [Dev.passJob_ctxs, Dev.jobSet_ctxs]
    refine ⟨_, rfl, Dev.mem_jobPosts_passJob _ _ _ _, ?_, fun j other => ?_⟩
    · rw [ctx]
      exact congrArg Ctx.job (Dev.ctx_setCtx_self _ _ _)
    · rw [ctx]
      exact Dev.ctx_setCtx_other _ _ _ _ other

end Sys2Proof
end

section
/-! PROOFS. Regulator windows (R336) and rates under congestion (R310). -/

namespace Sys2Proof.Machine

/-! ### A regulator window -/

/-- A window counts nothing yet, so that only an allowance of zero leaves a partition without room. -/
theorem Dev.regRoom_fresh {d : Dev} (k : Nat) (fresh : d.regSent = []) : d.regRoom k = decide (0 < d.fabricAllowance (k % 8)) := by
  have count : ∀ j, d.regCount j = 0 := fun j => by
    unfold Dev.regCount
    rw [fresh]
    rfl
  have sum : (List.range 8).foldl (fun n p => n + d.regCount (k / 8 * 8 + p)) 0 = 0 := foldl_keeps id (fun n p => by simp [count]) _ 0
  unfold Dev.regRoom
  rw [count k, sum]
  simp

theorem Dev.regKey_partition (d : Dev) (l : Nat) (p : Sent) : d.regKey l p % 8 = phSrcPartition p.header := by
  have small : phSrcPartition p.header < 8 := by unfold phSrcPartition fld; omega
  unfold Dev.regKey
  omega

/-- The one packet that waits is served next where its partition has room. -/
theorem Dev.regNext_single {d : Dev} {x : Nat × Sent} (held : d.regHeld = [x]) :
    d.regNext = if d.regRoom (d.regKey x.1 x.2) then some 0 else none := by
  unfold Dev.regNext
  rw [held]
  by_cases room : d.regRoom (d.regKey x.1 x.2) = true
  · by_cases standing : d.regStanding (d.regKey x.1 x.2) = true
    · by_cases lc : d.sentLc x.2 = true <;> simp [List.range_succ, room, standing, lc]
    · by_cases lc : d.sentLc x.2 = true <;> simp [List.range_succ, room, standing, lc]
  · simp [List.range_succ, room]

/-- With one packet waiting a serving lets it go where its partition has room. -/
theorem Dev.regServe_single {d : Dev} {x : Nat × Sent} (held : d.regHeld = [x]) :
    Dev.regServe 1 d = if d.regRoom (d.regKey x.1 x.2) then ({ d with regHeld := [] } : Dev).regPass x.1 x.2 else d := by
  unfold Dev.regServe
  rw [Dev.regNext_single held, held]
  by_cases room : d.regRoom (d.regKey x.1 x.2) = true
  · simp [room, Dev.regServe]
  · simp [room]

/-- The counts that a window begins with: that of each partition whose packets waited. -/
def Dev.countWaited (d : Dev) (p : Nat) : Dev := d.bump 0x80D0 5 (2 * p + 1) 1

theorem Dev.fabricAllowance_countWaited (d : Dev) (p q : Nat) : (d.countWaited p).fabricAllowance q = d.fabricAllowance q := by
  unfold Dev.fabricAllowance Dev.countWaited
  rw [Dev.v_bump_other]
  unfold ctr
  omega

/-- A window with nothing that waits counts anew. -/
theorem Dev.regulatorWindow_idle {d : Dev} (idle : d.regHeld = []) : d.regulatorWindow = { d with regSent := [] } := by
  unfold Dev.regulatorWindow
  conv_lhs => rw [idle]
  rfl

/-- A window with one packet waiting lets it go where its partition's allowance is not zero. -/
theorem Dev.regulatorWindow_single {d : Dev} {x : Nat × Sent} (held : d.regHeld = [x]) :
    d.regulatorWindow = if 0 < d.fabricAllowance (phSrcPartition x.2.header)
      then ({ d.countWaited (phSrcPartition x.2.header) with regSent := [], regHeld := [] } : Dev).regPass x.1 x.2
      else { d.countWaited (phSrcPartition x.2.header) with regSent := [] } := by
  have window : d.regulatorWindow = Dev.regServe 1 { d.countWaited (phSrcPartition x.2.header) with regSent := [] } := by
    unfold Dev.regulatorWindow
    rw [held]
    rfl
  have allowance := d.fabricAllowance_countWaited (phSrcPartition x.2.header)
  have waits : (d.countWaited (phSrcPartition x.2.header)).regHeld = [x] := held
  rw [window, ← allowance]
  generalize d.countWaited (phSrcPartition x.2.header) = e at waits
  rw [Dev.regServe_single (d := { e with regSent := [] }) waits, Dev.regRoom_fresh _ rfl, Dev.regKey_partition]
  simp only [decide_eq_true_eq]
  rfl

theorem exec_regulatorWindow {s : State} (on : s.dev.life = .on) :
    exec .regulatorWindow s = .next { s with dev := s.dev.regulatorWindow } := by
  dsimp only [exec, execRegulatorWindow]
  rw [onDev_on on]

/-! ### Rates (R310) -/

theorem exec_congestion {s : State} (on : s.dev.life = .on) (g : Geid) :
    exec (.congestion g) s = .next { s with dev := s.dev.echoIn s.clk g.toNat } := by
  dsimp only [exec, execCongestion]
  rw [onDev_on on]

/-- An entry whose rate an echo cuts at the instant `(stroke, phase)`, by the shift `n`. -/
def RateEntry.cut (e : RateEntry) (c : Clock) (n : Nat) : RateEntry :=
  { e with rate := max (e.rate - e.rate / 2 ^ n) 1000, lastCut := some (c.stroke, c.phase) }

section
variable {d : Dev} {c : Clock} {g i : Nat} {e : RateEntry} (found : rateIndex d.rates (d.sendHdie g) g = some i) (entry : d.rates[i]? = some e)
include found entry

theorem Dev.echoIn_cuts (due : ∀ t, e.lastCut = some t → d.v 0x4020 4 0 ≤ nsSince c t) :
    d.echoIn c g = ({ d with rates := d.rates.set i (e.cut c (d.v 0x4020 2 0)) } : Dev).bump 0x80B0 9 0 1 := by
  unfold Dev.echoIn
  dsimp only
  rw [found]
  cases cut : e.lastCut with
  | none => simp [entry, cut, RateEntry.cut]
  | some t => simp [entry, cut, due t cut, RateEntry.cut]

theorem Dev.echoIn_early {t : Nat × Nat} (cut : e.lastCut = some t) (early : nsSince c t < d.v 0x4020 4 0) : d.echoIn c g = d := by
  unfold Dev.echoIn
  dsimp only
  rw [found]
  simp [entry, cut, Nat.not_le.2 early]

end

/-- The first echo enters its destination in an empty table. -/
theorem Dev.echoIn_first {d : Dev} {c : Clock} {g : Nat} (empty : d.rates = []) :
    (d.echoIn c g).rates = [({ hdie := d.sendHdie g, dest := some g, rate := d.v 0x4020 5 0, lastCut := none } : RateEntry).cut c (d.v 0x4020 2 0)] := by
  unfold Dev.echoIn
  rw [empty]
  simp [rateIndex, RateEntry.cut]

theorem exec_ecnRateStep {s : State} (on : s.dev.life = .on) : exec .ecnRateStep s = .next { s with dev := s.dev.rateStep } := by
  dsimp only [exec, execEcnRateStep]
  rw [onDev_on on]

theorem exec_ecnEchoTimeout {s : State} (on : s.dev.life = .on) (g : Geid) : exec (.ecnEchoTimeout g) s = .next { s with
    dev := if s.dev.echoes.contains g.toNat then s.dev.respond s.clk g.toNat 0 .congestion else s.dev } := by
  dsimp only [exec, execEcnEchoTimeout]
  rw [onDev_on on]

end Sys2Proof.Machine
open Sys2Proof.Machine
namespace Sys2Proof

/-- Settles O56: a window's one packet goes by its partition's allowance, and an echo cuts the entry that it finds or makes. -/
theorem windowsAndRatesAreKept : Obligations.WindowsAndRatesAreKept := by
  unfold Obligations.WindowsAndRatesAreKept
  refine ⟨fun s on => ?_, fun s g on => ?_⟩
  · rw [exec_regulatorWindow on]
    refine ⟨fun idle => ?_, fun x held => ⟨fun room => ?_, fun full => ?_⟩, rfl⟩
    · rw [Dev.regulatorWindow_idle idle]
    · rw [Dev.regulatorWindow_single held, if_pos room]
      rfl
    · rw [Dev.regulatorWindow_single held, if_neg (by simp [full])]
      rfl
  · rw [exec_congestion on, exec_ecnRateStep on, exec_ecnEchoTimeout on]
    refine ⟨fun i found e entry => ⟨fun due => ?_, fun t cut early => ?_⟩, fun empty => ⟨_, rfl, Dev.echoIn_first empty⟩,
      ⟨fun none => ?_, fun x held => ?_⟩, fun owed => ?_, fun free => ?_⟩
    · rw [Dev.echoIn_cuts found entry due]
      rfl
    · rw [Dev.echoIn_early found entry cut early]
    · unfold Dev.rateStep
      rw [none]
      rfl
    · unfold Dev.rateStep
      rw [held]
      rfl
    · rw [if_pos (List.contains_iff_mem.2 owed)]
    · rw [if_neg (mt List.contains_iff_mem.1 free)]

end Sys2Proof
end

section
/-! PROOFS. Dictionary requests (R355 to R367): every row makes one request; one that may be served at once is performed on the device
that has received it, and answered on its path. -/

namespace Sys2Proof.Machine

/-- Every dictionary row makes the request that `requestOf` names. -/
theorem exec_request {i : Instr} {p : Path} {h : Nat} {data : List Byte} {ecc : List EccFinding} (row : requestOf i = some (p, h, data, ecc))
    (s : State) : exec i s = onRequest s p fun c d => request c d p h data ecc := by
  unfold requestOf at row
  split at row <;> cases row <;> rfl

/-! ### One request that the control processors serve at once -/

/-- The device serves a request with header `h` on path `p` at once: none waits before it and no refresh slot holds it. -/
structure Dev.Serves (d : Dev) (h : Nat) : Prop where
  turn : d.reqQueue = []
  ready : d.slotOn = false ∨ (rqOp h ≠ 4 ∧ rqOp h ≠ 5) ∨ rqRemote h = true

/-- A request that nothing delays is served in the command that brings it. -/
theorem arrive_served {d : Dev} {h : Nat} (serves : d.Serves h) (c : Clock) (p : Path) (data : List Byte) (ecc : List EccFinding) :
    arrive c d p h data ecc = serve c d p h data ecc := by
  have ready : ∀ q, ({ d with reqQueue := q } : Dev).requestWaits ⟨p, h, data, ecc⟩ = false := fun q => by
    unfold Dev.requestWaits
    rcases serves.ready with slot | ⟨notRead, notWrite⟩ | remote
    · simp [slot]
    · simp [notRead, notWrite]
    · simp [remote]
  have alone : ({ d with reqQueue := [] } : Dev) = d := by rw [← serves.turn]
  unfold arrive
  rw [serves.turn]
  simp only [List.filter_nil, List.length_nil, Nat.le_zero_eq, OfNat.ofNat_ne_zero, decide_false, Bool.and_false, Bool.false_eq_true,
    if_false, List.nil_append, serveQueue, ready, alone]

/-- A request for this device that breaks no rule of the header is performed and answered, once its path keeps no response to it. -/
theorem serve_here {d : Dev} {p : Path} {h : Nat} (normal : d.boot.recovery = false) (header : headerBar p h = none)
    (here : rqRemote h = false) (first : ∀ k ∈ d.kept, ¬(k.src = pathSource p ∧ k.request = h)) (c : Clock) (data : List Byte)
    (ecc : List EccFinding) :
    serve c d p h data ecc =
      let r := performHere c (d.bump 0x80E0 1 (pathCount p) 1) p h data ecc
      (r.clk, r.answered p h) := by
  have none_ : (if keeps p then d.kept.find? fun k => k.src = pathSource p && k.request = h else none) = none := by
    split
    · exact List.find?_eq_none.2 fun k mem => by simpa using first k mem
    · rfl
  have boot : (d.bump 0x80E0 1 (pathCount p) 1).boot.recovery = false := normal
  have kept : (d.bump 0x80E0 1 (pathCount p) 1).kept = d.kept := rfl
  unfold serve
  dsimp only
  rw [kept, none_]
  simp only [here, Bool.and_false, Bool.false_eq_true, if_false, answer, perform, boot, Bool.false_and, header]
  rfl

/-- The same request again is answered by the response that is kept. -/
theorem serve_kept {d : Dev} {p : Path} {h : Nat} {k : Kept} (frame : pathFn p = none)
    (kept : (d.kept.find? fun k => k.src = pathSource p && k.request = h) = some k) (c : Clock) (data : List Byte) (ecc : List EccFinding) :
    serve c d p h data ecc = (c, ((d.bump 0x80E0 1 (pathCount p) 1).bump 0x80E0 4 0 1).deliver c p k.header k.data) := by
  have keeps : keeps p = true := by simp [keeps, frame]
  have same : (d.bump 0x80E0 1 (pathCount p) 1).kept = d.kept := rfl
  unfold serve
  dsimp only
  rw [keeps, if_pos rfl, same, kept]

/-! ### Mailboxes -/

/-- A header in order is not that of a mailbox after reset. -/
theorem header_ne_zero {p : Path} {h : Nat} (header : headerBar p h = none) : h ≠ 0 := by
  rintro rfl
  have op : rqOp 0 = 0 := by decide
  simp [headerBar, op] at header

/-- A register block written twice holds what was written last. -/
theorem Dev.setReg_setReg (d : Dev) (f : Nat) {a : RegBlock} (b : RegBlock) (used : a ≠ {}) : (d.setReg f a).setReg f b = d.setReg f b := by
  unfold Dev.setReg
  dsimp only
  rw [SMap.put_put _ _ _ _ _ used]

/-- A mailbox's doorbell, with the mailbox free and the dictionary primed, brings what the registers hold. -/
theorem doorbell_arrives {d : Dev} {f : Nat} (free : (d.reg f).state ≠ 1) (primed : d.primeOf 0 = 1) (c : Clock) (ecc : List EccFinding) :
    doorbell c d f ecc = arrive c (d.setReg f { d.reg f with state := 1 }) (fnPath f) (d.reg f).reqHdr
      ((List.range (rqLength (d.reg f).reqHdr)).map fun i => SMap.get (fun _ => 0#8) (d.reg f).reqData i) ecc := by
  unfold doorbell
  dsimp only
  rw [if_neg free, if_pos primed]

theorem fnPath_pathFn {p : Path} {f : Nat} (mailbox : pathFn p = some f) : fnPath f = p := by
  cases p with
  | pf => cases mailbox; rfl
  | vf v => cases mailbox; simp [fnPath]
  | mgmt _ => cases mailbox
  | fabric _ _ => cases mailbox

theorem pathFn_fnPath (f : FunctionId) : pathFn (fnPath f.val) = some f.val := by
  unfold fnPath
  split
  next zero => exact congrArg some zero.symm
  next virtual =>
    have small := f.isLt
    exact congrArg some (by simp only [Fin.val_ofNat]; omega)

/-- A mailbox's registers with a request in them. -/
def RegBlock.holding (r : RegBlock) (h : Nat) (data : List Byte) : RegBlock :=
  { r with reqHdr := h, reqData := hostPut r.reqData 0 (data.take 4096) }

/-- The same once the request is being served. -/
def RegBlock.serving (r : RegBlock) (h : Nat) (data : List Byte) : RegBlock :=
  { r.holding h data with state := 1 }

/-- The device that has received a request but not yet counted it. -/
def Dev.taking (d : Dev) (p : Path) (h : Nat) (data : List Byte) : Dev :=
  match pathFn p with
  | some f => d.setReg f ((d.reg f).serving h data)
  | none => d

theorem Dev.received_eq (d : Dev) (p : Path) (h : Nat) (data : List Byte) :
    d.received p h data = (d.taking p h data).bump 0x80E0 1 (pathCount p) 1 := rfl

theorem Dev.taking_mailbox {d : Dev} {p : Path} {f : Nat} (mailbox : pathFn p = some f) (h : Nat) (data : List Byte) :
    d.taking p h data = d.setReg f ((d.reg f).serving h data) := by
  unfold Dev.taking
  rw [mailbox]

theorem Dev.taking_frame {d : Dev} {p : Path} (frame : pathFn p = none) (h : Nat) (data : List Byte) : d.taking p h data = d := by
  unfold Dev.taking
  rw [frame]

/-- Taking a request leaves alone what serving it depends on. -/
theorem Dev.taking_keeps {α : Type} (g : Dev → α) (regs : ∀ (d : Dev) rs, g { d with regs := rs } = g d) (d : Dev) (p : Path) (h : Nat)
    (data : List Byte) : g (d.taking p h data) = g d := by
  unfold Dev.taking
  split
  · exact regs d _
  · rfl

/-- A request through a mailbox is written to its registers, and the doorbell brings it. -/
theorem request_mailbox {d : Dev} {p : Path} {h f : Nat} (mailbox : pathFn p = some f) (up : d.hostUp = true) (free : (d.reg f).state ≠ 1)
    (primed : d.primeOf 0 = 1) (used : h ≠ 0) (c : Clock) (data : List Byte) (ecc : List EccFinding) :
    request c d p h data ecc = arrive c (d.taking p h data) p h (d.heard p h data) ecc := by
  have block : (d.reg f).holding h data ≠ {} := fun same => used (congrArg RegBlock.reqHdr same)
  have written : (d.setReg f ((d.reg f).holding h data)).reg f = (d.reg f).holding h data := Dev.reg_setReg_self _ _ _
  have rings := doorbell_arrives (d := d.setReg f ((d.reg f).holding h data)) (f := f) (by rw [written]; exact free) primed c ecc
  rw [written, fnPath_pathFn mailbox, Dev.setReg_setReg _ _ _ block] at rings
  rw [Dev.taking_mailbox mailbox]
  unfold request
  rw [mailbox]
  dsimp only
  rw [if_pos up]
  refine rings.trans ?_
  unfold Dev.heard
  rw [mailbox]
  rfl

/-- A frame that is for this module brings its request. -/
theorem request_frame {d : Dev} {p : Path} (frame : pathFn p = none) (primed : d.primeOf 0 = 1) (mine : d.takesFrame p = true) (c : Clock)
    (h : Nat) (data : List Byte) (ecc : List EccFinding) : request c d p h data ecc = arrive c d p h data ecc := by
  unfold request
  rw [frame]
  dsimp only
  rw [primed, mine, decide_eq_true rfl, Bool.and_true, if_pos rfl]

/-- A frame that is not for this module brings nothing. -/
theorem request_elsewhere {d : Dev} {p : Path} (frame : pathFn p = none) (other : d.takesFrame p = false) (c : Clock)
    (h : Nat) (data : List Byte) (ecc : List EccFinding) : request c d p h data ecc = (c, d) := by
  unfold request
  rw [frame]
  dsimp only
  rw [other, Bool.and_false, if_neg Bool.false_ne_true]

/-! ### A request that this device performs -/

section
variable {s : State} {p : Path} {h : Nat} {data : List Byte} (req : s.Req p h data)
include req

theorem State.Req.serves : (s.dev.taking p h data).Serves h where
  turn := (Dev.taking_keeps Dev.reqQueue (fun _ _ => rfl) _ _ _ _).trans req.turn
  ready := (or_congr_left (by rw [Dev.taking_keeps Dev.slotOn (fun _ _ => rfl)])).mpr (req.served.imp_right .inl)

/-- The request is served in the command that brings it. -/
theorem State.Req.served_at_once (c : Clock) (heard : List Byte) (ecc : List EccFinding) :
    arrive c (s.dev.taking p h data) p h heard ecc =
      let r := performHere c (s.dev.received p h data) p h heard ecc
      (r.clk, r.answered p h) := by
  rw [arrive_served req.serves, serve_here ?_ req.header req.here ?_]
  · rfl
  · rw [Dev.taking_keeps (fun d => d.boot.recovery) (fun _ _ => rfl)]
    exact req.normal
  · rw [Dev.taking_keeps Dev.kept (fun _ _ => rfl)]
    exact req.first

theorem State.Req.request_eq (ecc : List EccFinding) :
    request s.clk s.dev p h data ecc =
      let r := performHere s.clk (s.dev.received p h data) p h (s.dev.heard p h data) ecc
      (r.clk, r.answered p h) := by
  cases mailbox : pathFn p with
  | some f =>
    obtain ⟨up, free⟩ := req.mailbox f mailbox
    rw [request_mailbox mailbox up free req.primed (header_ne_zero req.header), req.served_at_once]
  | none =>
    have heard : s.dev.heard p h data = data := by
      unfold Dev.heard
      rw [mailbox]
    have served := req.served_at_once s.clk data ecc
    rw [Dev.taking_frame mailbox] at served
    rw [request_frame mailbox req.primed req.frame, served, heard]

end

/-- Every dictionary row is performed on the device that has received it, and answered on its path. -/
theorem exec_performed {s : State} {i : Instr} {p : Path} {h : Nat} {data : List Byte} {ecc : List EccFinding}
    (row : requestOf i = some (p, h, data, ecc)) (req : s.Req p h data) :
    exec i s = .next { s with
      clk := (performHere s.clk (s.dev.received p h data) p h (s.dev.heard p h data) ecc).clk
      dev := (performHere s.clk (s.dev.received p h data) p h (s.dev.heard p h data) ecc).answered p h } := by
  rw [exec_request row, onRequest_on req.on, req.request_eq]

/-- A request that finds 64 waiting is discarded and counted (R366). -/
theorem arrive_full {d : Dev} {p : Path} (frame : pathFn p = none) (full : 64 ≤ (d.reqQueue.filter fun x => keeps x.src).length) (c : Clock)
    (h : Nat) (data : List Byte) (ecc : List EccFinding) : arrive c d p h data ecc = (c, d.bump 0x80E0 3 0 1) := by
  have keeps : keeps p = true := by simp [keeps, frame]
  unfold arrive
  rw [keeps, decide_eq_true full, Bool.and_true, if_pos rfl]

end Sys2Proof.Machine
open Sys2Proof.Machine
namespace Sys2Proof

/-- Settles O30: a request that nothing delays is served at once; one that is kept, not for this module or too many goes its own way. -/
theorem requestsArePerformedAndAnswered : Obligations.RequestsArePerformedAndAnswered := by
  unfold Obligations.RequestsArePerformedAndAnswered
  refine ⟨fun s i p h data ecc row req => exec_performed row req, fun s i p h data ecc k row on primed frame mine turn slot kept => ?_,
    fun s i p h data ecc row on primed frame => ⟨fun other => ?_, fun mine full => ?_⟩⟩
  · rw [exec_request row, onRequest_on on, request_frame frame primed mine, arrive_served ⟨turn, slot.imp_right .inl⟩,
      serve_kept frame kept]
  · rw [exec_request row, onRequest_on on, request_elsewhere frame other]
  · rw [exec_request row, onRequest_on on, request_frame frame primed mine, arrive_full frame full]

end Sys2Proof
end

section
/-! PROOFS. READ, WRITE and DESCRIBE of dictionary entries, and their refusals (R355 to R360). -/

namespace Sys2Proof.Machine

section
variable {s : State} {p : Path} {h : Nat} {data : List Byte} (req : s.Req p h data) (c : Clock) (ecc : List EccFinding)
include req

/-- A module in service that is not in recovery performs what the path has the right to. -/
theorem State.Req.unbarred :
    ((s.dev.received p h data).boot.recovery || decide ((s.dev.received p h data).life = .fatal)) = false := by
  have on : (s.dev.received p h data).life = .on := by
    rw [Dev.received_eq, Dev.bump_life, Dev.taking_keeps Dev.life (fun _ _ => rfl)]
    exact req.on
  have normal : (s.dev.received p h data).boot.recovery = false := by
    rw [Dev.received_eq, Dev.bump_boot, Dev.taking_keeps Dev.boot (fun _ _ => rfl)]
    exact req.normal
  rw [on, normal]
  rfl

theorem performHere_none (op : rqOp h ≤ 3) (none : findEntry (rqIndex h) (rqSub h) = none) :
    performHere c (s.dev.received p h data) p h (s.dev.heard p h data) ecc =
      refuse c (s.dev.received p h data) (if indexDefined (rqIndex h) then .noSubindex else .noEntry) := by
  have notRead : rqOp h ≠ 4 := by omega
  have notWrite : rqOp h ≠ 5 := by omega
  simp [performHere, req.unbarred, req.may, none, notRead, notWrite]

section
variable {e : Entry} (entry : findEntry (rqIndex h) (rqSub h) = some e)
include entry

theorem performHere_read (op : rqOp h = 1) : performHere c (s.dev.received p h data) p h (s.dev.heard p h data) ecc =
    performRead c (s.dev.received p h data) e h := by
  have may := op ▸ req.may
  simp [performHere, req.unbarred, may, entry, op]

theorem performHere_write (op : rqOp h = 2) : performHere c (s.dev.received p h data) p h (s.dev.heard p h data) ecc =
    performWrite c (s.dev.received p h data) p e h (s.dev.heard p h data) := by
  have may := op ▸ req.may
  simp [performHere, req.unbarred, may, entry, op]

theorem performHere_describe (op : rqOp h = 3) : performHere c (s.dev.received p h data) p h (s.dev.heard p h data) ecc =
    performDescribe c (s.dev.received p h data) e h := by
  have may := op ▸ req.may
  simp [performHere, req.unbarred, may, entry, op]

end

end

/-! ### READ and DESCRIBE (R357, R360) -/

/-- The device after a READ: the timing counters that it names may have grown. -/
def Dev.stirred (d : Dev) (c : Clock) (e : Entry) (h : Nat) : Dev :=
  (e.elemsAt (rqOffset h) (rqLength h)).foldl (fun d el => d.stirElem c (rqIndex h) (rqSub h) el) d

theorem Dev.stirred_of_no_timing {d : Dev} {e : Entry} {h : Nat} (c : Clock)
    (none : ∀ el ∈ e.elemsAt (rqOffset h) (rqLength h), timingCounter (rqIndex h) (rqSub h) el = false) : d.stirred c e h = d :=
  foldl_keeps_of_mem id _ (fun d el mem => by simp [Dev.stirElem, none el mem]) d

theorem performRead_inRange {d : Dev} {e : Entry} {h : Nat} (c : Clock) (readable : e.acc ≠ 3)
    (range : e.rangeOk false (rqOffset h) (rqLength h) = true) :
    performRead c d e h = ⟨c, d.stirred c e h, none, (d.stirred c e h).readBytes c e (rqIndex h) (rqSub h) (rqOffset h) (rqLength h)⟩ := by
  unfold performRead
  rw [if_neg readable, range, Bool.not_true, if_neg Bool.false_ne_true]
  rfl

theorem performRead_outOfRange {d : Dev} {e : Entry} {h : Nat} (c : Clock) (readable : e.acc ≠ 3)
    (range : e.rangeOk false (rqOffset h) (rqLength h) = false) : performRead c d e h = refuse c d .rangeInvalid := by
  unfold performRead
  rw [if_neg readable, range, Bool.not_false, if_pos rfl]

theorem performRead_writeOnly {d : Dev} {e : Entry} {h : Nat} (c : Clock) (access : e.acc = 3) :
    performRead c d e h = refuse c d .notReadable := by
  unfold performRead
  rw [if_pos access]

/-! ### WRITE (R355, R356) -/

theorem performWrite_readOnly {d : Dev} {e : Entry} {h : Nat} {bs : List Byte} (c : Clock) (p : Path) (access : e.acc = 0) :
    performWrite c d p e h bs = refuse c d .notWritable := by
  simp [performWrite, access]

theorem performWrite_outOfRange {d : Dev} {e : Entry} {h : Nat} {bs : List Byte} (c : Clock) (p : Path) (access : e.acc ≠ 0)
    (range : e.rangeOk true (rqOffset h) (rqLength h) = false) : performWrite c d p e h bs = refuse c d .rangeInvalid := by
  simp [performWrite, access, range]

/-- A WRITE of `bs` to elements of an entry passes every check but those of the entry's access. -/
structure WritePasses (d : Dev) (e : Entry) (h : Nat) (bs : List Byte) : Prop where
  range : e.rangeOk true (rqOffset h) (rqLength h) = true
  whole : (bs.take (rqLength h)).length = rqLength h
  primed : d.unprimedEntry (rqIndex h) (rqSub h) (e.elements (rqOffset h) (bs.take (rqLength h))) = false
  sound : d.faultedEntry (rqIndex h) (rqSub h) (e.elements (rqOffset h) (bs.take (rqLength h))) = false
  value : elementBar e (rqIndex h) (rqSub h) (e.elements (rqOffset h) (bs.take (rqLength h))) = none

section
variable {d : Dev} {e : Entry} {h : Nat} {bs : List Byte} (passes : WritePasses d e h bs) (c : Clock) (p : Path)
include passes

theorem performWrite_now (access : e.acc = 1) : performWrite c d p e h bs =
    ⟨c, d.writeNow (rqIndex h) (rqSub h) (e.elements (rqOffset h) (bs.take (rqLength h))), none, []⟩ := by
  simp [performWrite, access, passes.range, passes.whole, passes.primed, passes.sound, passes.value]

theorem performWrite_pending (access : e.acc = 2) : performWrite c d p e h bs =
    ⟨c, d.writePending c (rqIndex h) (rqSub h) (e.elements (rqOffset h) (bs.take (rqLength h))), none, []⟩ := by
  simp [performWrite, access, passes.range, passes.whole, passes.primed, passes.sound, passes.value]

theorem performWrite_acts (access : e.acc = 3) (allowed : actionBar c d (rqIndex h) (rqSub h) (bs.take (rqLength h)) = none) :
    performWrite c d p e h bs = ⟨(act c d p (rqIndex h) (rqSub h) (bs.take (rqLength h))).1,
      (act c d p (rqIndex h) (rqSub h) (bs.take (rqLength h))).2, none, []⟩ := by
  simp [performWrite, access, passes.range, passes.whole, passes.primed, passes.sound, passes.value, allowed]

end

end Sys2Proof.Machine
open Sys2Proof.Machine
namespace Sys2Proof

/-- Settles O31: the operation and the entry's access decide, and a refusal leaves the device as it received the request. -/
theorem readsAnswerAndRefusalsChangeNothing : Obligations.ReadsAnswerAndRefusalsChangeNothing := by
  unfold Obligations.ReadsAnswerAndRefusalsChangeNothing
  refine ⟨fun s i p h data ecc e row req entry => ⟨fun op readable range => ?_, Dev.stirred_of_no_timing s.clk, fun op zero eight => ?_⟩,
    fun s i p h data ecc row req op => ⟨fun none undefined => ?_, fun none defined => ?_, fun e entry =>
      ⟨fun op access => ?_, fun op access => ?_, fun op access range => ?_, fun op access range => ?_⟩⟩⟩
  · rw [exec_performed row req, performHere_read req _ _ entry op, performRead_inRange _ readable range]
    rfl
  · rw [exec_performed row req, performHere_describe req _ _ entry op]
    unfold performDescribe
    rw [zero, eight]
    rfl
  · rw [exec_performed row req, performHere_none req _ _ op none, undefined]
    rfl
  · rw [exec_performed row req, performHere_none req _ _ op none, defined]
    rfl
  · rw [exec_performed row req, performHere_read req _ _ entry op, performRead_writeOnly _ access]
    rfl
  · rw [exec_performed row req, performHere_write req _ _ entry op, performWrite_readOnly _ _ access]
    rfl
  · rw [exec_performed row req, performHere_read req _ _ entry op, performRead_outOfRange _ access range]
    rfl
  · rw [exec_performed row req, performHere_write req _ _ entry op, performWrite_outOfRange _ _ access range]
    rfl

/-- Settles O32: a WRITE that passes every check does what its entry's access says. -/
theorem writesTakeEffectAsTheirAccessSays : Obligations.WritesTakeEffectAsTheirAccessSays := by
  unfold Obligations.WritesTakeEffectAsTheirAccessSays
  intro s i p h data ecc e row req op entry
  dsimp only
  intro range whole primed sound value
  have passes : WritePasses (s.dev.received p h data) e h (s.dev.heard p h data) := ⟨range, whole, primed, sound, value⟩
  rw [exec_performed row req, performHere_write req _ _ entry op]
  refine ⟨fun access => ?_, fun access => ?_, fun access allowed => ?_⟩
  · rw [performWrite_now passes _ _ access]
  · rw [performWrite_pending passes _ _ access]
  · rw [performWrite_acts passes _ _ access allowed]

end Sys2Proof
end

section
/-! PROOFS. Mailboxes, forwarded requests and the doorbells of queues (R363, R367, R374, R379). -/

namespace Sys2Proof.Machine

/-! ### Mailbox doorbells (R363, R387) -/

theorem exec_mbxDoorbell {s : State} (on : s.dev.life = .on) (up : s.dev.hostUp = true) (f : FunctionId) :
    exec (.mbxDoorbell f 1#32) s = .next { s with clk := (doorbell s.clk s.dev f.val []).1, dev := (doorbell s.clk s.dev f.val []).2 } := by
  dsimp only [exec, execMbxDoorbell]
  rw [onBoth_on on, up, decide_eq_true rfl, Bool.and_true, if_pos rfl]

/-- A value other than 1 submits nothing. -/
theorem exec_mbxDoorbell_other {s : State} (on : s.dev.life = .on) (f : FunctionId) {v : BitVec 32} (other : v ≠ 1#32) :
    exec (.mbxDoorbell f v) s = .next s := by
  dsimp only [exec, execMbxDoorbell]
  rw [onBoth_on on, decide_eq_false other, Bool.and_false, if_neg Bool.false_ne_true]

/-- A doorbell of a mailbox that is busy is ignored. -/
theorem doorbell_busy {d : Dev} {f : Nat} (busy : (d.reg f).state = 1) (c : Clock) (ecc : List EccFinding) :
    doorbell c d f ecc = (c, d.bump 0x80E0 5 0 1) := by
  unfold doorbell
  dsimp only
  rw [if_pos busy]

/-- Before the dictionary's priming a doorbell's request waits in its mailbox. -/
theorem doorbell_waits {d : Dev} {f : Nat} (free : (d.reg f).state ≠ 1) (priming : d.primeOf 0 ≠ 1) (c : Clock) (ecc : List EccFinding) :
    doorbell c d f ecc = (c, d.setReg f { d.reg f with state := 1, waiting := some ((d.reg f).reqHdr,
      (List.range (rqLength (d.reg f).reqHdr)).map fun i => SMap.get (fun _ => 0#8) (d.reg f).reqData i) }) := by
  unfold doorbell
  dsimp only
  rw [if_neg free, if_neg priming]

/-- The doorbell of a mailbox brings the request that its registers hold: it is taken as if it had been written just then. -/
theorem doorbell_request {s : State} {f : FunctionId} (req : s.Req (fnPath f.val) (s.dev.reg f.val).reqHdr []) :
    doorbell s.clk s.dev f.val [] =
      let r := performHere s.clk (s.dev.received (fnPath f.val) (s.dev.reg f.val).reqHdr []) (fnPath f.val) (s.dev.reg f.val).reqHdr
        (s.dev.heard (fnPath f.val) (s.dev.reg f.val).reqHdr []) []
      (r.clk, r.answered (fnPath f.val) (s.dev.reg f.val).reqHdr) := by
  have mailbox := pathFn_fnPath f
  have heard : s.dev.heard (fnPath f.val) (s.dev.reg f.val).reqHdr [] =
      (List.range (rqLength (s.dev.reg f.val).reqHdr)).map fun i => SMap.get (fun _ => 0#8) (s.dev.reg f.val).reqData i := by
    unfold Dev.heard
    rw [mailbox]
    rfl
  rw [doorbell_arrives (req.mailbox _ mailbox).2 req.primed, ← req.served_at_once, heard, Dev.taking_mailbox mailbox]
  rfl

/-! ### Requests for other devices (R367) -/

/-- A request of the physical function for another device is forwarded in the command that brings it. -/
theorem serve_forwards {d : Dev} {h : Nat} (normal : d.boot.recovery = false) (header : headerBar .pf h = none) (remote : rqRemote h = true)
    (c : Clock) (data : List Byte) (ecc : List EccFinding) :
    serve c d .pf h data ecc = (c, (d.bump 0x80E0 1 (pathCount .pf) 1).forwardRequest c h data) := by
  have keeps : keeps .pf = false := rfl
  have boot : (d.bump 0x80E0 1 (pathCount .pf) 1).boot.recovery = false := normal
  unfold serve
  dsimp only
  rw [keeps, if_neg Bool.false_ne_true, boot, header, remote]
  rfl

theorem request_forwards {d : Dev} {h : Nat} (normal : d.boot.recovery = false) (primed : d.primeOf 0 = 1) (up : d.hostUp = true)
    (free : (d.reg 0).state ≠ 1) (header : headerBar .pf h = none) (remote : rqRemote h = true) (turn : d.reqQueue = []) (c : Clock)
    (data : List Byte) :
    request c d .pf h data [] = (c, (d.received .pf h data).forwardRequest c h (d.heard .pf h data)) := by
  have serves : (d.taking .pf h data).Serves h := ⟨turn, .inr (.inr remote)⟩
  rw [request_mailbox rfl up free primed (header_ne_zero header), arrive_served serves, serve_forwards (d := d.taking .pf h data) normal header remote]
  rfl

/-- A response in place in a mailbox whose interrupts are off is in its registers alone. -/
theorem Dev.mbxDone_silent {d : Dev} {f : Nat} (silent : (d.reg f).irq % 2 = 0) (hdr : Nat) (data : List Byte) :
    d.mbxDone f hdr data = d.setReg f { d.reg f with
      state := 2, rspHdr := hdr, rspData := hostPut (d.reg f).rspData 0 data, waiting := none, remote := none } := by
  unfold Dev.mbxDone
  dsimp only
  rw [if_neg (by omega)]

theorem exec_mbxRemoteResend {s : State} {f : FunctionId} {r : RemoteReq} (on : s.dev.life = .on)
    (remote : (s.dev.reg f.val).remote = some r) :
    exec (.mbxRemoteResend f) s = .next { s with
      dev := if r.sendings < 40
        then (s.dev.setReg f.val { s.dev.reg f.val with remote := some { r with sendings := r.sendings + 1 } }).sendRemote s.clk r
        else s.dev.mbxDone f.val (rspHeader r.header s.dev.geid (statusCode (some .timeout)) 0) [] } := by
  dsimp only [exec, execMbxRemoteResend]
  rw [onDev_on on, remote]

theorem exec_mgmtResponse {s : State} {src : Geid} {h : BitVec 128} {r : RemoteReq} (on : s.dev.life = .on)
    (remote : (s.dev.reg 0).remote = some r) (target : r.target = src.toNat) (same : h.toNat / 2 ^ 80 = r.header / 2 ^ 80) (data : List Byte) :
    exec (.mgmtResponse src h data) s = .next { s with dev := s.dev.mbxDone 0 h.toNat (data.take (rqLength h.toNat)) } := by
  dsimp only [exec, execMgmtResponse]
  rw [onDev_on on, remote]
  dsimp only
  rw [decide_eq_true target, decide_eq_true same, Bool.and_true, if_pos rfl]

/-! ### Doorbells of queues (R374, R379) -/

theorem exec_sqTail {s : State} (on : s.dev.life = .on) (up : s.dev.hostUp = true) (f : FunctionId) (q : QueueId) (v : BitVec 32) :
    exec (.sqTail f q v) s = .next { s with dev := s.dev.tailDoorbell f.val q.val v.toNat } := by
  dsimp only [exec, execSqTail]
  rw [onDev_on on, if_pos up]

theorem exec_cqHead {s : State} (on : s.dev.life = .on) (up : s.dev.hostUp = true) (f : FunctionId) (q : QueueId) (v : BitVec 32) :
    exec (.cqHead f q v) s = .next { s with dev := s.dev.headDoorbell f.val q.val v.toNat } := by
  dsimp only [exec, execCqHead]
  rw [onDev_on on, if_pos up]

section
variable {d : Dev} {f q v : Nat}

theorem Dev.tailDoorbell_inRange (range : v < d.sqSize q) (own : d.sqFunction q = f) :
    d.tailDoorbell f q v = d.setSq q { d.sq q with tail := v } := by
  simp [Dev.tailDoorbell, range, own]

theorem Dev.tailDoorbell_ignored (bad : d.sqSize q ≤ v ∨ d.sqFunction q ≠ f) : d.tailDoorbell f q v = d.bump 0x80E0 5 0 1 := by
  simp [Dev.tailDoorbell, bad]

theorem Dev.headDoorbell_inRange (range : v < d.cqSize q) (own : d.cqFunction q = f) :
    d.headDoorbell f q v = (d.setCq q { d.cq q with head := v }).flushHeldCq.cqVectors (d.setCq q { d.cq q with head := v }) := by
  simp [Dev.headDoorbell, range, own]

theorem Dev.headDoorbell_ignored (bad : d.cqSize q ≤ v ∨ d.cqFunction q ≠ f) : d.headDoorbell f q v = d.bump 0x80E0 5 0 1 := by
  simp [Dev.headDoorbell, bad]

end

/-- A vector concerns the register blocks and what is sent alone. -/
theorem Dev.sendMsix_keeps {α : Type} (g : Dev → α) (regs : ∀ (d : Dev) rs out, g { d with regs := rs, out := out } = g d) (d : Dev)
    (fn v : Nat) : g (d.sendMsix fn v) = g d := by
  unfold Dev.sendMsix
  dsimp only
  split
  · rfl
  · split
    · exact regs d _ d.out
    · exact regs d d.regs _

/-- So do the vectors of the queues whose tails have moved. -/
theorem Dev.cqVectors_keeps {α : Type} (g : Dev → α) (regs : ∀ (d : Dev) rs out, g { d with regs := rs, out := out } = g d)
    (d before : Dev) : g (d.cqVectors before) = g d :=
  foldl_keeps g (fun d _ => d.sendMsix_keeps g regs _ _) _ d

/-- With no completion held back there is none to post. -/
theorem Dev.flushHeldCq_none {d : Dev} (none : d.heldCq = []) : d.flushHeldCq = d := by
  unfold Dev.flushHeldCq
  rw [none, List.foldl_nil, ← none]

end Sys2Proof.Machine
open Sys2Proof.Machine
namespace Sys2Proof

/-- Settles O35: a doorbell's request is served, forwarded, kept or counted; a doorbell of a queue moves it or is counted. -/
theorem mailboxesAndDoorbellsWork : Obligations.MailboxesAndDoorbellsWork := by
  unfold Obligations.MailboxesAndDoorbellsWork
  refine ⟨fun s f on up => ?_, fun s on => ?_, fun s f q v on up => ?_⟩
  · rw [exec_mbxDoorbell on up]
    refine ⟨fun busy => ?_, fun free priming => ?_, fun h header req => ?_, fun v other => exec_mbxDoorbell_other on f other⟩
    · rw [doorbell_busy busy]
    · rw [doorbell_waits free priming]
      exact ⟨_, rfl, by rw [List.length_map, List.length_range]⟩
    · subst header
      rw [doorbell_request req]
  · refine ⟨fun h data normal primed up free header remote turn => ?_, fun f r remote => ⟨fun few => ?_, fun many silent => ?_⟩,
      fun r src h data remote target same silent => ?_⟩
    · rw [exec_request (i := .write .pf h data) rfl, onRequest_on on, request_forwards normal primed up free header remote turn]
    · rw [exec_mbxRemoteResend on remote, if_pos few]
    · rw [exec_mbxRemoteResend on remote, if_neg (by omega), Dev.mbxDone_silent silent]
      rfl
    · rw [exec_mgmtResponse on remote target same, Dev.mbxDone_silent silent]
  · rw [exec_sqTail on up, exec_cqHead on up]
    refine ⟨fun range own => ?_, fun bad => ?_, fun range own => ?_, fun bad => ?_⟩
    · rw [Dev.tailDoorbell_inRange range own]
    · rw [Dev.tailDoorbell_ignored bad]
    · rw [Dev.headDoorbell_inRange range own]
      refine ⟨rfl, fun none => ⟨_, rfl, ?_⟩⟩
      have idle : (s.dev.setCq q.val { s.dev.cq q.val with head := v.toNat }).heldCq = [] := none
      dsimp only
      rw [Dev.flushHeldCq_none idle]
      exact ⟨Dev.cqVectors_keeps Dev.cqs (fun _ _ _ => rfl) _ _, (Dev.cqVectors_keeps Dev.heldCq (fun _ _ _ => rfl) _ _).trans none,
        Dev.cqVectors_keeps Dev.mem (fun _ _ _ => rfl) _ _, Dev.cqVectors_keeps Dev.hostMem (fun _ _ _ => rfl) _ _⟩
    · rw [Dev.headDoorbell_ignored bad]

end Sys2Proof
end

section
/-! PROOFS. The stroke counter (R21, R22, R24, R35, R460). Most of what changes a clock changes its synchronisation and its pending changes
alone; `Clock.counter` is what such a command leaves, and the invariant speaks of nothing else. -/

namespace Sys2Proof.Machine

/-! ### The counter proper -/

/-- The counter without its synchronisation, its upstream and the changes that wait for a turnover. -/
def Clock.counter (c : Clock) : Clock :=
  { c with sync := .priming, rootGeid := none, upstream := none, upGeid := 0, hops := 0, offset := 0, pendingPeriod := none, stepDue := none }

theorem Clock.inv_counter (c : Clock) : c.counter.Inv ↔ c.Inv := Iff.rfl

theorem Clock.Inv.of_counter {a b : Clock} (inv : a.Inv) (same : b.counter = a.counter) : b.Inv := by
  rw [← Clock.inv_counter, same]
  exact inv

theorem Clock.Inv.reset : ({} : Clock).Inv := ⟨by decide, by decide, by decide, by decide⟩

/-! ### What leaves the counter alone (R24, R26, R28, R29) -/

theorem counter_settleUpstream (c : Clock) (d : Dev) : (settleUpstream c d).1.counter = c.counter := by
  unfold settleUpstream
  split
  · rfl
  · split
    · rfl
    · dsimp only
      split
      · rfl
      · split <;> rfl

theorem counter_unlock (c : Clock) (d : Dev) : (unlock c d).1.counter = c.counter := rfl

theorem counter_adopt (c : Clock) (d : Dev) (p : PortId) : (adopt c d p).counter = c.counter := by
  unfold adopt
  split <;> rfl

theorem counter_applyRole (c : Clock) (d : Dev) (wasRoot : Bool) : (applyRole c d wasRoot).1.counter = c.counter := by
  unfold applyRole
  split
  · rfl
  · split
    · rfl
    · split
      · rfl
      · split
        · rfl
        · dsimp only
          split <;> exact counter_adopt c d _

theorem counter_holdoverEnds (c : Clock) (d : Dev) : (holdoverEnds c d).1.counter = c.counter := by
  unfold holdoverEnds
  split <;> rfl

/-! ### Dictionary requests leave the counter alone (R355 to R367) -/

theorem counter_act (c : Clock) (d : Dev) (p : Path) (idx sub : Nat) (bs : List Byte) : (act c d p idx sub bs).1.counter = c.counter := by
  unfold act
  dsimp only
  split
  · rfl
  · split
    case h_7 => exact counter_settleUpstream c _
    all_goals rfl

theorem counter_performWrite (c : Clock) (d : Dev) (p : Path) (e : Entry) (h : Nat) (data : List Byte) :
    (performWrite c d p e h data).clk.counter = c.counter := by
  unfold performWrite
  dsimp only
  split
  · rfl
  · split
    · rfl
    · split
      · rfl
      · split
        · rfl
        · split
          · rfl
          · split
            case h_3 => exact counter_act c d p _ _ _
            all_goals rfl

theorem clk_performRead (c : Clock) (d : Dev) (e : Entry) (h : Nat) : (performRead c d e h).clk = c := by
  unfold performRead
  split
  · rfl
  · split <;> rfl

theorem clk_performDescribe (c : Clock) (d : Dev) (e : Entry) (h : Nat) : (performDescribe c d e h).clk = c := by
  unfold performDescribe
  split <;> rfl

theorem clk_performMemRead (c : Clock) (d : Dev) (h : Nat) (ecc : List EccFinding) : (performMemRead c d h ecc).clk = c := by
  unfold performMemRead
  dsimp only
  split <;> rfl

theorem clk_performMemWrite (c : Clock) (d : Dev) (h : Nat) (data : List Byte) : (performMemWrite c d h data).clk = c := by
  unfold performMemWrite
  dsimp only
  split
  · rfl
  · split <;> rfl

theorem counter_performHere (c : Clock) (d : Dev) (p : Path) (h : Nat) (data : List Byte) (ecc : List EccFinding) :
    (performHere c d p h data ecc).clk.counter = c.counter := by
  unfold performHere
  dsimp only
  split
  · rfl
  · split
    · rfl
    · split
      · rw [clk_performMemRead]
      · split
        · rw [clk_performMemWrite]
        · split
          · rfl
          · split
            · rw [clk_performRead]
            · exact counter_performWrite c d p _ h data
            · rw [clk_performDescribe]

theorem counter_answer (c : Clock) (d : Dev) (p : Path) (h : Nat) (data : List Byte) (ecc : List EccFinding) :
    (answer c d p h data ecc).1.counter = c.counter := by
  show (perform c d p h data ecc).clk.counter = c.counter
  unfold perform
  split
  · rfl
  · split
    · rfl
    · rfl
    · exact counter_performHere c d p h data ecc

theorem counter_serve (c : Clock) (d : Dev) (p : Path) (h : Nat) (data : List Byte) (ecc : List EccFinding) :
    (serve c d p h data ecc).1.counter = c.counter := by
  unfold serve
  dsimp only
  split
  · rfl
  · split
    · rfl
    · exact counter_answer c _ p h data ecc

theorem counter_serveQueue (n : Nat) (c : Clock) (d : Dev) : (serveQueue n c d).1.counter = c.counter := by
  induction n generalizing c d with
  | zero => rfl
  | succ n ih =>
    unfold serveQueue
    split
    · rfl
    · split
      · rfl
      · exact (ih _ _).trans (counter_serve c _ _ _ _ _)

theorem counter_arrive (c : Clock) (d : Dev) (p : Path) (h : Nat) (data : List Byte) (ecc : List EccFinding) :
    (arrive c d p h data ecc).1.counter = c.counter := by
  unfold arrive
  split
  · rfl
  · exact counter_serveQueue _ c _

theorem counter_doorbell (c : Clock) (d : Dev) (f : Nat) (ecc : List EccFinding) : (doorbell c d f ecc).1.counter = c.counter := by
  unfold doorbell
  dsimp only
  split
  · rfl
  · split
    · exact counter_arrive c _ _ _ _ _
    · rfl

theorem counter_runWaiting (c : Clock) (d : Dev) (f : Nat) : (runWaiting c d f).1.counter = c.counter := by
  unfold runWaiting
  split
  · exact counter_arrive c _ _ _ _ _
  · rfl

theorem counter_request (c : Clock) (d : Dev) (p : Path) (h : Nat) (data : List Byte) (ecc : List EccFinding) :
    (request c d p h data ecc).1.counter = c.counter := by
  unfold request
  split
  · split
    · exact counter_doorbell c _ _ _
    · rfl
  · split
    · exact counter_arrive c _ _ _ _ _
    · rfl

/-! ### Host accesses leave the counter alone (R363, R371) -/

theorem counter_regWord (c : Clock) (d : Dev) (f off v : Nat) : (regWord c d f off v).1.counter = c.counter := by
  unfold regWord
  dsimp only
  split
  · rfl
  · split
    · split
      · exact counter_doorbell c d f []
      · rfl
    · repeat' split
      all_goals rfl

theorem counter_regWrite (c : Clock) (d : Dev) (f off : Nat) (bs : List Byte) : (regWrite c d f off bs).1.counter = c.counter := by
  unfold regWrite
  split
  · rfl
  · split
    · exact foldl_keeps (fun x : Clock × Dev => x.1.counter) (fun x i => counter_regWord x.1 x.2 _ _ _) _ (c, d)
    · split <;> rfl

theorem counter_hostBar2Write (c : Clock) (d : Dev) (f off : Nat) (bs : List Byte) :
    (hostBar2Write c d f off bs).1.counter = c.counter := by
  unfold hostBar2Write
  dsimp only
  split
  · rfl
  · split
    · exact counter_regWrite c d _ _ bs
    · rfl

theorem counter_hostAccess (c : Clock) (d : Dev) (i : Instr) : (hostAccess c d i).1.counter = c.counter := by
  unfold hostAccess
  split
  · rfl
  · exact counter_hostBar2Write c d _ _ _
  · rfl

theorem counter_slotOver (c : Clock) (d : Dev) : (slotOver c d).1.counter = c.counter :=
  (foldl_keeps (fun x : Clock × Dev => x.1.counter) (fun x i => counter_hostAccess x.1 x.2 i) _ _).trans
    (counter_serveQueue _ c _)

theorem counter_endPriming (c : Clock) (d : Dev) (fn : PrimeFn) (ok : Bool) : (endPriming c d fn ok).1.counter = c.counter := by
  unfold endPriming
  split
  · rfl
  · dsimp only
    split
    · unfold primedNow
      split
      · exact foldl_keeps (fun x : Clock × Dev => x.1.counter) (fun x f => counter_runWaiting x.1 x.2 f) _ _
      all_goals rfl
    · split
      · rfl
      · exact counter_settleUpstream c _
      · rfl

end Sys2Proof.Machine
end

section
/-! PROOFS. The invariant of the stroke counter is kept by every step (R21, R22, R24, R35, R460), and the events of a turnover follow one
another. What each way of moving the counter does to the invariant is one lemma; the rows then go by their frames. -/

namespace Sys2Proof.Machine

/-! ### Rows that leave the clock alone -/

theorem onDev_clk (s : State) (f : Clock → Dev → Dev) : ∃ t, onDev s f = .next t ∧ t.clk = s.clk :=
  ⟨_, rfl, by split <;> rfl⟩

theorem onTap_clk (s : State) (f : Dev → Dev) : ∃ t, onTap s f = .next t ∧ t.clk = s.clk :=
  ⟨_, rfl, by split <;> rfl⟩

theorem exec_clk {c : Instr} (still : movesClock c = false) (s : State) : ∃ t, exec c s = .next t ∧ t.clk = s.clk := by
  cases c
  all_goals dsimp only [exec]
  case idcode | samplePreload | extest | extestPulse | extestTrain | clamp | highz | bypass => exact onTap_clk _ _
  case perstN | trstN => exact ⟨_, rfl, rfl⟩
  case powerOn => exact ⟨_, rfl, by split <;> rfl⟩
  case flashOpDone => exact ⟨_, rfl, by split <;> rfl⟩
  case deadline | skewGuardEnd | verdicts | unitHangCheck | turnoverChanges | refreshBurstEnd | valveCountReset | strokeStart
    | counterHoldRelease | inStrokeRefreshSlot | refreshSlotEnd | timingMarker | holdoverTimeout | frame | linkOffer | portDown
    | mbxDoorbell | hostBar2Write | primingComplete | moduleResetN | fullReset | resetRelease | undervoltageLockout | overvoltageLockout
    | thermalSample => cases still
  case read | write | describe | memRead | memWrite | periodChange | routeLoad | epochChange | domainDrain | portRetrain | define | remove
    | abort | resume | seqDropsClear | logClear | lsClear | deviceReset | flashRead | flashProgram | flashErase | svnAdvance | keyRevoke
    | bootPreference | attestNonce => cases still
  all_goals exact onDev_clk _ _

/-! ### The ways in which a counter moves -/

theorem Clock.held_of_running {c : Clock} (runs : c.running = true) : c.held = false := by
  unfold Clock.running at runs
  simpa using (Bool.and_eq_true_iff.1 runs).2

/-- A counter outside its work window and not held keeps the invariant if it is not past its next event. -/
theorem Clock.Inv.turning {c : Clock} (due : c.phase ≤ c.nextEvent) (free : c.held = false) (turning : c.stage ≠ .work)
    (slewed : c.slewed ≤ 20) : c.Inv :=
  ⟨due, fun held => by simp [free] at held, fun h => by simp [free, turning] at h, slewed⟩

/-- A counter in its work window keeps the invariant if it is not past its deadline, 1,500 ns before its period's end. -/
theorem Clock.Inv.working {c : Clock} (work : c.stage = .work) (due : c.phase ≤ c.turnStart) (free : c.held = false)
    (turn : c.turnStart = c.period - 1500) (slewed : c.slewed ≤ 20) : c.Inv :=
  ⟨by rw [Clock.nextEvent, work]; exact due, fun held => by simp [free] at held, fun _ => turn, slewed⟩

/-- A held counter keeps the invariant at phase 0 with its turnover done. -/
theorem Clock.Inv.standing {c : Clock} (stage : c.stage = .valvesReset) (phase : c.phase = 0)
    (turn : c.turnStart = c.period - 1500) (slewed : c.slewed ≤ 20) : c.Inv :=
  ⟨by rw [phase]; exact Nat.zero_le _, fun _ => ⟨stage, phase⟩, fun _ => turn, slewed⟩

theorem Clock.Inv.slewed_le {c : Clock} (inv : c.Inv) : c.slewed ≤ 20 := inv.2.2.2

theorem Clock.Inv.turnStart_of_work {c : Clock} (inv : c.Inv) (work : c.stage = .work) : c.turnStart = c.period - 1500 :=
  inv.2.2.1 (.inl work)

theorem Clock.Inv.held_false_of_work {c : Clock} (inv : c.Inv) (work : c.stage = .work) : c.held = false := by
  by_contra held
  have standing := (inv.2.1 (by simpa using held)).1
  simp [work] at standing

/-- The phases of a turnover's events rise (R35). -/
def Stage.follows : Stage → Stage
  | .work => .deadline
  | .deadline => .closed
  | .closed => .judged
  | .judged => .hangChecked
  | .hangChecked => .changed
  | .changed => .burstEnded
  | .burstEnded => .valvesReset
  | .valvesReset => .valvesReset

theorem Clock.nextEvent_enter (c : Clock) : c.nextEvent ≤ (c.enter c.stage.follows).nextEvent := by
  cases stage : c.stage <;> simp [Clock.nextEvent, Clock.enter, stage, Stage.follows]

/-- A turnover event leads to the stage behind it. -/
theorem Clock.Inv.enter {c : Clock} (inv : c.Inv) (free : c.held = false) : (c.enter c.stage.follows).Inv :=
  .turning c.nextEvent_enter free (show c.stage.follows ≠ .work by cases c.stage <;> decide) inv.slewed_le

/-- The invariant does not ask how a counter keeps time, nor which refresh slots it has had. -/
theorem Clock.Inv.relabel {c : Clock} (inv : c.Inv) (sync : Sync) (slots : Nat) : ({ c with sync := sync, slotsDone := slots } : Clock).Inv := inv

theorem Clock.Inv.tick {c : Clock} (inv : c.Inv) (slotOn : Bool) : (c.tick slotOn).Inv := by
  unfold Clock.tick
  split
  next counts =>
    simp only [Bool.and_eq_true, decide_eq_true_eq] at counts
    obtain ⟨⟨runs, due⟩, -⟩ := counts
    have free := Clock.held_of_running runs
    exact ⟨Nat.le_of_lt due, fun held => by simp [free] at held, inv.2.2.1, inv.slewed_le⟩
  · exact inv

theorem slew_natAbs (slewed : Nat) (lead : Int) (atMost : slewed ≤ 20) :
    slewed + (max (-((20 - slewed : Nat) : Int)) (min ((20 - slewed : Nat) : Int) lead)).natAbs ≤ 20 := by
  omega

theorem Clock.Inv.slew {c : Clock} (inv : c.Inv) (lead : Int) : (slew c lead).Inv := by
  unfold Machine.slew
  dsimp only
  split
  · exact inv
  next within =>
    simp only [Bool.or_eq_true, bne_iff_ne, ne_eq, decide_eq_true_eq, not_or, Decidable.not_not, not_lt, not_le] at within
    obtain ⟨⟨work, low⟩, high⟩ := within
    exact .working work (by dsimp only; omega) (inv.held_false_of_work work) (inv.turnStart_of_work work)
      (slew_natAbs c.slewed lead inv.slewed_le)

/-- A counter that takes its upstream's stands in its work window, or is held. -/
theorem Clock.Inv.takeCounter {c : Clock} (slewed : c.slewed ≤ 20) (m : Marker) : (takeCounter c m).Inv := by
  unfold Machine.takeCounter
  split
  · exact .working rfl (by dsimp only; omega) rfl rfl slewed
  · exact .standing rfl rfl rfl slewed

theorem Clock.Inv.release {c : Clock} (inv : c.Inv) (held : c.held = true) : c.release.Inv := by
  obtain ⟨-, phase⟩ := inv.2.1 held
  have turn := inv.2.2.1 (.inr held)
  have due : ∀ n, c.phase ≤ n := fun n => by rw [phase]; exact Nat.zero_le n
  unfold Clock.release
  dsimp only
  split
  · split
    · exact .working rfl (due _) rfl rfl inv.slewed_le
    · exact .working rfl (due _) rfl turn inv.slewed_le
  · exact .working rfl (due _) rfl turn inv.slewed_le

theorem Clock.Inv.adopt {c : Clock} (inv : c.Inv) (d : Dev) (p : PortId) : (adopt c d p).Inv := inv.of_counter (counter_adopt c d p)

theorem Clock.Inv.markerIn {c : Clock} (inv : c.Inv) (d : Dev) (port : PortId) (w : Nat) : (markerIn c d port w).1.Inv := by
  unfold Machine.markerIn
  split
  · exact inv
  · dsimp only
    split
    · exact inv
    · split
      · exact inv
      next best _ =>
        have kept := fun e => inv.adopt e best
        split
        · refine .relabel (.takeCounter ?_ _) _ _
          exact (kept _).slewed_le
        · split
          · exact inv
          · exact kept _
        · split
          · exact inv
          · split
            · exact inv
            · split
              · exact kept _
              · exact inv
        · split
          · exact kept _
          · split
            · exact kept _
            · split
              · exact kept _
              · exact (kept _).slew _

/-- The module as the deadline finds it: a refresh slot that still runs has ended. -/
def slotsEnded (c : Clock) (d : Dev) : Clock × Dev := if d.slotOn then slotOver c d else (c, d)

theorem counter_slotsEnded (c : Clock) (d : Dev) : (slotsEnded c d).1.counter = c.counter := by
  unfold slotsEnded
  split
  · exact counter_slotOver c d
  · rfl

theorem slotsEnded_none {d : Dev} (off : d.slotOn = false) (c : Clock) : slotsEnded c d = (c, d) := by
  rw [slotsEnded, off, if_neg Bool.false_ne_true]

/-! ### The rows of the turnover (R35) -/

theorem exec_deadline (s : State) : exec .deadline s = turnoverEvent s .work fun c d =>
    ((slotsEnded c d).1.enter .deadline, (slotsEnded c d).2.deadline (slotsEnded c d).1) := rfl

theorem exec_skewGuardEnd (s : State) : exec .skewGuardEnd s = turnoverEvent s .deadline fun c d => (c.enter .closed, d.clearUnits) := rfl

theorem exec_verdicts (s : State) : exec .verdicts s = turnoverEvent s .closed fun c d => (c.enter .judged, d.verdicts c) := rfl

theorem exec_unitHangCheck (hung : List UnitName) (s : State) : exec (.unitHangCheck hung) s = turnoverEvent s .judged fun c d =>
    (c.enter .hangChecked, (dedupe hung).foldl (fun d u => d.hungUnit c u) d) := rfl

theorem exec_turnoverChanges (s : State) : exec .turnoverChanges s = turnoverEvent s .hangChecked fun c d =>
    ((turnoverChanges (c.enter .changed) (d.lsSend c)).1, (turnoverChanges (c.enter .changed) (d.lsSend c)).2.attestAt c.stroke) := rfl

theorem exec_refreshBurstEnd (s : State) : exec .refreshBurstEnd s = turnoverEvent s .changed fun c d =>
    (c.enter .burstEnded, d.burstEnd) := rfl

theorem exec_valveCountReset (s : State) : exec .valveCountReset s = turnoverEvent s .burstEnded fun c d =>
    (c.enter .valvesReset, { d with valves := [] }) := rfl

theorem exec_strokeStart (s : State) : exec .strokeStart s = turnoverEvent s .valvesReset fun c d =>
    if (endTurnover c d).1.held then endTurnover c d
    else ((endTurnover c d).1, ((endTurnover c d).2.powerStroke (endTurnover c d).1.stroke).startStroke (endTurnover c d).1) := rfl

/-! ### The turnover's changes and its end (R22, R29, R31, R32, R460) -/

theorem counter_applyPeriod (c : Clock) : ∃ p, (applyPeriod c).counter = { c.counter with period := p } := by
  unfold applyPeriod
  split
  · split
    · exact ⟨_, rfl⟩
    · split <;> exact ⟨_, rfl⟩
  · exact ⟨_, rfl⟩

theorem counter_applyRefresh (c : Clock) (d : Dev) (written : Bool) :
    ∃ e, (applyRefresh c d written).1.counter = { c.counter with extended := e } := by
  have asked : ∃ e, (if written then { c with extended := d.v 0x2000 0xB 0 = 1 } else c) = { c with extended := e } := by
    split <;> exact ⟨_, rfl⟩
  obtain ⟨e, set⟩ := asked
  unfold applyRefresh
  rw [set]
  dsimp only
  split
  · exact ⟨_, rfl⟩
  · split <;> exact ⟨_, rfl⟩

theorem counter_applyWritten (c : Clock) (d : Dev) : (applyWritten c d).1.counter = c.counter :=
  (counter_applyRole _ _ _).trans (counter_settleUpstream c _)

/-- Of the counter the turnover's changes touch its period and its refresh mode alone. -/
theorem counter_turnoverChanges (c : Clock) (d : Dev) :
    ∃ p e, (turnoverChanges c d).1.counter = { c.counter with period := p, extended := e } := by
  obtain ⟨p, period⟩ := counter_applyPeriod (applyWritten c d).1
  obtain ⟨e, refresh⟩ := counter_applyRefresh (applyPeriod (applyWritten c d).1) (applyWritten c d).2 (d.pendsEntry 0x2000 0xB)
  refine ⟨p, e, ?_⟩
  unfold turnoverChanges
  dsimp only
  rw [refresh, period, counter_applyWritten]

theorem Clock.Inv.turnoverChanges {c : Clock} (inv : c.Inv) (free : c.held = false) (turning : c.stage ≠ .work) (d : Dev) :
    (turnoverChanges c d).1.Inv := by
  obtain ⟨p, e, same⟩ := counter_turnoverChanges c d
  have changed : ({ c with period := p, extended := e } : Clock).Inv := .turning inv.1 free turning inv.slewed_le
  exact changed.of_counter same

theorem Clock.Inv.endTurnover (c : Clock) (free : c.held = false) (d : Dev) : (endTurnover c d).1.Inv := by
  unfold Machine.endTurnover
  dsimp only
  split
  · exact .relabel (.takeCounter (Nat.zero_le 20) _) _ _
  · split <;> exact .working rfl (Nat.zero_le _) free rfl (Nat.zero_le 20)

/-! ### The rows -/

section
variable {s : State} (inv : s.clk.Inv)
include inv

theorem onBoth_inv {f : Clock → Dev → Clock × Dev} (keeps : (f s.clk s.dev).1.Inv) : ∃ t, onBoth s f = .next t ∧ t.clk.Inv :=
  ⟨_, rfl, by split <;> assumption⟩

theorem onRequest_inv {p : Path} {f : Clock → Dev → Clock × Dev} (keeps : (f s.clk s.dev).1.Inv) :
    ∃ t, onRequest s p f = .next t ∧ t.clk.Inv :=
  ⟨_, rfl, by split <;> assumption⟩

/-- A row that leaves the counter alone keeps the invariant. -/
theorem onBoth_counter_inv {f : Clock → Dev → Clock × Dev} (same : (f s.clk s.dev).1.counter = s.clk.counter) :
    ∃ t, onBoth s f = .next t ∧ t.clk.Inv := onBoth_inv inv (inv.of_counter same)

theorem turnoverEvent_inv {st : Stage} {f : Clock → Dev → Clock × Dev}
    (keeps : s.clk.held = false → s.clk.stage = st → (f s.clk s.dev).1.Inv) : ∃ t, turnoverEvent s st f = .next t ∧ t.clk.Inv := by
  refine onBoth_inv inv ?_
  split
  next due =>
    obtain ⟨runs, stage⟩ := Bool.and_eq_true_iff.1 due
    exact keeps (Clock.held_of_running runs) (of_decide_eq_true stage)
  · exact inv

/-- A turnover event that enters the stage behind its own. -/
theorem turnoverEvent_enter_inv {st : Stage} {f : Clock → Dev → Clock × Dev} (enters : ∀ c d, (f c d).1 = c.enter st.follows) :
    ∃ t, turnoverEvent s st f = .next t ∧ t.clk.Inv :=
  turnoverEvent_inv inv fun free stage => by rw [enters, ← stage]; exact inv.enter free

theorem Clock.Inv.slotOver (d : Dev) : (slotOver s.clk d).1.Inv := inv.of_counter (counter_slotOver _ d)

theorem exec_deadline_inv : ∃ t, exec .deadline s = .next t ∧ t.clk.Inv := by
  rw [exec_deadline]
  refine turnoverEvent_inv inv fun free stage => ?_
  have same := counter_slotsEnded s.clk s.dev
  have work : (slotsEnded s.clk s.dev).1.stage = .work := (congrArg Clock.stage same).trans stage
  have enters := (inv.of_counter same).enter ((congrArg Clock.held same).trans free)
  rwa [work] at enters

theorem execRefreshSlotEnd_inv : ∃ t, execRefreshSlotEnd s = .next t ∧ t.clk.Inv := by
  refine onBoth_inv inv ?_
  split
  next ends =>
    obtain ⟨-, runs⟩ := Bool.and_eq_true_iff.1 ends
    have free := Clock.held_of_running runs
    have due := inv.1
    refine Clock.Inv.of_counter (a := { s.clk with phase := _ }) ?_ (counter_slotOver _ _)
    refine ⟨?_, fun held => by simp [free] at held, inv.2.2.1, inv.slewed_le⟩
    show min _ (max s.clk.phase (s.clk.nextEvent - 1)) ≤ s.clk.nextEvent
    omega
  · exact inv

theorem execInStrokeRefreshSlot_inv : ∃ t, execInStrokeRefreshSlot s = .next t ∧ t.clk.Inv := by
  refine onBoth_inv inv ?_
  split
  next begins =>
    simp only [Bool.and_eq_true] at begins
    obtain ⟨⟨runs, left⟩, -⟩ := begins
    simp only [Clock.slotLeft, Bool.and_eq_true, decide_eq_true_eq] at left
    obtain ⟨⟨work, -⟩, before⟩ := left
    have due := inv.1
    rw [Clock.nextEvent, work] at due
    refine .working work ?_ (inv.held_false_of_work work) (inv.turnStart_of_work work) inv.slewed_le
    show max s.clk.phase (s.clk.slotPhase (s.clk.slotsDone + 1)) ≤ s.clk.turnStart
    simp only at due
    omega
  · exact inv

theorem exec_strokeStart_inv : ∃ t, exec .strokeStart s = .next t ∧ t.clk.Inv := by
  rw [exec_strokeStart]
  refine turnoverEvent_inv inv fun free _ => ?_
  split <;> exact Clock.Inv.endTurnover s.clk free s.dev

theorem exec_turnoverChanges_inv : ∃ t, exec .turnoverChanges s = .next t ∧ t.clk.Inv := by
  rw [exec_turnoverChanges]
  refine turnoverEvent_inv inv fun free stage => ?_
  have follows : s.clk.stage.follows = .changed := by rw [stage]; rfl
  have enters := inv.enter free
  rw [follows] at enters
  dsimp only
  exact enters.turnoverChanges free (nofun : Stage.changed ≠ .work) _

theorem execCounterHoldRelease_inv : ∃ t, execCounterHoldRelease s = .next t ∧ t.clk.Inv := by
  refine onBoth_inv inv ?_
  split
  next held => exact inv.release held
  · exact inv

/-- A loss of power leaves the clock as after reset. -/
theorem State.powerLost_inv : s.powerLost.clk.Inv := by
  unfold State.powerLost
  split
  · exact inv
  · exact .reset

theorem execModuleResetN_inv (level : Bool) : ∃ t, execModuleResetN level s = .next t ∧ t.clk.Inv := by
  cases level with
  | true => exact ⟨_, rfl, inv⟩
  | false =>
    refine ⟨_, rfl, ?_⟩
    dsimp only
    split
    · exact inv
    · exact .reset

theorem execFullReset_inv : ∃ t, execFullReset s = .next t ∧ t.clk.Inv := by
  unfold execFullReset
  dsimp only
  split
  · exact ⟨_, rfl, .reset⟩
  · split
    · exact ⟨_, rfl, .reset⟩
    · exact ⟨_, rfl, inv⟩

theorem execResetRelease_inv (straps : Fin 8) : ∃ t, execResetRelease straps s = .next t ∧ t.clk.Inv := by
  unfold execResetRelease
  split
  · split
    · exact ⟨_, rfl, .reset⟩
    · exact ⟨_, rfl, inv⟩
  · exact ⟨_, rfl, inv⟩

theorem execThermalSample_inv (x : Thermal) : ∃ t, execThermalSample x s = .next t ∧ t.clk.Inv := by
  unfold execThermalSample
  split
  · exact ⟨_, rfl, State.powerLost_inv inv⟩
  · obtain ⟨t, run, same⟩ := onDev_clk s fun c d => d.takeTemps c x
    exact ⟨t, run, same ▸ inv⟩

theorem execHostBar2Write_inv (f : FunctionId) (off : BitVec 41) (data : List Byte) :
    ∃ t, execHostBar2Write f off data s = .next t ∧ t.clk.Inv := by
  refine onBoth_counter_inv inv ?_
  split
  · rfl
  · split
    · rfl
    · exact counter_hostBar2Write _ _ _ _ _

theorem execMbxDoorbell_inv (f : FunctionId) (v : BitVec 32) : ∃ t, execMbxDoorbell f v s = .next t ∧ t.clk.Inv := by
  refine onBoth_counter_inv inv ?_
  split
  · exact counter_doorbell _ _ _ _
  · rfl

/-- Every row keeps the invariant. -/
theorem exec_inv (c : Instr) : ∃ t, exec c s = .next t ∧ t.clk.Inv := by
  cases moves : movesClock c with
  | false =>
    obtain ⟨t, run, same⟩ := exec_clk moves s
    exact ⟨t, run, same ▸ inv⟩
  | true =>
    cases row : requestOf c with
    | some r =>
      obtain ⟨p, h, data, ecc⟩ := r
      rw [exec_request row]
      exact onRequest_inv inv (inv.of_counter (counter_request _ _ p h data ecc))
    | none =>
      cases c
      case deadline => exact exec_deadline_inv inv
      case skewGuardEnd => rw [exec_skewGuardEnd]; exact turnoverEvent_enter_inv inv fun _ _ => rfl
      case verdicts => rw [exec_verdicts]; exact turnoverEvent_enter_inv inv fun _ _ => rfl
      case unitHangCheck hung => rw [exec_unitHangCheck]; exact turnoverEvent_enter_inv inv fun _ _ => rfl
      case turnoverChanges => exact exec_turnoverChanges_inv inv
      case refreshBurstEnd => rw [exec_refreshBurstEnd]; exact turnoverEvent_enter_inv inv fun _ _ => rfl
      case valveCountReset => rw [exec_valveCountReset]; exact turnoverEvent_enter_inv inv fun _ _ => rfl
      case strokeStart => exact exec_strokeStart_inv inv
      all_goals dsimp only [exec]
      case counterHoldRelease => exact execCounterHoldRelease_inv inv
      case inStrokeRefreshSlot => exact execInStrokeRefreshSlot_inv inv
      case refreshSlotEnd => exact execRefreshSlotEnd_inv inv
      case timingMarker port m => exact onBoth_inv inv (inv.markerIn _ _ _)
      case holdoverTimeout => exact onBoth_counter_inv inv (counter_holdoverEnds _ _)
      case frame | linkOffer | portDown => exact onBoth_counter_inv inv (counter_settleUpstream _ _)
      case mbxDoorbell f v => exact execMbxDoorbell_inv inv f v
      case hostBar2Write f off data => exact execHostBar2Write_inv inv f off data
      case primingComplete => exact onBoth_counter_inv inv (counter_endPriming _ _ _ _)
      case moduleResetN level => exact execModuleResetN_inv inv level
      case fullReset => exact execFullReset_inv inv
      case resetRelease straps => exact execResetRelease_inv inv straps
      case undervoltageLockout | overvoltageLockout => exact ⟨_, rfl, State.powerLost_inv inv⟩
      case thermalSample x => exact execThermalSample_inv inv x
      case read | write | describe | memRead | memWrite | periodChange | routeLoad | epochChange | domainDrain | portRetrain | define
        | remove | abort | resume | seqDropsClear | logClear | lsClear | deviceReset | flashRead | flashProgram | flashErase | svnAdvance
        | keyRevoke | bootPreference | attestNonce => cases row
      all_goals cases moves

theorem State.idle_inv : s.idle.clk.Inv := by
  unfold State.idle
  split
  · exact inv.tick _
  · exact inv

end

/-! ### One step -/

theorem step_front {s : State} {c : Instr} {rest : List Instr} (pending : s.pending = c :: rest) :
    step s = exec c { s with pending := rest } := by
  rw [step, pending]

theorem step_idle {s : State} (pending : s.pending = []) : step s = .next s.idle := by
  rw [step, pending]

theorem Memory.byte_reset (a : Nat) : Memory.reset.byte a = 0#8 := by
  have zeros : ∀ r, ([0, 0, 0] : List Nat).getD r 0 = 0
    | 0 | 1 | 2 | _ + 3 => rfl
  show memDflt [0, 0, 0] a = 0#8
  rw [memDflt, zeros]
  rfl

/-! ### The events of a turnover (R35) -/

theorem Clock.nextEvent_counter {a b : Clock} (same : b.counter = a.counter) : b.nextEvent = a.nextEvent :=
  (congrArg Clock.nextEvent same : b.counter.nextEvent = a.counter.nextEvent)

theorem exec_turnoverEvent_else {hung : List UnitName} {x : Instr × Stage} (row : x ∈ turnoverEvents hung) {s : State}
    (other : s.clk.running = false ∨ s.clk.stage ≠ x.2) : exec x.1 s = .next s := by
  unfold turnoverEvents at row
  simp only [List.mem_cons, List.not_mem_nil, or_false] at row
  rcases row with rfl | rfl | rfl | rfl | rfl | rfl | rfl | rfl
  · rw [exec_deadline, turnoverEvent_else other]
  · rw [exec_skewGuardEnd, turnoverEvent_else other]
  · rw [exec_verdicts, turnoverEvent_else other]
  · rw [exec_unitHangCheck, turnoverEvent_else other]
  · rw [exec_turnoverChanges, turnoverEvent_else other]
  · rw [exec_refreshBurstEnd, turnoverEvent_else other]
  · rw [exec_valveCountReset, turnoverEvent_else other]
  · rw [exec_strokeStart, turnoverEvent_else other]

/-- A turnover that takes no upstream's counter ends at phase 0 of the next stroke (R22). -/
theorem endTurnover_next {c : Clock} (free : ∀ n ∈ c.stepDue, c.stroke < n) (d : Dev) : (endTurnover c d).1 =
    { c with stroke := c.stroke + 1, phase := 0, stage := .work, turnStart := c.period - 1500, slewed := 0, slotsDone := 0 } := by
  have due : (c.stepDue.any fun n => n ≤ c.stroke) = false := by
    cases step : c.stepDue with
    | none => rfl
    | some n => simpa using free n step
  unfold endTurnover
  dsimp only
  rw [due]
  rfl

end Sys2Proof.Machine

open Sys2Proof.Machine
namespace Sys2Proof

/-- Settles O6: no row and no idle step leaves the invariant. -/
theorem clockInvariantKept : Obligations.ClockInvariantKept := by
  intro s t inv run
  cases pending : s.pending with
  | nil =>
    cases (step_idle pending).symm.trans run
    exact State.idle_inv inv
  | cons c rest =>
    obtain ⟨u, next, kept⟩ := exec_inv (s := { s with pending := rest }) inv c
    cases ((step_front pending).trans next).symm.trans run
    exact kept

/-- Settles O7: by the frame of each row. -/
theorem otherCommandsLeaveTheClock : Obligations.OtherCommandsLeaveTheClock := fun _ s still => exec_clk still s

/-- Settles O5: the counter stands at phase 0 of its work window, and memory lists nothing. -/
theorem clockInvariantAtReset : Obligations.ClockInvariantAtReset := ⟨Clock.Inv.reset, Memory.reset_wf⟩

/-- Settles O4: at reset every map is empty, so each part has its default. -/
theorem resetLeavesNothingPrimed : Obligations.ResetLeavesNothingPrimed :=
  ⟨rfl, rfl, rfl, rfl, rfl, rfl, rfl, rfl, by decide, rfl, fun _ => rfl, fun _ => ⟨Memory.byte_reset _, rfl⟩, fun _ => rfl, fun _ => rfl, fun _ => rfl,
    fun _ => rfl, rfl, rfl⟩

/-- Settles O1: an idle step is a tick of the counter of a module in service. -/
theorem stepRunsTheFrontCommand : Obligations.StepRunsTheFrontCommand := by
  refine ⟨fun s c rest pending => step_front pending, fun s pending => ?_⟩
  rw [step_idle pending]
  by_cases on : s.dev.life = .on
  · by_cases counts : s.clk.running = true ∧ s.clk.phase + 1 < s.clk.nextEvent ∧ s.clk.phase < s.clk.slotStop s.dev.slotOn
    · simp [State.idle, Clock.tick, on, counts]
    · have stays : s.clk.tick s.dev.slotOn = s.clk := if_neg (by simpa [and_assoc] using counts)
      simp [State.idle, stays, on, counts]
  · simp [State.idle, on]

/-- Settles O8: each event enters the stage behind its own, and none acts out of its order. -/
theorem turnoverEventsFollowInOrder : Obligations.TurnoverEventsFollowInOrder := by
  refine ⟨fun s => ⟨fun h => ?_, fun h => ?_, fun h => ?_, fun h hung => ?_, fun h => ?_, fun h => ?_, fun h => ?_, fun h free => ?_⟩,
    fun s hung x row other => exec_turnoverEvent_else row other⟩
  · have same := counter_slotsEnded s.clk s.dev
    have due : s.clk.nextEvent = s.clk.turnStart := by rw [Clock.nextEvent, h.stage]
    have stroke : (slotsEnded s.clk s.dev).1.stroke = s.clk.stroke := (congrArg Clock.stroke same :)
    have turnStart : (slotsEnded s.clk s.dev).1.turnStart = s.clk.turnStart := (congrArg Clock.turnStart same :)
    rw [exec_deadline, turnoverEvent_at h]
    refine ⟨_, rfl, (Clock.nextEvent_counter same).trans due, rfl, stroke, turnStart, fun off => ?_⟩
    dsimp only
    rw [slotsEnded_none off, Clock.enter, due]
  · rw [exec_skewGuardEnd, turnoverEvent_at h]
    exact ⟨_, rfl, by rw [Clock.enter, Clock.nextEvent, h.stage]⟩
  · rw [exec_verdicts, turnoverEvent_at h]
    exact ⟨_, rfl, by rw [Clock.enter, Clock.nextEvent, h.stage]⟩
  · rw [exec_unitHangCheck, turnoverEvent_at h]
    exact ⟨_, rfl, by rw [Clock.enter, Clock.nextEvent, h.stage]⟩
  · obtain ⟨p, e, same⟩ := counter_turnoverChanges (s.clk.enter .changed) (s.dev.lsSend s.clk)
    have due : s.clk.nextEvent = s.clk.turnStart + 700 := by rw [Clock.nextEvent, h.stage]
    have phase := congrArg Clock.phase same
    have stage := congrArg Clock.stage same
    have stroke := congrArg Clock.stroke same
    have turnStart := congrArg Clock.turnStart same
    rw [exec_turnoverChanges, turnoverEvent_at h]
    exact ⟨_, rfl, phase.trans due, stage, stroke, turnStart⟩
  · rw [exec_refreshBurstEnd, turnoverEvent_at h]
    dsimp only
    rw [Clock.enter, Clock.nextEvent, h.stage]
  · rw [exec_valveCountReset, turnoverEvent_at h]
    dsimp only
    rw [Clock.enter, Clock.nextEvent, h.stage]
  · have next := endTurnover_next free s.dev
    rw [exec_strokeStart, turnoverEvent_at h]
    refine ⟨_, rfl, ?_⟩
    dsimp only
    split <;> exact next

end Sys2Proof
end

section
/-! PROOFS. The hang check (R37, R413): units are marked one after another, and no mark is taken back. -/

namespace Sys2Proof.Machine

theorem mem_dedupe {α : Type} [DecidableEq α] {l : List α} {x : α} : x ∈ dedupe l ↔ x ∈ l := by
  have go : ∀ (l acc : List α), x ∈ l.foldl (fun acc y => if acc.contains y then acc else acc ++ [y]) acc ↔ x ∈ acc ∨ x ∈ l := by
    intro l
    induction l with
    | nil => intro acc; simp
    | cons y ys ih =>
      intro acc
      rw [List.foldl_cons, ih]
      by_cases known : y ∈ acc
      · simp only [List.contains_iff_mem, known, if_true, List.mem_cons]
        grind
      · simp only [List.contains_iff_mem, known, if_false, List.mem_append, List.mem_cons, List.not_mem_nil, or_false, or_assoc]
  unfold dedupe
  rw [go]
  simp

/-- `d'` differs from `d` in contexts, dictionary values and error logs alone. -/
def Dev.recordsOnly (d d' : Dev) : Prop :=
  ∃ cs vs ls lc lq, d' = { d with ctxs := cs, val := vs, logs := ls, logCount := lc, logSeq := lq }

theorem Dev.recordsOnly_of_same {d d' : Dev} (h : d.sameBut d') : d.recordsOnly d' := by
  obtain ⟨_, _, rfl⟩ := h
  exact ⟨_, _, _, _, _, rfl⟩

theorem Dev.recordsOnly.trans {a b c : Dev} (h : a.recordsOnly b) (k : b.recordsOnly c) : a.recordsOnly c := by
  obtain ⟨_, _, _, _, _, rfl⟩ := h
  obtain ⟨_, _, _, _, _, rfl⟩ := k
  exact ⟨_, _, _, _, _, rfl⟩

theorem Dev.log_recordsOnly (d : Dev) (dom : Nat) (r : LogRec) : d.recordsOnly (d.log dom r) := by
  unfold Dev.log
  dsimp only
  split <;> exact ⟨_, _, _, _, _, rfl⟩

/-- The units `us` have been marked, one after another, on device `d` (R413). -/
structure HungMarked (us : List UnitName) (d e : Dev) : Prop where
  resets : e.unitResets = d.unitResets ++ us
  kept : ∀ cl, (d.cluster cl).noGrant = true → (e.cluster cl).noGrant = true
  withheld : ∀ u ∈ us, ∀ cl, unitCluster u = some cl → (e.cluster cl).noGrant = true
  mem : e.mem = d.mem
  cores : e.cores = d.cores
  valves : e.valves = d.valves

theorem HungMarked.refl (d : Dev) : HungMarked [] d d := ⟨by simp, fun _ => id, nofun, rfl, rfl, rfl⟩

theorem HungMarked.trans {us vs : List UnitName} {a b c : Dev} (h : HungMarked us a b) (k : HungMarked vs b c) :
    HungMarked (us ++ vs) a c where
  resets := by rw [k.resets, h.resets, List.append_assoc]
  kept cl was := k.kept cl (h.kept cl was)
  withheld u mem cl of := by
    rcases List.mem_append.1 mem with first | second
    · exact k.kept cl (h.withheld u first cl of)
    · exact k.withheld u second cl of
  mem := k.mem.trans h.mem
  cores := k.cores.trans h.cores
  valves := k.valves.trans h.valves

theorem Dev.noGrant_updCluster (d : Dev) (cl : Nat) :
    ((d.updCluster cl fun x => { x with noGrant := true }).cluster cl).noGrant = true := by
  simp [Dev.updCluster]

theorem Dev.noGrant_updCluster_mono (d : Dev) {cl k : Nat} (was : (d.cluster k).noGrant = true) :
    ((d.updCluster cl fun x => { x with noGrant := true }).cluster k).noGrant = true := by
  by_cases same : k = cl
  · rw [same]
    exact d.noGrant_updCluster cl
  · rw [Dev.updCluster, Dev.cluster_setCluster_other d cl k _ same]
    exact was

theorem Dev.hungUnit_marks (d : Dev) (c : Clock) (u : UnitName) : HungMarked [u] d (d.hungUnit c u) := by
  have noted : ∀ e : Dev, d.recordsOnly e → HungMarked [u] d (match unitCluster u with
      | some cl => ({ e with unitResets := e.unitResets ++ [u] } : Dev).updCluster cl fun x => { x with noGrant := true }
      | none => { e with unitResets := e.unitResets ++ [u] }) := by
    rintro e ⟨_, _, _, _, _, rfl⟩
    cases of : unitCluster u with
    | some cl =>
      refine ⟨rfl, fun k was => Dev.noGrant_updCluster_mono _ was, fun v mem k is => ?_, rfl, rfl, rfl⟩
      cases List.mem_singleton.1 mem
      cases of.symm.trans is
      exact Dev.noGrant_updCluster _ cl
    | none =>
      refine ⟨rfl, fun _ => id, fun v mem k is => ?_, rfl, rfl, rfl⟩
      cases List.mem_singleton.1 mem
      cases of.symm.trans is
  unfold Dev.hungUnit
  dsimp only
  refine noted _ ?_
  split
  · exact Dev.recordsOnly_of_same (d.raiseUncorrected_same _ _ _ _)
  · exact (Dev.recordsOnly_of_same (d.countStatus_same _)).trans (Dev.log_recordsOnly _ _ _)

theorem Dev.hungUnits_mark (c : Clock) (us : List UnitName) (d : Dev) :
    HungMarked us d (us.foldl (fun d u => d.hungUnit c u) d) := by
  induction us generalizing d with
  | nil => exact .refl d
  | cons u us ih => exact (d.hungUnit_marks c u).trans (ih _)

end Sys2Proof.Machine

open Sys2Proof.Machine
namespace Sys2Proof

/-- Settles O10: each unit is marked once, and a mark lasts. -/
theorem hungUnitsAreToBeReset : Obligations.HungUnitsAreToBeReset := by
  intro s hung h
  have marked := Dev.hungUnits_mark s.clk (dedupe hung) s.dev
  rw [exec_unitHangCheck, turnoverEvent_at h]
  refine ⟨_, rfl, fun u mem => ?_, fun u mem => ?_, marked.mem, marked.cores, marked.valves⟩
  · have listed := mem_dedupe.2 mem
    refine ⟨?_, marked.withheld u listed⟩
    dsimp only
    rw [marked.resets]
    exact List.mem_append_right _ listed
  · dsimp only at mem
    rw [marked.resets] at mem
    exact (List.mem_append.1 mem).imp_right mem_dedupe.1

end Sys2Proof
end

section
/-! PROOFS. Refresh slots, a held counter's release, and markers (R21, R24 to R26, R29, R30, R302, R460). -/

namespace Sys2Proof.Machine

/-! ### Refresh slots and releases (R29, R30, R460) -/

/-- The phase at which a refresh slot ends: 1,500 ns behind its start, but before the next event (R30). -/
def Clock.slotEnd (c : Clock) : Nat := min (max c.phase (c.slotPhase c.slotsDone + 1500)) (max c.phase (c.nextEvent - 1))

theorem Clock.le_slotEnd (c : Clock) : c.phase ≤ c.slotEnd := le_min (le_max_left _ _) (le_max_left _ _)

theorem Clock.slotEnd_lt {c : Clock} (before : c.phase < c.nextEvent) : c.slotEnd < c.nextEvent :=
  lt_of_le_of_lt (min_le_right _ _) (by omega)

theorem exec_inStrokeRefreshSlot_on {s : State} (on : s.dev.life = .on) : exec .inStrokeRefreshSlot s = .next
    (if s.clk.running && s.clk.slotLeft && !s.dev.slotOn then { s with
      clk := { s.clk with phase := max s.clk.phase (s.clk.slotPhase (s.clk.slotsDone + 1)), slotsDone := s.clk.slotsDone + 1 }
      dev := { s.dev with slotOn := true } } else s) := by
  unfold exec execInStrokeRefreshSlot
  rw [onBoth_on on]
  dsimp only
  split <;> rfl

theorem exec_refreshSlotEnd_on {s : State} (on : s.dev.life = .on) (runs : s.dev.slotOn = true) (counts : s.clk.running = true) :
    exec .refreshSlotEnd s = .next { s with
      clk := (slotOver { s.clk with phase := s.clk.slotEnd } s.dev).1
      dev := (slotOver { s.clk with phase := s.clk.slotEnd } s.dev).2.resume (slotOver { s.clk with phase := s.clk.slotEnd } s.dev).1 } := by
  unfold exec execRefreshSlotEnd
  rw [onBoth_on on]
  dsimp only
  rw [if_pos (by rw [runs, counts]; rfl)]
  rfl

theorem exec_refreshSlotEnd_none {s : State} (on : s.dev.life = .on) (none : s.dev.slotOn = false ∨ s.clk.running = false) :
    exec .refreshSlotEnd s = .next s := by
  unfold exec execRefreshSlotEnd
  rw [onBoth_on on]
  dsimp only
  rw [if_neg (by rcases none with off | stands <;> simp [*])]

theorem slotOver_idle {d : Dev} (queue : d.reqQueue = []) (held : d.slotHeld = []) (c : Clock) :
    slotOver c d = (c, { d with slotOn := false }) := by
  unfold slotOver
  rw [queue, held]
  rfl

theorem exec_counterHoldRelease_held {s : State} (on : s.dev.life = .on) (held : s.clk.held = true) : exec .counterHoldRelease s = .next
    { s with clk := s.clk.release, dev := (s.dev.powerStroke s.clk.release.stroke).startStroke s.clk.release } := by
  unfold exec execCounterHoldRelease
  rw [onBoth_on on]
  dsimp only
  rw [if_pos held]

theorem exec_counterHoldRelease_free {s : State} (on : s.dev.life = .on) (free : s.clk.held = false) :
    exec .counterHoldRelease s = .next s := by
  unfold exec execCounterHoldRelease
  rw [onBoth_on on]
  dsimp only
  rw [if_neg (by simp [free])]

/-! ### Markers (R24) -/

theorem exec_timingMarker_on {s : State} (on : s.dev.life = .on) (p : PortId) (m : BitVec 256) : exec (.timingMarker p m) s =
    .next { s with clk := (markerIn s.clk s.dev p m.toNat).1, dev := (markerIn s.clk s.dev p m.toNat).2 } := by
  change execTimingMarker p m s = _
  unfold execTimingMarker
  rw [onBoth_on on]

/-- The device with a marker as it arrived on a port, and its time. -/
def Dev.marked (d : Dev) (c : Clock) (p : PortId) (w : Nat) : Dev :=
  d.setPort p.val { d.port p.val with marker := some (Marker.ofWord w), markerAt := (c.stroke, c.phase) }

theorem markerIn_unlinked {d : Dev} {p : PortId} (unlinked : (d.port p.val).link = none) (c : Clock) (w : Nat) :
    markerIn c d p w = (c, d) := by
  unfold markerIn
  rw [unlinked]
  rfl

section
variable {c : Clock} {d : Dev} {p : PortId} {w : Nat} (linked : (d.port p.val).link ≠ none)
include linked

theorem markerIn_kept (alone : (d.marked c p w).isRoot = true ∨ c.held = true) : markerIn c d p w = (c, d.marked c p w) := by
  unfold markerIn
  rw [if_neg (by simpa [Option.isNone_iff_eq_none] using linked)]
  dsimp only
  rw [if_pos (by simpa [Dev.marked] using alone)]
  rfl

/-- What a follower makes of its best neighbour's counter, as it stands now. -/
theorem markerIn_follows {q : PortId} {now : Marker} (follower : (d.marked c p w).isRoot = false) (free : c.held = false)
    (best : (d.marked c p w).bestUpstream = some q) (stands : (neighbourNow c (d.marked c p w) q.val).getD (Marker.ofWord w) = now) :
    (c.sync = .priming → markerIn c d p w =
      ({ takeCounter { adopt c (d.marked c p w) q with pendingPeriod := now.pending } now with sync := .locked }, d.marked c p w)) ∧
    (c.sync = .unlocked → c.stepDue = none → markerIn c d p w =
      ({ adopt c (d.marked c p w) q with stepDue := some (nextTurnover c) }, d.marked c p w)) ∧
    (c.sync = .locked → p = q → missedChange (adopt c (d.marked c p w) q) now = false → c.period = now.period → markerIn c d p w =
      (slew (adopt c (d.marked c p w) q) (leadOf (adopt c (d.marked c p w) q) now), d.marked c p w)) := by
  have follows : ¬((d.marked c p w).isRoot || c.held) = true := by simp [follower, free]
  have isLinked : ¬(d.port p.val).link.isNone = true := by simpa [Option.isNone_iff_eq_none] using linked
  unfold Dev.marked at *
  refine ⟨fun sync => ?_, fun sync due => ?_, fun sync own announced period => ?_⟩
  · unfold markerIn
    rw [if_neg isLinked]
    dsimp only
    rw [if_neg follows, best]
    dsimp only
    rw [stands, sync]
  · unfold markerIn
    rw [if_neg isLinked]
    dsimp only
    rw [if_neg follows, best]
    dsimp only
    rw [sync, due]
    rfl
  · have same : (adopt c (d.setPort p.val { d.port p.val with
        marker := some (Marker.ofWord w), markerAt := (c.stroke, c.phase) }) q).period = now.period :=
      (congrArg Clock.period (counter_adopt c _ q) :).trans period
    unfold markerIn
    rw [if_neg isLinked]
    dsimp only
    rw [if_neg follows, best]
    dsimp only
    rw [stands, sync]
    dsimp only
    rw [if_neg (by simp [own]), announced, if_neg Bool.false_ne_true, if_neg (by simp [same])]

end

/-! ### Slews (R24) -/

/-- A slew moves the phase by what it counts, within its 20 ns. -/
theorem slew_bounded {c : Clock} (atMost : c.slewed ≤ 20) (lead : Int) :
    (slew c lead).slewed ≤ 20 ∧ (((slew c lead).phase : Int) - c.phase).natAbs = (slew c lead).slewed - c.slewed := by
  unfold slew
  dsimp only
  split
  · exact ⟨atMost, by simp⟩
  next within =>
    simp only [Bool.or_eq_true, bne_iff_ne, ne_eq, decide_eq_true_eq, not_or, Decidable.not_not, not_lt, not_le] at within
    obtain ⟨⟨-, low⟩, -⟩ := within
    refine ⟨slew_natAbs c.slewed lead atMost, ?_⟩
    dsimp only
    omega

theorem slew_alone (c : Clock) (lead : Int) :
    slew c lead = { c with phase := (slew c lead).phase, slewed := (slew c lead).slewed, offset := (slew c lead).offset } := by
  unfold slew
  dsimp only
  split <;> rfl

/-- A lead for which there is room in the stroke is corrected whole. -/
theorem slew_whole {c : Clock} {lead : Int} (work : c.stage = .work) (low : 0 ≤ (c.phase : Int) + lead)
    (high : (c.phase : Int) + lead < c.turnStart) (room : lead.natAbs ≤ 20 - c.slewed) :
    ((slew c lead).phase : Int) = c.phase + lead ∧ (slew c lead).offset = 0 := by
  have whole : max (-((20 - c.slewed : Nat) : Int)) (min ((20 - c.slewed : Nat) : Int) lead) = lead := by omega
  unfold slew
  dsimp only
  rw [whole, if_neg (by simp [work]; omega)]
  exact ⟨by dsimp only; omega, by dsimp only; omega⟩

/-! ### Markers leave, and holdover ends (R26, R302) -/

theorem exec_markerSend_on {s : State} (on : s.dev.life = .on) (l : PortId) : exec (.markerSend l) s = .next { s with
    dev := if (s.dev.link l.val).ports.isEmpty || s.clk.sync = .priming then s.dev
      else s.dev.emit (.marker l.val (markerWord s.clk s.dev)) } := by
  change execMarkerSend l s = _
  unfold execMarkerSend
  rw [onDev_on on]

theorem exec_holdoverTimeout_on {s : State} (on : s.dev.life = .on) : exec .holdoverTimeout s = .next { s with
    clk := (holdoverEnds s.clk s.dev).1, dev := (holdoverEnds s.clk s.dev).2 } := by
  unfold exec execHoldoverTimeout
  rw [onBoth_on on]

end Sys2Proof.Machine

open Sys2Proof.Machine
namespace Sys2Proof

/-- Settles O11: one lemma for each event, as it finds a slot or a hold and as it finds none. -/
theorem heldCountersAndRefreshSlots : Obligations.HeldCountersAndRefreshSlots := by
  refine ⟨fun s on => ⟨fun runs left off => ?_, fun idle => ?_, fun slot runs => ?_, fun c queue held => slotOver_idle queue held c,
    fun none => exec_refreshSlotEnd_none on none⟩, fun s on => ⟨fun held => exec_counterHoldRelease_held on held, fun none => ?_,
    fun p e pending => ⟨fun now => ?_, fun later => ?_⟩, fun free => exec_counterHoldRelease_free on free⟩⟩
  · rw [exec_inStrokeRefreshSlot_on on, if_pos (by simp [runs, left, off])]
  · rw [exec_inStrokeRefreshSlot_on on, if_neg (by rcases idle with stands | none | slot <;> simp [*])]
  · exact ⟨_, exec_refreshSlotEnd_on on slot runs, rfl, s.clk.le_slotEnd, Clock.slotEnd_lt⟩
  · unfold Clock.release
    simp only [none]
  · unfold Clock.release
    simp only [pending, now, if_true]
  · unfold Clock.release
    simp only [pending, later, if_false]

/-- Settles O12: a marker is kept, and a follower's state decides what it makes of it. -/
theorem markersGuideFollowers : Obligations.MarkersGuideFollowers := by
  refine ⟨fun s p m on => ⟨fun unlinked => ?_, fun linked => ⟨fun alone => ?_, fun follower free q best => ?_⟩⟩,
    fun c lead atMost => ⟨(slew_bounded atMost lead).1, (slew_bounded atMost lead).2, slew_alone c lead, fun work low high room =>
      slew_whole work low high room⟩, fun s l on => ⟨fun ports primed => ?_, fun none => ?_⟩, fun s on => ⟨fun holdover => ?_, fun other => ?_⟩⟩
  · rw [exec_timingMarker_on on, markerIn_unlinked unlinked]
  · rw [exec_timingMarker_on on, markerIn_kept linked alone]
    rfl
  · obtain ⟨priming, unlocked, locked⟩ := markerIn_follows (w := m.toNat) linked follower free best rfl
    refine ⟨fun sync => ?_, fun sync due => ?_, fun sync own announced period => ?_⟩
    · rw [exec_timingMarker_on on, priming sync]
      rfl
    · rw [exec_timingMarker_on on, unlocked sync due]
      rfl
    · rw [exec_timingMarker_on on, locked sync own announced period]
      rfl
  · rw [exec_markerSend_on on, if_neg (by simp [ports, primed])]
  · rw [exec_markerSend_on on, if_pos (by rcases none with ports | priming <;> simp [*])]
  · rw [exec_holdoverTimeout_on on, holdoverEnds, if_pos holdover]
    rfl
  · rw [exec_holdoverTimeout_on on, holdoverEnds, if_neg other]

end Sys2Proof
end

section
/-! PROOFS. The marks of a refresh slot and of the turnover's burst (R30, R35): what the device does at a deadline, and what it serves when a
slot ends, leaves both as they are. -/

namespace Sys2Proof.Machine

/-- `e` runs the refresh slot and the burst that `d` runs. -/
@[simp] abbrev Dev.refreshes (d e : Dev) : Prop := e.slotOn = d.slotOn ∧ e.burstOn = d.burstOn

theorem foldl_refreshes {β : Type} {f : Dev → β → Dev} (keeps : ∀ (d : Dev) x, d.refreshes (f d x)) (l : List β) (d : Dev) :
    d.refreshes (l.foldl f d) :=
  ⟨foldl_keeps Dev.slotOn (fun d x => (keeps d x).1) l d, foldl_keeps Dev.burstOn (fun d x => (keeps d x).2) l d⟩

theorem foldl_refreshes_clocked {β : Type} {f : Clock × Dev → β → Clock × Dev} (keeps : ∀ (r : Clock × Dev) x, r.2.refreshes (f r x).2) (l : List β)
    (r : Clock × Dev) : r.2.refreshes (l.foldl f r).2 :=
  ⟨foldl_keeps (fun r => r.2.slotOn) (fun d x => (keeps d x).1) l r, foldl_keeps (fun r => r.2.burstOn) (fun d x => (keeps d x).2) l r⟩

/-! ### Records and statuses -/

@[simp] theorem Dev.bumpKey_refreshes (d : Dev) (k n : Nat) : d.refreshes (d.bumpKey k n) := ⟨rfl, rfl⟩

theorem Dev.updCore_refreshes (d : Dev) (k : Nat) (f : Core → Core) : d.refreshes (d.updCore k f) := ⟨rfl, rfl⟩

theorem Dev.updCtx_refreshes (d : Dev) (k : Nat) (f : Ctx → Ctx) : d.refreshes (d.updCtx k f) := ⟨rfl, rfl⟩

theorem Dev.setV_refreshes (d : Dev) (idx sub el x : Nat) : d.refreshes (d.setV idx sub el x) := ⟨rfl, rfl⟩

theorem Dev.emit_refreshes (d : Dev) (o : Output) : d.refreshes (d.emit o) := ⟨rfl, rfl⟩

theorem Dev.setReg_refreshes (d : Dev) (f : Nat) (r : RegBlock) : d.refreshes (d.setReg f r) := ⟨rfl, rfl⟩

theorem Dev.setCq_refreshes (d : Dev) (q : Nat) (r : CqRun) : d.refreshes (d.setCq q r) := ⟨rfl, rfl⟩

theorem Dev.reqQueue_refreshes (d : Dev) (q : List WaitReq) : d.refreshes { d with reqQueue := q } := ⟨rfl, rfl⟩

theorem Dev.kept_refreshes (d : Dev) (k : Kept) : d.refreshes (d.keep k) := ⟨rfl, rfl⟩

theorem Dev.sentBulks_refreshes (d : Dev) (bs : List SentBulk) : d.refreshes { d with sentBulks := bs } := ⟨rfl, rfl⟩

theorem Dev.openBulks_refreshes (d : Dev) (bs : List OpenBulk) : d.refreshes { d with openBulks := bs } := ⟨rfl, rfl⟩

theorem Dev.reqs_refreshes (d : Dev) (rs : List Req) : d.refreshes { d with reqs := rs } := ⟨rfl, rfl⟩

theorem Dev.addReq_refreshes (d : Dev) (r : Req) : d.refreshes (d.addReq r) := ⟨rfl, rfl⟩

@[simp] theorem Dev.log_refreshes (d : Dev) (dom : Nat) (r : LogRec) : d.refreshes (d.log dom r) := by
  unfold Dev.log
  dsimp only
  split <;> simp

@[simp] theorem Dev.countStatus_refreshes (d : Dev) (st : Status) : d.refreshes (d.countStatus st) := by
  unfold Dev.countStatus
  split <;> simp

@[simp] theorem Dev.escalate_refreshes (d : Dev) (k : Nat) : d.refreshes (d.escalate k) := by
  unfold Dev.escalate
  split <;> simp

@[simp] theorem Dev.raiseAt_refreshes (d : Dev) (k : Nat) (st : Status) (detail : Nat) (kind : UnitKind) (unit : Nat) :
    d.refreshes (d.raiseAt k st detail kind unit) := by
  unfold Dev.raiseAt
  dsimp only
  split <;> simp

@[simp] theorem Dev.raise_refreshes (d : Dev) (k : Nat) (st : Status) : d.refreshes (d.raise k st) := d.raiseAt_refreshes k st 0 .none 0

@[simp] theorem Dev.eccCount_refreshes (d : Dev) (f : EccFinding) (a : Nat) : d.refreshes (d.eccCount f a) := by
  unfold Dev.eccCount
  split <;> exact Dev.bumpKey_refreshes _ _ _

@[simp] theorem Dev.uncorrected_refreshes (d : Dev) (k : Nat) : d.refreshes (d.uncorrected k) := by
  unfold Dev.uncorrected
  split <;> simp

@[simp] theorem Dev.eccOne_refreshes (d : Dev) (c : Clock) (k : Option Nat) (f : EccFinding) : d.refreshes (d.eccOne c k f) := by
  unfold Dev.eccOne Dev.poisonLine Dev.logStatus
  dsimp only
  split
  · simp
  · split
    · simp
    · split <;> simp

@[simp] theorem Dev.eccAll_refreshes (d : Dev) (c : Clock) (k : Option Nat) (fs : List EccFinding) : d.refreshes (d.eccAll c k fs) :=
  foldl_refreshes (fun _ _ => by simp) fs d

@[simp] theorem Dev.cmdFault_refreshes (d : Dev) (id k : Nat) (st : Status) (detail : Nat) : d.refreshes (d.cmdFault id k st detail) := by
  unfold Dev.cmdFault
  simp

@[simp] theorem Dev.cmdDone_refreshes (d : Dev) (id : Nat) : d.refreshes (d.cmdDone id) := by
  unfold Dev.cmdDone
  dsimp only
  split <;> simp

/-! ### Links and packets -/

theorem Dev.refreshes_trans {a b c : Dev} (h : a.refreshes b) (k : b.refreshes c) : a.refreshes c := ⟨k.1.trans h.1, k.2.trans h.2⟩

@[simp] theorem Dev.frameOut_refreshes (d : Dev) (l port : Nat) (p : Sent) (congested : Bool) : d.refreshes (d.frameOut l port p congested) := by
  unfold Dev.frameOut
  dsimp only
  split
  · refine Dev.refreshes_trans ?_ (Dev.bumpKey_refreshes _ _ _)
    refine Dev.refreshes_trans ?_ (foldl_refreshes ?_ _ _)
    · exact ⟨rfl, rfl⟩
    · exact fun _ _ => ⟨rfl, rfl⟩
  · refine Dev.refreshes_trans ?_ (foldl_refreshes ?_ _ _)
    · exact ⟨rfl, rfl⟩
    · exact fun _ _ => ⟨rfl, rfl⟩

theorem Dev.flushQueue_refreshes (l : Nat) (xs : List (Nat × Sent)) (d : Dev) : d.refreshes (Dev.flushQueue l xs d) := by
  induction xs generalizing d with
  | nil => exact ⟨rfl, rfl⟩
  | cons x xs ih =>
    unfold Dev.flushQueue
    dsimp only
    split
    · exact Dev.refreshes_trans (by simp) (ih _)
    · split
      · exact Dev.refreshes_trans (by simp) (ih _)
      · exact Dev.refreshes_trans (by simp) (ih _)

@[simp] theorem Dev.flushLink_refreshes (d : Dev) (l : Nat) : d.refreshes (d.flushLink l) :=
  Dev.refreshes_trans ⟨rfl, rfl⟩ (Dev.flushQueue_refreshes l _ _)

@[simp] theorem Dev.sendOn_refreshes (d : Dev) (l : Nat) (p : Sent) : d.refreshes (d.sendOn l p) := by
  unfold Dev.sendOn
  dsimp only
  split <;> simp

@[simp] theorem Dev.regulate_refreshes (d : Dev) (l : Nat) (p : Sent) : d.refreshes (d.regulate l p) := by
  unfold Dev.regulate Dev.regPass
  dsimp only
  repeat' split
  all_goals simp

@[simp] theorem Dev.shape_refreshes (d : Dev) (x : Shaped) : d.refreshes (d.shape x) := by
  unfold Dev.shape
  dsimp only
  repeat' split
  all_goals simp

@[simp] theorem Dev.launch_refreshes (d : Dev) (p : Sent) (dest : Nat) : d.refreshes (d.launch p dest).1 := by
  unfold Dev.launch Dev.ownNoRoute
  repeat' split
  all_goals simp

@[simp] theorem Dev.sendTo_refreshes (d : Dev) (c : Clock) (k : Option Nat) (part dest e2e : Nat) (x : Content) :
    d.refreshes (d.sendTo c k part dest e2e x).1 := by
  unfold Dev.sendTo
  simp

@[simp] theorem Dev.sendSlot_refreshes (d : Dev) (c : Clock) (k : Option Nat) (part slot dest e2e : Nat) (x : Content) :
    d.refreshes (d.sendSlot c k part slot dest e2e x).1 := by
  unfold Dev.sendSlot
  exact Dev.launch_refreshes _ _ _

@[simp] theorem Dev.takeE2e_refreshes (d : Dev) (dest : Nat) : d.refreshes (d.takeE2e dest).1 := ⟨rfl, rfl⟩

@[simp] theorem Dev.sendMgmt_refreshes (d : Dev) (c : Clock) (dest : Nat) (bs : List Byte) : d.refreshes (d.sendMgmt c dest bs) := by
  unfold Dev.sendMgmt
  simp

/-! ### Ports -/

@[simp] theorem Dev.leaveLink_refreshes (d : Dev) (p : Nat) : d.refreshes (d.leaveLink p) := by
  unfold Dev.leaveLink
  dsimp only
  repeat' split
  all_goals simp

@[simp] theorem Dev.retrain_refreshes (d : Dev) (p : Nat) : d.refreshes (d.retrain p) := by
  unfold Dev.retrain Dev.trainIf Dev.train Dev.portOut
  dsimp only
  repeat' split
  all_goals simp

theorem settleUpstream_refreshes (c : Clock) (d : Dev) : d.refreshes (settleUpstream c d).2 := by
  unfold settleUpstream
  dsimp only
  repeat' split
  all_goals simp

@[simp] theorem Dev.endDrain_refreshes (d : Dev) (l dom : Nat) (keep : Bool) : d.refreshes (d.endDrain l dom keep) := by
  unfold Dev.endDrain
  dsimp only
  split
  · simp
  · refine Dev.refreshes_trans ?_ (Dev.flushLink_refreshes _ _)
    refine Dev.refreshes_trans ?_ (foldl_refreshes ?_ _ _)
    · exact ⟨rfl, rfl⟩
    · exact fun _ _ => ⟨rfl, rfl⟩

@[simp] theorem Dev.beginDrain_refreshes (d : Dev) (dom : Nat) : d.refreshes (d.beginDrain dom) :=
  foldl_refreshes (fun d l => by
    dsimp only
    repeat' split
    all_goals simp) _ d

/-! ### Stores -/

@[simp] theorem Dev.countPartial_refreshes (d : Dev) (a n : Nat) : d.refreshes (d.countPartial a n) :=
  foldl_refreshes (fun d l => by split <;> simp) _ d

@[simp] theorem Dev.memStore_refreshes (d : Dev) (a : Nat) (bs : List Byte) (poison : Bool) : d.refreshes (d.memStore a bs poison) := by
  unfold Dev.memStore
  split <;> simp

@[simp] theorem Dev.storeDev_refreshes (d : Dev) (k a : Nat) (bs : List Byte) (poison : Bool) : d.refreshes (d.storeDev k a bs poison) := by
  unfold Dev.storeDev
  simp

@[simp] theorem Dev.cacheLine_refreshes (d : Dev) (core : Nat) (x : CacheLine) : d.refreshes (d.cacheLine core x) := by
  unfold Dev.cacheLine
  dsimp only
  refine Dev.refreshes_trans ?_ (Dev.updCore_refreshes _ _ _)
  split
  · exact ⟨rfl, rfl⟩
  · refine Dev.refreshes_trans ?_ (foldl_refreshes ?_ _ _)
    · exact ⟨rfl, rfl⟩
    · exact fun _ _ => ⟨rfl, rfl⟩

@[simp] theorem Dev.cacheStore_refreshes (d : Dev) (core a : Nat) (bs : List Byte) (poison : Bool) :
    d.refreshes (d.cacheStore core a bs poison) :=
  foldl_refreshes (fun d l => by
    refine Dev.refreshes_trans ?_ (Dev.cacheLine_refreshes _ _ _)
    exact foldl_refreshes (fun _ _ => Dev.updCore_refreshes _ _ _) _ _) _ d

@[simp] theorem Dev.lsStore_refreshes (d : Dev) (c : Clock) (w : Who) (va : Nat) (bs : List Byte) (poison : Bool) :
    d.refreshes (d.lsStore c w va bs poison) := by
  unfold Dev.lsStore
  dsimp only
  split <;> simp

@[simp] theorem Dev.request_refreshes (d : Dev) (c : Clock) (w : Who) (owner : ReqOwner) (f : Frame) (seq : Nat) (kind : MemReqKind) :
    d.refreshes (d.request c w owner f seq kind).1 := by
  have sent : ∀ (x : Dev × Bool) (r : Req) (i : Option Nat), d.refreshes x.1 →
      d.refreshes (if x.2 then (x.1.addReq r, i) else (x.1, none)).1 := fun _ _ _ kept => by
    split
    · exact Dev.refreshes_trans kept (Dev.addReq_refreshes _ _)
    · exact kept
  unfold Dev.request
  split
  · exact Dev.bumpKey_refreshes _ _ _
  · cases f
    all_goals
      simp only [Bool.false_eq_true, if_false, if_true]
      refine sent _ _ _ ?_
    · exact Dev.refreshes_trans (Dev.takeE2e_refreshes d _) (Dev.sendTo_refreshes _ _ _ _ _ _ _)
    · exact Dev.refreshes_trans (Dev.takeE2e_refreshes d _) (Dev.sendSlot_refreshes _ _ _ _ _ _ _ _)
    · exact Dev.refreshes_trans (Dev.takeE2e_refreshes d _) (Dev.sendTo_refreshes _ _ _ _ _ _ _)

@[simp] theorem Dev.pumpBulks_refreshes (d : Dev) (c : Clock) : d.refreshes (d.pumpBulks c) :=
  have pumped : ∀ (d : Dev) (dest : Nat) (bs : List OpenBulk) (ns : SMap Nat) (k : Option Nat) (p g n : Nat) (x : Content), d.refreshes
      (({ (d.takeE2e dest).1 with openBulks := bs, bulkNext := ns } : Dev).sendTo c k p g n x).1 := fun d dest _ _ _ _ _ _ _ =>
    Dev.refreshes_trans (b := { (d.takeE2e dest).1 with openBulks := _, bulkNext := _ }) ⟨rfl, rfl⟩ (Dev.sendTo_refreshes _ _ _ _ _ _ _)
  foldl_refreshes (fun d b => by
    dsimp only
    split
    · exact ⟨rfl, rfl⟩
    · split
      · refine Dev.refreshes_trans ?_ (Dev.bumpKey_refreshes _ _ _)
        exact Dev.refreshes_trans (pumped _ _ _ _ _ _ _ _ _) (Dev.sentBulks_refreshes _ _)
      · refine Dev.refreshes_trans ?_ (Dev.raise_refreshes _ _ _)
        exact Dev.refreshes_trans (pumped _ _ _ _ _ _ _ _ _) (Dev.reqs_refreshes _ _)) _ d

@[simp] theorem Dev.closeBulks_refreshes (d : Dev) (c : Clock) (p : OpenBulk → Bool) : d.refreshes (d.closeBulks c p) := by
  unfold Dev.closeBulks
  simp

@[simp] theorem Dev.gatewayStore_refreshes (d : Dev) (c : Clock) (w : Who) (owner : ReqOwner) (g a : Nat) (bs : List Byte) (poison : Bool) :
    d.refreshes (d.gatewayStore c w owner g a bs poison) := by
  unfold Dev.gatewayStore Dev.addReq
  dsimp only
  split <;> simp

theorem Dev.storePiece_refreshes {d e : Dev} {c : Clock} {w : Who} {owner : ReqOwner} {va : Nat} {bs : List Byte} {poison : Bool}
    (stored : d.storePiece c w owner va bs poison = .ok e) : d.refreshes e := by
  unfold Dev.storePiece Dev.freshen Dev.unreachable at stored
  dsimp only at stored
  split at stored
  · cases stored
  · split at stored
    · split at stored
      · cases stored
      · cases stored
        split <;> simp
    · cases stored
      simp
    · cases stored
      split <;> simp

theorem Dev.store_refreshes {d e : Dev} {c : Clock} {w : Who} {owner : ReqOwner} {va : Nat} {bs : List Byte} {poison : Bool}
    (stored : d.store c w owner va bs poison = .ok e) : d.refreshes e := by
  unfold Dev.store at stored
  generalize pieces va bs.length = ps at stored
  induction ps using List.reverseRecOn generalizing e with
  | nil => cases stored; simp
  | append_singleton ps p ih =>
    rw [List.foldl_append] at stored
    simp only [List.foldl_cons, List.foldl_nil] at stored
    split at stored
    · cases stored
    next mid before => exact Dev.refreshes_trans (ih before) (Dev.storePiece_refreshes stored)

theorem Dev.writeState_refreshes {d e : Dev} {c : Clock} {core ch : Nat} {s : Stream} {st remaining : Nat}
    (stored : d.writeState c core ch s st remaining = .ok e) : d.refreshes e := Dev.store_refreshes stored

/-! ### Handles, requests and streams -/

@[simp] theorem Dev.freeBucket_refreshes (d : Dev) (p h : Nat) : d.refreshes (d.freeBucket p h) := by
  unfold Dev.freeBucket
  dsimp only
  split <;> simp

@[simp] theorem Dev.release_refreshes (d : Dev) (k h : Nat) : d.refreshes (d.release k h) := by
  unfold Dev.release
  dsimp only
  repeat' split
  all_goals simp

@[simp] theorem Dev.freePacked_refreshes (d : Dev) (req : Nat) : d.refreshes (d.freePacked req) := by
  unfold Dev.freePacked
  dsimp only
  repeat' split
  all_goals simp

theorem Dev.settleOwn_refreshes (d : Dev) (core : Nat) : d.refreshes (d.settleOwn core) := by
  unfold Dev.settleOwn Dev.cmdWork
  repeat' split
  all_goals simp

@[simp] theorem Dev.settle_refreshes (d : Dev) (core : Nat) : d.refreshes (d.settle core) := by
  unfold Dev.settle
  split
  · simp
  · split
    · exact d.settleOwn_refreshes core
    · refine Dev.refreshes_trans ?_ (Dev.settleOwn_refreshes _ _)
      simp

@[simp] theorem Dev.storeDone_refreshes (d : Dev) (r : Req) : d.refreshes (d.storeDone r) := by
  unfold Dev.storeDone Dev.dropReq
  dsimp only
  split <;> simp

@[simp] theorem Dev.bytesArrive_refreshes (d : Dev) (r : Req) (a : Nat) (bs : List Byte) (poison : Bool) :
    d.refreshes (d.bytesArrive r a bs poison) := by
  unfold Dev.bytesArrive Dev.dropReq
  dsimp only
  split <;> split <;> simp

@[simp] theorem Dev.reqFail_refreshes (d : Dev) (r : Req) (st : Status) : d.refreshes (d.reqFail r st) := by
  unfold Dev.reqFail Dev.dropReq Dev.planStatus
  dsimp only
  split
  · simp
  · simp
  · split <;> simp
  · split <;> simp

/-! ### What the deadline does (R33, R37) -/

theorem Dev.withdraw_refreshes (d : Dev) (k : Nat) : d.refreshes (d.withdraw k) := by
  unfold Dev.withdraw
  refine Dev.refreshes_trans ?_ (foldl_refreshes ?_ _ _)
  · exact ⟨rfl, rfl⟩
  · exact fun _ _ => ⟨rfl, rfl⟩

theorem Dev.atomicsLost_refreshes (d : Dev) : d.refreshes d.atomicsLost :=
  foldl_refreshes (fun d r => by split <;> simp) _ d

theorem Dev.markRange_refreshes (d : Dev) (k : Nat) (r : Nat × Nat) : d.refreshes (d.markRange k r) :=
  foldl_refreshes (fun d p => by
    repeat' split
    all_goals simp) _ d

theorem Dev.spoil_refreshes (d : Dev) (a n : Nat) : d.refreshes (d.spoil a n) := ⟨rfl, rfl⟩

theorem Dev.spoilStream_refreshes (d : Dev) (core : Nat) (s : Stream) : d.refreshes (d.spoilStream core s) := by
  unfold Dev.spoilStream
  dsimp only
  split
  · simp
  · refine foldl_refreshes (fun d i => ?_) _ _
    repeat' split
    · exact d.spoil_refreshes _ _
    · exact ⟨rfl, rfl⟩
    · exact ⟨rfl, rfl⟩
    · exact d.markRange_refreshes _ _

theorem Dev.setStream_refreshes (d : Dev) (core ch : Nat) (s : Option Stream) : d.refreshes (d.setStream core ch s) := ⟨rfl, rfl⟩

theorem Dev.discardArmed_refreshes (d : Dev) (core ch : Nat) : d.refreshes (d.discardArmed core ch) := by
  unfold Dev.discardArmed
  split
  · simp
  · exact Dev.refreshes_trans (Dev.updCore_refreshes _ _ _) (Dev.bumpKey_refreshes _ _ _)

theorem Dev.abandonStream_refreshes (d : Dev) (c : Clock) (core ch : Nat) : d.refreshes (d.abandonStream c core ch) := by
  unfold Dev.abandonStream
  split
  · simp
  · dsimp only
    refine Dev.refreshes_trans (Dev.refreshes_trans ?_ (Dev.setStream_refreshes _ _ _ _)) (Dev.discardArmed_refreshes _ _ _)
    split
    · simp
    · split
      next written => exact Dev.writeState_refreshes written
      · simp

theorem Dev.dropStream_refreshes (d : Dev) (c : Clock) (core ch : Nat) : d.refreshes (d.dropStream c core ch) := by
  unfold Dev.dropStream
  split
  · simp
  next s _ =>
    have abandoned := Dev.refreshes_trans (d.spoilStream_refreshes core s) (Dev.abandonStream_refreshes _ c core ch)
    exact Dev.refreshes_trans abandoned (Dev.updCtx_refreshes _ _ _)

theorem Dev.dropBoards_refreshes (d : Dev) : d.refreshes d.dropBoards :=
  foldl_refreshes (fun d kv => by
    refine Dev.refreshes_trans ?_ (Dev.updCore_refreshes _ _ _)
    refine foldl_refreshes (fun d e => ?_) _ _
    exact foldl_refreshes (fun d w => d.spoil_refreshes _ _) _ _) _ d

theorem Dev.ended_refreshes (d : Dev) (sqs : SMap SqRun) : d.refreshes
    { d with sqs := sqs, reqs := [], demandsOut := [], openBulks := [], sentBulks := [], fetched := [] } := ⟨rfl, rfl⟩

/-- The burst begins with the deadline, and a slot that runs would run on. -/
theorem Dev.deadline_refresh (d : Dev) (c : Clock) : (d.deadline c).slotOn = d.slotOn ∧ (d.deadline c).burstOn = true := by
  have begun : ({ d with burstOn := true } : Dev).refreshes (d.deadline c) := by
    unfold Dev.deadline
    dsimp only
    refine Dev.refreshes_trans ?_ (Dev.ended_refreshes _ _)
    refine Dev.refreshes_trans ?_ (Dev.dropBoards_refreshes _)
    refine Dev.refreshes_trans ?_ (foldl_refreshes ?_ _ _)
    · refine Dev.refreshes_trans ?_ (foldl_refreshes ?_ _ _)
      · refine Dev.refreshes_trans ?_ (foldl_refreshes ?_ _ _)
        · refine Dev.refreshes_trans ?_ (Dev.atomicsLost_refreshes _)
          refine Dev.refreshes_trans ?_ (foldl_refreshes ?_ _ _)
          · exact ⟨rfl, rfl⟩
          · exact fun d k => d.withdraw_refreshes k
        · exact fun d k => d.raise_refreshes k _
      · exact fun d x => foldl_refreshes (fun d r => d.markRange_refreshes _ r) _ d
    · exact fun d x => d.dropStream_refreshes c _ _
  exact begun

/-! ### What is served when a slot ends (R30, R355 to R371) -/

@[simp] theorem Dev.hostWrite_refreshes (d : Dev) (a : Nat) (bs : List Byte) : d.refreshes (d.hostWrite a bs) := ⟨rfl, rfl⟩

@[simp] theorem Dev.sendMsix_refreshes (d : Dev) (f v : Nat) : d.refreshes (d.sendMsix f v) := by
  unfold Dev.sendMsix
  dsimp only
  split
  · simp
  · split <;> simp

@[simp] theorem Dev.writeCq_refreshes (d : Dev) (e : CqEntry) : d.refreshes (d.writeCq e) := by
  have posted : d.refreshes (if d.cqHost e.cq then d.hostWrite (d.cqBase e.cq + 32 * (d.cq e.cq).tail) (natLe 32 (e.entry + b2n (d.cq e.cq).phase))
      else d.memStore (d.cqBase e.cq + 32 * (d.cq e.cq).tail) (natLe 32 (e.entry + b2n (d.cq e.cq).phase)) false) := by
    split
    · exact d.hostWrite_refreshes _ _
    · exact d.memStore_refreshes _ _ _
  unfold Dev.writeCq
  dsimp only
  split
  · exact Dev.refreshes_trans posted (Dev.refreshes_trans (Dev.setCq_refreshes _ _ _) (Dev.bumpKey_refreshes _ _ _))
  · exact Dev.refreshes_trans posted (Dev.setCq_refreshes _ _ _)

theorem Dev.headDoorbell_refreshes (d : Dev) (f q v : Nat) : d.refreshes (d.headDoorbell f q v) := by
  unfold Dev.headDoorbell Dev.cqVectors Dev.flushHeldCq
  split
  · exact Dev.bumpKey_refreshes _ _ _
  · refine Dev.refreshes_trans ?_ (foldl_refreshes ?_ _ _)
    · refine Dev.refreshes_trans ?_ (foldl_refreshes ?_ _ _)
      · exact ⟨rfl, rfl⟩
      · intro d e
        split
        · exact d.writeCq_refreshes e
        · exact ⟨rfl, rfl⟩
    · exact fun d kv => d.sendMsix_refreshes _ _

theorem Dev.stopStreams_refreshes (d : Dev) (c : Clock) (k : Nat) : d.refreshes (d.stopStreams c k) :=
  foldl_refreshes (fun d x => by
    split
    · split
      · simp
      · refine Dev.refreshes_trans ?_ (Dev.setStream_refreshes _ _ _ _)
        split
        · simp
        · split
          next written => exact Dev.writeState_refreshes written
          · simp
    · simp) _ d

theorem Dev.stopUnits_refreshes (d : Dev) (k : Nat) : d.refreshes (d.stopUnits k) := by
  have ended : ∀ (d : Dev) ss vs rs cs us as ps qs ds bs es gs hs ls fs xs, d.refreshes
      { d with selects := ss, valvePend := vs, rounds := rs, combines := cs, updates := us, allsums := as, packQueue := ps, reqs := qs,
               demandsOut := ds, openBulks := bs, sentBulks := es, regHeld := gs, shapeHeld := hs, links := ls, fetched := fs,
               inForce := xs } := fun _ _ _ _ _ _ _ _ _ _ _ _ _ _ _ _ _ => ⟨rfl, rfl⟩
  unfold Dev.stopUnits
  dsimp only
  refine Dev.refreshes_trans ?_ (ended _ _ _ _ _ _ _ _ _ _ _ _ _ _ _ _ _)
  refine Dev.refreshes_trans ?_ (foldl_refreshes ?_ _ _)
  · exact foldl_refreshes (fun d kv => d.updCore_refreshes _ _) _ _
  · exact fun d kv => ⟨rfl, rfl⟩

@[simp] theorem Dev.stopCtx_refreshes (d : Dev) (c : Clock) (k : Nat) : d.refreshes (d.stopCtx c k) := by
  unfold Dev.stopCtx Dev.stopSwitches
  refine Dev.refreshes_trans ?_ (foldl_refreshes ?_ _ _)
  · exact Dev.refreshes_trans (Dev.stopStreams_refreshes _ _ _) (Dev.stopUnits_refreshes _ _)
  · exact fun d kv => ⟨rfl, rfl⟩

theorem Dev.abortCtx_refreshes (d : Dev) (c : Clock) (k : Nat) : d.refreshes (d.abortCtx c k) := by
  unfold Dev.abortCtx
  dsimp only
  repeat' split
  all_goals simp

theorem Dev.ctxCommand_refreshes (d : Dev) (c : Clock) (p : Path) (bs : List Byte) : d.refreshes (d.ctxCommand c p bs) := by
  unfold Dev.ctxCommand
  dsimp only
  split
  · exact Dev.refreshes_trans (b := { d with defines := _ }) ⟨rfl, rfl⟩ (Dev.setV_refreshes _ _ _ _ _)
  · unfold Dev.removeCtx
    dsimp only
    split
    · exact Dev.setV_refreshes _ _ _ _ _
    · exact Dev.refreshes_trans (b := d.setCtx _ _) ⟨rfl, rfl⟩ (Dev.setV_refreshes _ _ _ _ _)
  · exact d.abortCtx_refreshes c _
  · unfold Dev.resumeCtx
    dsimp only
    split
    · exact Dev.refreshes_trans (b := d.setCtx _ _) ⟨rfl, rfl⟩ (Dev.setV_refreshes _ _ _ _ _)
    · exact Dev.setV_refreshes _ _ _ _ _

theorem Dev.clearLog_refreshes (d : Dev) (dom : Nat) : d.refreshes (d.clearLog dom) :=
  Dev.refreshes_trans (b := { d with logs := _, logCount := _ }) ⟨rfl, rfl⟩ (Dev.setV_refreshes _ _ _ _ _)

theorem Dev.loadRoutes_refreshes (d : Dev) : d.refreshes d.loadRoutes := by
  unfold Dev.loadRoutes
  split
  · exact ⟨rfl, rfl⟩
  · exact Dev.refreshes_trans (b := { d with routeLoad := _ }) ⟨rfl, rfl⟩ (Dev.setV_refreshes _ _ _ _ _)

theorem Dev.flashAsk_refreshes (d : Dev) (op : Nat) : d.refreshes (d.flashAsk op) := by
  unfold Dev.flashAsk
  dsimp only
  split
  · exact ⟨rfl, rfl⟩
  · split
    · exact Dev.setV_refreshes _ _ _ _ _
    · exact Dev.refreshes_trans (b := { d with flashOp := _ }) ⟨rfl, rfl⟩ (Dev.setV_refreshes _ _ _ _ _)

theorem act_refreshes (c : Clock) (d : Dev) (p : Path) (idx sub : Nat) (bs : List Byte) : d.refreshes (act c d p idx sub bs).2 := by
  unfold act
  dsimp only
  split
  · split
    · exact d.clearLog_refreshes _
    · exact ⟨rfl, rfl⟩
  · split
    case h_3 => exact d.ctxCommand_refreshes c p bs
    case h_4 => exact d.beginDrain_refreshes _
    case h_5 =>
      split
      · exact d.loadRoutes_refreshes
      · exact ⟨rfl, rfl⟩
    case h_7 => exact Dev.refreshes_trans (foldl_refreshes (fun d q => d.retrain_refreshes q) _ d) (settleUpstream_refreshes c _)
    case h_12 => exact d.flashAsk_refreshes _
    case h_2 | h_8 | h_9 => split <;> exact ⟨rfl, rfl⟩
    all_goals exact ⟨rfl, rfl⟩

theorem Dev.writeNow_refreshes (d : Dev) (idx sub : Nat) (els : List (Nat × Nat)) : d.refreshes (d.writeNow idx sub els) := by
  unfold Dev.writeNow
  split
  · refine foldl_refreshes (fun _ _ => ?_) els d
    exact ⟨rfl, rfl⟩
  · exact foldl_refreshes (fun d x => d.setV_refreshes _ _ _ _) els d

theorem Dev.writePending_refreshes (d : Dev) (c : Clock) (idx sub : Nat) (els : List (Nat × Nat)) : d.refreshes (d.writePending c idx sub els) :=
  foldl_refreshes (fun d x => by
    dsimp only
    split <;> exact ⟨rfl, rfl⟩) els d

theorem performRead_refreshes (c : Clock) (d : Dev) (e : Entry) (h : Nat) : d.refreshes (performRead c d e h).dev := by
  unfold performRead refuse
  split
  · simp
  · split
    · simp
    · refine foldl_refreshes (fun d el => ?_) _ d
      unfold Dev.stirElem
      dsimp only
      split <;> exact ⟨rfl, rfl⟩

theorem performWrite_refreshes (c : Clock) (d : Dev) (p : Path) (e : Entry) (h : Nat) (data : List Byte) :
    d.refreshes (performWrite c d p e h data).dev := by
  unfold performWrite refuse
  dsimp only
  split
  · simp
  · split
    · simp
    · split
      · simp
      · split
        · simp
        · split
          · simp
          · split
            · exact d.writeNow_refreshes _ _ _
            · exact d.writePending_refreshes c _ _ _
            · exact act_refreshes c d p _ _ _

theorem performHere_refreshes (c : Clock) (d : Dev) (p : Path) (h : Nat) (data : List Byte) (ecc : List EccFinding) :
    d.refreshes (performHere c d p h data ecc).dev := by
  unfold performHere refuse
  dsimp only
  split
  · simp
  · split
    · exact Dev.bumpKey_refreshes _ _ _
    · split
      · unfold performMemRead refuse
        dsimp only
        split <;> simp
      · split
        · unfold performMemWrite refuse
          dsimp only
          split
          · simp
          · split <;> simp
        · split
          · simp
          · split
            · exact performRead_refreshes c d _ h
            · exact performWrite_refreshes c d p _ h data
            · unfold performDescribe refuse
              split <;> simp

theorem perform_refreshes (c : Clock) (d : Dev) (p : Path) (h : Nat) (data : List Byte) (ecc : List EccFinding) :
    d.refreshes (perform c d p h data ecc).dev := by
  unfold perform refuse
  split
  · simp
  · split
    · exact Dev.bumpKey_refreshes _ _ _
    · simp
    · exact performHere_refreshes c d p h data ecc

theorem Dev.deliver_refreshes (d : Dev) (c : Clock) (p : Path) (hdr : Nat) (data : List Byte) : d.refreshes (d.deliver c p hdr data) := by
  have done : ∀ f, d.refreshes (d.mbxDone f hdr data) := fun f => by
    unfold Dev.mbxDone
    dsimp only
    split <;> simp
  cases p
  · exact done 0
  · exact done _
  · exact ⟨rfl, rfl⟩
  · exact d.sendMgmt_refreshes c _ _

theorem serve_refreshes (c : Clock) (d : Dev) (p : Path) (h : Nat) (data : List Byte) (ecc : List EccFinding) :
    d.refreshes (serve c d p h data ecc).2 := by
  have counted := d.bumpKey_refreshes (ctr 0x80E0 1 (pathCount p)) 1
  unfold serve
  dsimp only
  split
  · exact Dev.refreshes_trans counted (Dev.refreshes_trans (Dev.bumpKey_refreshes _ _ _) (Dev.deliver_refreshes _ _ _ _ _))
  · refine Dev.refreshes_trans counted ?_
    split
    · exact Dev.refreshes_trans (Dev.setReg_refreshes _ _ _) (Dev.sendMgmt_refreshes _ _ _ _)
    · unfold answer
      dsimp only
      refine Dev.refreshes_trans ?_ (Dev.deliver_refreshes _ _ _ _ _)
      split
      · exact Dev.refreshes_trans (perform_refreshes _ _ _ _ _ _) (Dev.kept_refreshes _ _)
      · exact perform_refreshes _ _ _ _ _ _

theorem serveQueue_refreshes (n : Nat) (c : Clock) (d : Dev) : d.refreshes (serveQueue n c d).2 := by
  induction n generalizing c d with
  | zero => exact ⟨rfl, rfl⟩
  | succ n ih =>
    unfold serveQueue
    split
    · exact ⟨rfl, rfl⟩
    · split
      · exact ⟨rfl, rfl⟩
      · exact Dev.refreshes_trans (Dev.refreshes_trans (Dev.reqQueue_refreshes _ _) (serve_refreshes _ _ _ _ _ _)) (ih _ _)

theorem doorbell_refreshes (c : Clock) (d : Dev) (f : Nat) (ecc : List EccFinding) : d.refreshes (doorbell c d f ecc).2 := by
  unfold doorbell arrive
  dsimp only
  split
  · exact Dev.bumpKey_refreshes _ _ _
  · refine Dev.refreshes_trans (Dev.setReg_refreshes d f { d.reg f with state := 1 }) ?_
    split
    · split
      · exact Dev.bumpKey_refreshes _ _ _
      · exact Dev.refreshes_trans (Dev.reqQueue_refreshes _ _) (serveQueue_refreshes _ _ _)
    · exact ⟨rfl, rfl⟩

theorem regWord_refreshes (c : Clock) (d : Dev) (f off v : Nat) : d.refreshes (regWord c d f off v).2 := by
  unfold regWord Dev.unmasked Dev.tailDoorbell
  dsimp only
  repeat' split
  case isTrue.isTrue => exact doorbell_refreshes c d f []
  all_goals first | exact ⟨rfl, rfl⟩ | exact Dev.bumpKey_refreshes _ _ _ | exact Dev.headDoorbell_refreshes _ _ _ _

theorem hostAccess_refreshes (c : Clock) (d : Dev) (i : Instr) : d.refreshes (hostAccess c d i).2 := by
  unfold hostAccess
  split
  · unfold Dev.hostBar2Read
    dsimp only
    split
    · exact Dev.refreshes_trans (Dev.bumpKey_refreshes _ _ _) (Dev.emit_refreshes _ _)
    · exact Dev.refreshes_trans (Dev.eccAll_refreshes _ _ _ _) ⟨rfl, rfl⟩
  · unfold hostBar2Write
    dsimp only
    split
    · exact Dev.bumpKey_refreshes _ _ _
    · split
      · unfold regWrite
        dsimp only
        repeat' split
        · simp
        · exact foldl_refreshes_clocked (fun r x => regWord_refreshes _ _ _ _ _) _ _
        · exact ⟨rfl, rfl⟩
        · simp
      · refine Dev.refreshes_trans (Dev.refreshes_trans ?_ (foldl_refreshes ?_ _ _)) ⟨rfl, rfl⟩
        · unfold Dev.hostStoreCistern
          split
          · simp
          · exact d.memStore_refreshes _ _ _
        · intro d x
          unfold Dev.hostStoreByte
          repeat' split
          all_goals exact ⟨rfl, rfl⟩
  · simp

/-- When what waited for a slot has been served, none runs. -/
theorem slotOver_refresh (c : Clock) (d : Dev) : (slotOver c d).2.slotOn = false :=
  (foldl_refreshes_clocked (fun r i => hostAccess_refreshes r.1 r.2 i) _ _).1.trans
    (serveQueue_refreshes d.reqQueue.length c { d with slotOn := false, slotHeld := [] }).1

end Sys2Proof.Machine
end

section
/-! PROOFS. The deadline, the burst's end and the end of the skew guard (R33 to R35, R95, R137, R254, R375). -/

namespace Sys2Proof.Machine

/-! ### Queues at the deadline (R375) -/

/-- What holds of a map's default and of every value that is put in, holds at every key. -/
theorem SMap.get_foldl_put_of {α β : Type} [DecidableEq α] (dflt : Nat → α) (P : α → Prop) (key : β → Nat) (f : β → α) (put : ∀ x, P (f x))
    (l : List β) (m : SMap α) (kept : ∀ k, P (SMap.get dflt m k)) (k : Nat) :
    P (SMap.get dflt (l.foldl (fun m x => SMap.put dflt m (key x) (f x)) m) k) := by
  induction l generalizing m with
  | nil => exact kept k
  | cons x l ih =>
    refine ih _ fun j => ?_
    rw [SMap.get_put]
    split
    · exact put x
    · exact kept j

theorem Dev.sampleTails_sampled (d : Dev) (n q : Nat) :
    (SMap.get (fun _ => {}) (d.sampleTails n) q).sampled = (SMap.get (fun _ => {}) (d.sampleTails n) q).tail :=
  SMap.get_foldl_put_of _ (fun r : SqRun => r.sampled = r.tail) Prod.fst _ (fun _ => rfl) d.sqs [] (fun _ => rfl) q

/-- The device with every queue's tail sampled, and no request, demand, bulk transfer or fetch open. -/
def Dev.ended (d : Dev) (n : Nat) : Dev :=
  { d with sqs := d.sampleTails n, reqs := [], demandsOut := [], openBulks := [], sentBulks := [], fetched := [] }

theorem Dev.deadline_ended (d : Dev) (c : Clock) : ∃ e : Dev, d.deadline c = e.ended c.stroke := by
  unfold Dev.deadline
  exact ⟨Dev.dropBoards _, rfl⟩

theorem Dev.deadline_ends (d : Dev) (c : Clock) : (d.deadline c).reqs = [] ∧ (d.deadline c).demandsOut = [] ∧ (d.deadline c).openBulks = [] ∧
    (d.deadline c).sentBulks = [] ∧ (d.deadline c).fetched = [] ∧ ∀ q, ((d.deadline c).sq q).sampled = ((d.deadline c).sq q).tail := by
  obtain ⟨e, eq⟩ := d.deadline_ended c
  rw [eq]
  exact ⟨rfl, rfl, rfl, rfl, rfl, fun q => e.sampleTails_sampled _ q⟩

/-! ### The burst (R35) -/

theorem Dev.memStore_queued {d : Dev} (burst : d.burstOn = true) (a : Nat) (bs : List Byte) (p : Bool) :
    d.memStore a bs p = { d with storeQueue := d.storeQueue ++ [(a, bs, p)] } := by
  rw [Dev.memStore, if_pos burst]

theorem Dev.countPartial_mem (d : Dev) (a n : Nat) : (d.countPartial a n).mem = d.mem :=
  foldl_keeps Dev.mem (fun d l => by split <;> simp) _ d

theorem Dev.memStore_written {d : Dev} (quiet : d.burstOn = false) (a : Nat) (bs : List Byte) (p : Bool) :
    (d.memStore a bs p).mem = d.mem.write a bs p := by
  rw [Dev.memStore, if_neg (by simp [quiet]), Dev.countPartial_mem]

/-- Stores outside a burst are written one after another. -/
theorem Dev.foldl_memStore (l : List (Nat × List Byte × Bool)) {d : Dev} (quiet : d.burstOn = false) :
    (l.foldl (fun d x => d.memStore x.1 x.2.1 x.2.2) d).burstOn = false ∧
    (l.foldl (fun d x => d.memStore x.1 x.2.1 x.2.2) d).mem = l.foldl (fun m x => m.write x.1 x.2.1 x.2.2) d.mem := by
  induction l generalizing d with
  | nil => exact ⟨quiet, rfl⟩
  | cons x l ih =>
    have kept := (d.memStore_refreshes x.1 x.2.1 x.2.2).2.trans quiet
    rw [List.foldl_cons, List.foldl_cons, ← Dev.memStore_written quiet]
    exact ih kept

theorem Dev.burstEnd_writes (d : Dev) : d.burstEnd.burstOn = false ∧ d.burstEnd.mem = d.memNow :=
  Dev.foldl_memStore d.storeQueue (d := { d with burstOn := false, storeQueue := [] }) rfl

theorem Dev.memNow_queued (d : Dev) (a : Nat) (bs : List Byte) (p : Bool) :
    ({ d with storeQueue := d.storeQueue ++ [(a, bs, p)] } : Dev).memNow = d.memNow.write a bs p := by
  simp [Dev.memNow]

/-! ### The end of the skew guard (R34) -/

/-- `e` has the memory, the valves and the commands of `d`, and the same work in its Tridal and collective units. -/
@[simp] abbrev Dev.clears (d e : Dev) : Prop :=
  e.mem = d.mem ∧ e.valves = d.valves ∧ e.inForce = d.inForce ∧ e.rounds = d.rounds ∧ e.selects = d.selects ∧ e.allsums = d.allsums

theorem Dev.clears_trans {a b c : Dev} (h : a.clears b) (k : b.clears c) : a.clears c := by
  obtain ⟨h1, h2, h3, h4, h5, h6⟩ := h
  obtain ⟨k1, k2, k3, k4, k5, k6⟩ := k
  exact ⟨k1.trans h1, k2.trans h2, k3.trans h3, k4.trans h4, k5.trans h5, k6.trans h6⟩

theorem foldl_clears {β : Type} {f : Dev → β → Dev} (keeps : ∀ (d : Dev) x, d.clears (f d x)) (l : List β) (d : Dev) :
    d.clears (l.foldl f d) := by
  induction l generalizing d with
  | nil => exact ⟨rfl, rfl, rfl, rfl, rfl, rfl⟩
  | cons x l ih => exact Dev.clears_trans (keeps d x) (ih _)

theorem Dev.bumpKey_clears (d : Dev) (k n : Nat) : d.clears (d.bumpKey k n) := ⟨rfl, rfl, rfl, rfl, rfl, rfl⟩

theorem Dev.updCore_clears (d : Dev) (k : Nat) (f : Core → Core) : d.clears (d.updCore k f) := ⟨rfl, rfl, rfl, rfl, rfl, rfl⟩

theorem Dev.updCluster_clears (d : Dev) (k : Nat) (f : Cluster → Cluster) : d.clears (d.updCluster k f) := ⟨rfl, rfl, rfl, rfl, rfl, rfl⟩

theorem Dev.setHq_clears (d : Dev) (k : Nat) (q : HQueue) : d.clears (d.setHq k q) := ⟨rfl, rfl, rfl, rfl, rfl, rfl⟩

theorem Dev.release_clears (d : Dev) (k h : Nat) : d.clears (d.release k h) := by
  have raised : d.clears (d.raise k .handleInvalid) := by
    obtain ⟨_, _, same⟩ := d.raiseAt_same k .handleInvalid 0 .none 0
    rw [Dev.raise, same]
    exact ⟨rfl, rfl, rfl, rfl, rfl, rfl⟩
  unfold Dev.release Dev.freeBucket
  dsimp only
  repeat' split
  all_goals simp [raised]

/-- A handle that a queue or a register still holds is released, and counted. -/
theorem Dev.releaseCounted_clears (d : Dev) (k h idx sub el : Nat) :
    d.clears ((if d.handleOk k h then d.release k h else d).bump idx sub el 1) := by
  refine Dev.clears_trans ?_ (Dev.bumpKey_clears _ _ _)
  split
  · exact d.release_clears k h
  · exact ⟨rfl, rfl, rfl, rfl, rfl, rfl⟩

theorem Dev.clearQueues_clears (d : Dev) : d.clears d.clearQueues := by
  refine foldl_clears (fun d _ => ?_) _ d
  refine Dev.clears_trans ?_ (Dev.setHq_clears _ _ _)
  exact foldl_clears (fun d h => d.releaseCounted_clears _ h _ _ _) _ d

theorem Dev.clearHregs_clears (d : Dev) (k : Nat → Nat) : d.clears (d.clearHregs k) := by
  refine foldl_clears (fun d _ => ?_) _ d
  refine Dev.clears_trans ?_ (Dev.updCore_clears _ _ _)
  exact foldl_clears (fun d (r : Nat × Nat) => d.releaseCounted_clears _ r.2 _ _ _) _ d

theorem Dev.clearTridal_ends (d : Dev) : d.clearTridal.mem = d.mem ∧ d.clearTridal.valves = d.valves ∧ d.clearTridal.inForce = d.inForce ∧
    d.clearTridal.rounds = [] ∧ d.clearTridal.selects = [] := by
  obtain ⟨mem, valves, inForce, -⟩ := foldl_clears (fun d (kv : Nat × Cluster) => d.updCluster_clears kv.1 fun k => { k with combines := [] })
    d.clusters d
  unfold Dev.clearTridal
  simp only [Dev.bump_mem, Dev.bump_valves, Dev.bump_inForce, Dev.bump_rounds, Dev.bump_selects, mem, valves, inForce, and_self]

/-- A core without a plan, and with nothing of the engines under way. -/
def Core.stopped (co : Core) : Prop := co.run = none ∧ co.waiting = [] ∧ co.board = [] ∧ co.rects = [] ∧ co.session = none ∧
  co.seqDone = [] ∧ co.valveWait = none ∧ co.queueWaits = false

theorem Core.stopped_empty : ({} : Core).stopped := ⟨rfl, rfl, rfl, rfl, rfl, rfl, rfl, rfl⟩

/-- What holds of a core that `f` has changed, and of every core that is not listed, holds of every core when all have been gone through. -/
theorem Dev.core_foldl_updCore {β : Type} {f : Core → Core} {P : Core → Prop} (done : ∀ co, P (f co)) (key : β → Nat) (c : Nat)
    (l : List β) (d : Dev) (rest : P (d.core c) ∨ c ∈ l.map key) : P ((l.foldl (fun d x => d.updCore (key x) f) d).core c) := by
  induction l generalizing d with
  | nil => exact rest.resolve_right (by simp)
  | cons x l ih =>
    refine ih _ ?_
    by_cases same : c = key x
    · rw [same, Dev.core_updCore_self]
      exact .inl (done _)
    · rw [Dev.core_updCore_other _ _ _ _ same]
      exact rest.imp_right fun listed => (List.mem_cons.1 listed).resolve_left same

theorem Dev.cluster_updCluster_self (d : Dev) (cl : Nat) (f : Cluster → Cluster) : (d.updCluster cl f).cluster cl = f (d.cluster cl) :=
  Dev.cluster_setCluster_self d cl _

theorem Dev.cluster_updCluster_other (d : Dev) {cl k : Nat} (other : k ≠ cl) (f : Cluster → Cluster) :
    (d.updCluster cl f).cluster k = d.cluster k :=
  Dev.cluster_setCluster_other d cl k _ other

theorem Dev.cluster_foldl_updCluster {β : Type} {f : Cluster → Cluster} {P : Cluster → Prop} (done : ∀ x, P (f x)) (key : β → Nat) (cl : Nat)
    (l : List β) (d : Dev) (rest : P (d.cluster cl) ∨ cl ∈ l.map key) :
    P ((l.foldl (fun d x => d.updCluster (key x) f) d).cluster cl) := by
  induction l generalizing d with
  | nil => exact rest.resolve_right (by simp)
  | cons x l ih =>
    refine ih _ ?_
    by_cases same : cl = key x
    · rw [same, Dev.cluster_updCluster_self]
      exact .inl (done _)
    · rw [Dev.cluster_updCluster_other _ same]
      exact rest.imp_right fun listed => (List.mem_cons.1 listed).resolve_left same

theorem SMap.default_or_listed {α : Type} {P : α → Prop} {dflt : α} (empty : P dflt) (m : SMap α) (k : Nat) :
    P (SMap.get (fun _ => dflt) m k) ∨ k ∈ m.map Prod.fst := by
  rcases SMap.get_default_or_mem (fun _ => dflt) m k with default | listed
  · exact .inl (by rw [default]; exact empty)
  · exact .inr (List.mem_map.2 ⟨_, listed, rfl⟩)

/-- What a change of every listed core, or of some cores, keeps of each, it keeps of all. -/
theorem Dev.core_foldl_updCore_keeps {β : Type} {f : Core → Core} {P : Core → Prop} (keeps : ∀ co, P co → P (f co)) (key : β → Nat) (c : Nat)
    (l : List β) (d : Dev) (has : P (d.core c)) : P ((l.foldl (fun d x => d.updCore (key x) f) d).core c) := by
  induction l generalizing d with
  | nil => exact has
  | cons x l ih =>
    refine ih _ ?_
    by_cases same : c = key x
    · rw [same, Dev.core_updCore_self]
      exact keeps _ (same ▸ has)
    · rwa [Dev.core_updCore_other _ _ _ _ same]

theorem Dev.cluster_foldl_updCluster_keeps {β : Type} {f : Cluster → Cluster} {P : Cluster → Prop} (keeps : ∀ x, P x → P (f x)) (key : β → Nat)
    (cl : Nat) (l : List β) (d : Dev) (has : P (d.cluster cl)) : P ((l.foldl (fun d x => d.updCluster (key x) f) d).cluster cl) := by
  induction l generalizing d with
  | nil => exact has
  | cons x l ih =>
    refine ih _ ?_
    by_cases same : cl = key x
    · rw [same, Dev.cluster_updCluster_self]
      exact keeps _ (same ▸ has)
    · rwa [Dev.cluster_updCluster_other _ same]

theorem Dev.cores_foldl_updCluster {β : Type} (f : Cluster → Cluster) (key : β → Nat) (l : List β) (d : Dev) :
    (l.foldl (fun d x => d.updCluster (key x) f) d).cores = d.cores := by
  refine foldl_keeps Dev.cores (fun _ _ => ?_) l d
  rfl

theorem Dev.clusters_foldl_updCore {β : Type} (f : Core → Core) (key : β → Nat) (l : List β) (d : Dev) :
    (l.foldl (fun d x => d.updCore (key x) f) d).clusters = d.clusters := by
  refine foldl_keeps Dev.clusters (fun _ _ => ?_) l d
  rfl

/-- Every core stops. -/
def Dev.stopCores (d : Dev) : Dev := d.cores.foldl (fun d kv => d.updCore kv.1 fun co =>
  { co with run := none, waiting := [], board := [], rects := [], session := none, signalAsked := none, poolWait := false
            seqDone := [], valveWait := none, queueWaits := false }) d

/-- Every translation cache is emptied. -/
def Dev.tlbsEmpty (d : Dev) : Dev := d.clusters.foldl (fun d kv => d.updCluster kv.1 fun x => { x with tlb := [] }) d

theorem Dev.stopCores_stopped (d : Dev) (c : Nat) : (d.stopCores.core c).stopped :=
  Dev.core_foldl_updCore (P := Core.stopped) (fun _ => ⟨rfl, rfl, rfl, rfl, rfl, rfl, rfl, rfl⟩) Prod.fst c d.cores d
    (SMap.default_or_listed (P := Core.stopped) Core.stopped_empty d.cores c)

theorem Dev.tlbsEmpty_tlb (d : Dev) (cl : Nat) : (d.tlbsEmpty.cluster cl).tlb = [] :=
  Dev.cluster_foldl_updCluster (P := fun x => x.tlb = []) (fun _ => rfl) Prod.fst cl d.clusters d
    (SMap.default_or_listed (P := fun x : Cluster => x.tlb = []) rfl d.clusters cl)

/-- The caches of the first `n` clusters are emptied. -/
def Dev.sharedEmpty (d : Dev) (n : Nat) : Dev := (List.range n).foldl (fun d cl => d.updCluster cl fun k => { k with cache := [] }) d

/-- The data caches of the first `n` cores are emptied. -/
def Dev.dataEmpty (d : Dev) (n : Nat) : Dev := (List.range n).foldl (fun d co => d.updCore co fun x => { x with dcache := [] }) d

theorem Dev.cachesEmpty_eq (d : Dev) : d.cachesEmpty = (d.sharedEmpty 32).dataEmpty 256 := rfl

theorem Dev.core_sharedEmpty (d : Dev) (n c : Nat) : (d.sharedEmpty n).core c = d.core c := by
  have same : (d.sharedEmpty n).cores = d.cores := Dev.cores_foldl_updCluster _ id _ d
  rw [Dev.core, same, Dev.core]

theorem Dev.cluster_dataEmpty (d : Dev) (n cl : Nat) : (d.dataEmpty n).cluster cl = d.cluster cl := by
  have same : (d.dataEmpty n).clusters = d.clusters := Dev.clusters_foldl_updCore _ id _ d
  rw [Dev.cluster, same, Dev.cluster]

theorem Dev.dataEmpty_stopped {d : Dev} {c : Nat} (stopped : (d.core c).stopped) (n : Nat) : ((d.dataEmpty n).core c).stopped := by
  refine Dev.core_foldl_updCore_keeps (P := Core.stopped) ?_ id c _ d stopped
  exact fun _ => id

theorem Dev.dataEmpty_dcache (d : Dev) {n c : Nat} (low : c < n) : ((d.dataEmpty n).core c).dcache = [] :=
  Dev.core_foldl_updCore (P := fun co => co.dcache = []) (fun _ => rfl) id c _ d (.inr (by simpa using low))

theorem Dev.sharedEmpty_tlb {d : Dev} {cl : Nat} (empty : (d.cluster cl).tlb = []) (n : Nat) : ((d.sharedEmpty n).cluster cl).tlb = [] := by
  refine Dev.cluster_foldl_updCluster_keeps (P := fun x => x.tlb = []) ?_ id cl _ d empty
  exact fun _ => id

theorem Dev.sharedEmpty_cache (d : Dev) {n cl : Nat} (low : cl < n) : ((d.sharedEmpty n).cluster cl).cache = [] :=
  Dev.cluster_foldl_updCluster (P := fun x => x.cache = []) (fun _ => rfl) id cl _ d (.inr (by simpa using low))

theorem Dev.cachesEmpty_clears (d : Dev) : d.clears d.cachesEmpty := by
  rw [Dev.cachesEmpty_eq]
  refine Dev.clears_trans (b := d.sharedEmpty 32) ?_ ?_
  · exact foldl_clears (fun d _ => d.updCluster_clears _ _) _ d
  · exact foldl_clears (fun d _ => d.updCore_clears _ _) _ _

/-- The device when its Tridal units, its collective nodes, its queues and its handle registers have been cleared. -/
def Dev.unitsEmptied (d : Dev) : Dev :=
  d.clearTridal.clearColl.clearQueues.clearHregs fun core => (d.cluster (core / 8)).holder.getD 4096

theorem Dev.clearColl_ends (d : Dev) : d.clearColl.mem = d.mem ∧ d.clearColl.valves = d.valves ∧ d.clearColl.inForce = d.inForce ∧
    d.clearColl.rounds = d.rounds ∧ d.clearColl.selects = d.selects ∧ d.clearColl.allsums = [] := ⟨rfl, rfl, rfl, rfl, rfl, rfl⟩

theorem Dev.unitsEmptied_ends (d : Dev) : d.unitsEmptied.mem = d.mem ∧ d.unitsEmptied.valves = d.valves ∧ d.unitsEmptied.inForce = d.inForce ∧
    d.unitsEmptied.rounds = [] ∧ d.unitsEmptied.selects = [] ∧ d.unitsEmptied.allsums = [] := by
  obtain ⟨mem, valves, inForce, rounds, selects⟩ := d.clearTridal_ends
  obtain ⟨mem2, valves2, inForce2, rounds2, selects2, allsums2⟩ :=
    Dev.clears_trans (Dev.clearQueues_clears d.clearTridal.clearColl) (Dev.clearHregs_clears _ fun core => (d.cluster (core / 8)).holder.getD 4096)
  obtain ⟨mem1, valves1, inForce1, rounds1, selects1, allsums1⟩ := d.clearTridal.clearColl_ends
  exact ⟨mem2.trans (mem1.trans mem), valves2.trans (valves1.trans valves), inForce2.trans (inForce1.trans inForce),
    rounds2.trans (rounds1.trans rounds), selects2.trans (selects1.trans selects), allsums2.trans allsums1⟩

/-- What the end of the skew guard clears of the gateways, the valves and the update units. -/
def Dev.gatesCleared (d : Dev) : Dev :=
  { d with updates := [], updLast := [], valvePend := [], atomicTop := [], respCaches := [], atomicNext := [], bulkNext := [], bulkSeen := []
           bulkHeld := [], badPages := [], regHeld := [], shapeHeld := [] }

theorem Dev.clearUnits_eq (d : Dev) : d.clearUnits = d.unitsEmptied.stopCores.tlbsEmpty.cachesEmpty.gatesCleared := rfl

theorem Dev.cachesEmptied_clears (d : Dev) : d.clears d.stopCores.tlbsEmpty.cachesEmpty := by
  refine Dev.clears_trans (Dev.clears_trans (b := d.stopCores) ?_ ?_) (Dev.cachesEmpty_clears _)
  · exact foldl_clears (fun d _ => d.updCore_clears _ _) _ d
  · exact foldl_clears (fun d _ => d.updCluster_clears _ _) _ _

theorem Dev.core_tlbsEmpty (d : Dev) (c : Nat) : d.tlbsEmpty.core c = d.core c := by
  rw [Dev.core, Dev.tlbsEmpty, Dev.cores_foldl_updCluster _ Prod.fst, Dev.core]

theorem Dev.core_gatesCleared (d : Dev) (c : Nat) : d.gatesCleared.core c = d.core c := rfl

theorem Dev.cluster_gatesCleared (d : Dev) (cl : Nat) : d.gatesCleared.cluster cl = d.cluster cl := rfl

theorem Dev.clearUnits_core (d : Dev) (c : Nat) : (d.clearUnits.core c).stopped ∧ (c < 256 → (d.clearUnits.core c).dcache = []) := by
  rw [Dev.clearUnits_eq, Dev.core_gatesCleared, Dev.cachesEmpty_eq]
  refine ⟨Dev.dataEmpty_stopped ?_ 256, Dev.dataEmpty_dcache _⟩
  rw [Dev.core_sharedEmpty, Dev.core_tlbsEmpty]
  exact Dev.stopCores_stopped _ c

theorem Dev.clearUnits_cluster (d : Dev) (cl : Nat) : (d.clearUnits.cluster cl).tlb = [] ∧ (cl < 32 → (d.clearUnits.cluster cl).cache = []) := by
  rw [Dev.clearUnits_eq, Dev.cluster_gatesCleared, Dev.cachesEmpty_eq, Dev.cluster_dataEmpty]
  exact ⟨Dev.sharedEmpty_tlb (Dev.tlbsEmpty_tlb _ cl) 32, Dev.sharedEmpty_cache _⟩

theorem Dev.gatesCleared_clears (d : Dev) : d.clears d.gatesCleared := ⟨rfl, rfl, rfl, rfl, rfl, rfl⟩

theorem Dev.clearUnits_ends (d : Dev) : d.clearUnits.rounds = [] ∧ d.clearUnits.selects = [] ∧ d.clearUnits.allsums = [] ∧
    d.clearUnits.mem = d.mem ∧ d.clearUnits.valves = d.valves ∧ d.clearUnits.inForce = d.inForce := by
  obtain ⟨mem, valves, inForce, rounds, selects, allsums⟩ := d.unitsEmptied_ends
  obtain ⟨mem2, valves2, inForce2, rounds2, selects2, allsums2⟩ :=
    Dev.clears_trans d.unitsEmptied.cachesEmptied_clears (Dev.gatesCleared_clears _)
  rw [Dev.clearUnits_eq]
  exact ⟨rounds2.trans rounds, selects2.trans selects, allsums2.trans allsums, mem2.trans mem, valves2.trans valves, inForce2.trans inForce⟩

theorem Dev.gatesCleared_ends (d : Dev) : d.gatesCleared.updates = [] ∧ d.gatesCleared.respCaches = [] ∧ d.gatesCleared.bulkHeld = [] ∧
    d.gatesCleared.valvePend = [] ∧ d.gatesCleared.regHeld = [] ∧ d.gatesCleared.shapeHeld = [] := ⟨rfl, rfl, rfl, rfl, rfl, rfl⟩

end Sys2Proof.Machine

open Sys2Proof.Machine
namespace Sys2Proof

/-- Settles O9: the deadline by the frame of the refresh marks, the burst by induction over the stores that wait, and the end of the skew
guard by what each of its sweeps leaves of a core and of a cluster. -/
theorem deadlineAndSkewGuardEndWhatIsUnderWay : Obligations.DeadlineAndSkewGuardEndWhatIsUnderWay := by
  refine ⟨fun s turn => ?_, fun d a bs p burst => ?_, fun s turn => ?_⟩
  · obtain ⟨slot, burst⟩ := (slotsEnded s.clk s.dev).2.deadline_refresh (slotsEnded s.clk s.dev).1
    have ended : (slotsEnded s.clk s.dev).2.slotOn = false := by
      unfold slotsEnded
      split
      · exact slotOver_refresh s.clk s.dev
      next off => simpa using off
    rw [exec_deadline, turnoverEvent_at turn]
    obtain ⟨reqs, demands, opened, sent, fetched, sampled⟩ := (slotsEnded s.clk s.dev).2.deadline_ends (slotsEnded s.clk s.dev).1
    refine ⟨_, rfl, ?_⟩
    dsimp only
    exact ⟨slot.trans ended, burst, reqs, demands, opened, sent, fetched, sampled, rfl⟩
  · rw [Dev.memStore_queued burst]
    have queued := d.memNow_queued a bs p
    exact ⟨rfl, queued, (Dev.burstEnd_writes _).2.trans queued, d.burstEnd_writes.1, d.burstEnd_writes.2⟩
  · obtain ⟨rounds, selects, allsums, mem, valves, inForce⟩ := s.dev.clearUnits_ends
    rw [exec_skewGuardEnd, turnoverEvent_at turn]
    obtain ⟨updates, resp, bulk, pend, reg, shape⟩ := s.dev.unitsEmptied.stopCores.tlbsEmpty.cachesEmpty.gatesCleared_ends
    rw [← Dev.clearUnits_eq] at updates resp bulk pend reg shape
    refine ⟨_, rfl, ?_⟩
    dsimp only
    exact ⟨fun c => (s.dev.clearUnits_core c).1, fun c => (s.dev.clearUnits_core c).2, fun cl => (s.dev.clearUnits_cluster cl).1,
      fun cl => (s.dev.clearUnits_cluster cl).2, rounds, selects, allsums, updates, resp, bulk, pend, reg, shape, mem, valves,
      inForce⟩

end Sys2Proof
end

section
/-! PROOFS. What requests and host accesses do: the actions of the write-only entries (R29, R306, R350, R393 to R398), MEM_READ and MEM_WRITE
(R360), and BAR 2 (R371, R381). -/

namespace Sys2Proof.Machine

/-! ### MEM_READ and MEM_WRITE (R360, R361) -/

section
variable {s : State} {p : Path} {h : Nat} {data : List Byte} (req : s.Req p h data) (c : Clock) (ecc : List EccFinding)
include req

theorem performHere_memRead (op : rqOp h = 4) : performHere c (s.dev.received p h data) p h (s.dev.heard p h data) ecc =
    performMemRead c (s.dev.received p h data) h ecc := by
  have may := op ▸ req.may
  simp [performHere, req.unbarred, may, op]

theorem performHere_memWrite (op : rqOp h = 5) : performHere c (s.dev.received p h data) p h (s.dev.heard p h data) ecc =
    performMemWrite c (s.dev.received p h data) h (s.dev.heard p h data) := by
  have may := op ▸ req.may
  simp [performHere, req.unbarred, may, op]

end

theorem performMemRead_open {d : Dev} {h : Nat} (reached : d.memBar (rqOffset h) (rqLength h) = none) (c : Clock) (ecc : List EccFinding) :
    performMemRead c d h ecc = ⟨c, d.eccAll c none ecc,
      if (d.eccAll c none ecc).memNow.anyPoison (rqOffset h) (rqLength h) then some .valuePoisoned else none,
      (d.eccAll c none ecc).memNow.read (rqOffset h) (rqLength h)⟩ := by
  unfold performMemRead
  dsimp only
  rw [reached]

theorem performMemWrite_open {d : Dev} {h : Nat} {data : List Byte} (reached : d.memBar (rqOffset h) (rqLength h) = none)
    (whole : (data.take (rqLength h)).length = rqLength h) (c : Clock) :
    performMemWrite c d h data = ⟨c, d.memStore (rqOffset h) (data.take (rqLength h)) false, none, []⟩ := by
  unfold performMemWrite
  dsimp only
  rw [reached]
  dsimp only
  rw [if_neg (by simp [whole])]

/-! ### Actions (R355) -/

section
variable (c : Clock) (d : Dev) (p : Path) (bs : List Byte)

theorem act_periodChange : act c d p 0x2000 2 bs =
    ({ c with pendingPeriod := some (leNat (bs.take 4), leNat (bs.drop 4)) }, d) := by
  unfold act
  rw [if_neg (by decide)]
  rfl

theorem act_deviceReset (one : leNat bs = 1) : act c d p 0x2040 1 bs =
    (c, { d with resetAsked := true }) := by
  unfold act
  rw [if_neg (by decide)]
  exact congrArg (Prod.mk c) (if_pos one)

theorem act_ctxCommand : act c d p 0x3000 2 bs =
    (c, d.ctxCommand c p bs) := by
  unfold act
  rw [if_neg (by decide)]
  rfl

theorem act_domainDrain : act c d p 0x4000 5 bs =
    (c, d.beginDrain (leNat bs % 4096)) := by
  unfold act
  rw [if_neg (by decide)]
  rfl

theorem act_routeLoad (one : leNat bs = 1) : act c d p 0x4010 2 bs =
    (c, d.loadRoutes) := by
  unfold act
  rw [if_neg (by decide)]
  exact congrArg (Prod.mk c) (if_pos one)

theorem act_epochChange : act c d p 0x4010 4 bs =
    (c, { d with epochDue := some (leNat (bs.take 1), leNat (bs.drop 1)) }) := by
  unfold act
  rw [if_neg (by decide)]
  rfl

theorem act_portRetrain : act c d p 0x4030 2 bs =
    settleUpstream c ((bitsOf 32 (leNat bs)).foldl (fun d q => d.retrain q) d) := by
  unfold act
  rw [if_neg (by decide)]
  rfl

theorem act_lsClear (one : leNat bs = 1) : act c d p 0x7100 0xB bs =
    (c, { d with ls := { d.ls with firstStroke := 0, firstClusters := 0, diverged := false } }) := by
  unfold act
  rw [if_neg (by decide)]
  exact congrArg (Prod.mk c) (if_pos one)

theorem act_seqDropsClear (one : leNat bs = 1) : act c d p 0x8060 0xC bs =
    (c, d.clearSeqDrops) := by
  unfold act
  rw [if_neg (by decide)]
  exact congrArg (Prod.mk c) (if_pos one)

theorem act_svnAdvance : act c d p 0x9000 3 bs =
    (c, { d with fusedSvn := leNat bs }) := by
  unfold act
  rw [if_neg (by decide)]
  rfl

theorem act_keyRevoke : act c d p 0x9000 5 bs =
    (c, { d with keyRevoked := setBit d.keyRevoked (leNat bs) }) := by
  unfold act
  rw [if_neg (by decide)]
  rfl

theorem act_flashCommand : act c d p 0x9010 3 bs =
    (c, d.flashAsk (leNat bs)) := by
  unfold act
  rw [if_neg (by decide)]
  rfl

theorem act_attestNonce : act c d p 0x9030 1 bs =
    (c, { d with attest := { d.attest with asked := some (bs, nextTurnover c) } }) := by
  unfold act
  rw [if_neg (by decide)]
  rfl

end

theorem act_logClear {bs : List Byte} (one : leNat bs = 1) (dom : Fin 11) (c : Clock) (d : Dev) (p : Path) :
    act c d p (0x7010 + dom.val) 4 bs = (c, d.clearLog dom.val) := by
  have low := dom.isLt
  unfold act
  rw [if_pos (by simp; omega), if_pos one, Nat.add_sub_cancel_left]

/-! ### CTX_COMMAND (R350) -/

theorem leNat_take_ctxBytes (ctx : BitVec 16) (op : Nat) : leNat ((ctxBytes ctx op).take 2) = ctx.toNat := by
  have taken : (ctxBytes ctx op).take 2 = natLe 2 ctx.toNat := List.take_left' (natLe_length 2 _)
  rw [taken, leNat_natLe, Nat.mod_eq_of_lt ctx.isLt]

theorem leNat_op_ctxBytes (ctx : BitVec 16) {op : Nat} (low : op < 256) : leNat (((ctxBytes ctx op).drop 2).take 1) = op := by
  have dropped : (ctxBytes ctx op).drop 2 = natLe 2 op := List.drop_left' (natLe_length 2 _)
  rw [dropped]
  simp [natLe, leNat, low]

section
variable (d : Dev) (c : Clock) (p : Path) (ctx : BitVec 16)

theorem Dev.ctxCommand_define : d.ctxCommand c p (ctxBytes ctx 1) = d.askDefine c p ctx.toNat := by
  unfold Dev.ctxCommand
  dsimp only
  rw [leNat_take_ctxBytes, leNat_op_ctxBytes ctx (by decide)]
  rfl

theorem Dev.ctxCommand_remove : d.ctxCommand c p (ctxBytes ctx 2) = d.removeCtx c ctx.toNat := by
  unfold Dev.ctxCommand
  dsimp only
  rw [leNat_take_ctxBytes, leNat_op_ctxBytes ctx (by decide)]
  rfl

theorem Dev.ctxCommand_abort : d.ctxCommand c p (ctxBytes ctx 3) = d.abortCtx c ctx.toNat := by
  unfold Dev.ctxCommand
  dsimp only
  rw [leNat_take_ctxBytes, leNat_op_ctxBytes ctx (by decide)]
  rfl

theorem Dev.ctxCommand_resume : d.ctxCommand c p (ctxBytes ctx 4) = d.resumeCtx c ctx.toNat := by
  unfold Dev.ctxCommand
  dsimp only
  rw [leNat_take_ctxBytes, leNat_op_ctxBytes ctx (by decide)]
  rfl

end

section
variable {d : Dev} {k : Nat} (here : (d.ctx k).gone = false) (notAborting : (d.ctx k).state ≠ .aborting) (notAborted : (d.ctx k).state ≠ .aborted)
include here notAborting notAborted

theorem Dev.removeCtx_asked (c : Clock) : d.removeCtx c k =
    (d.setCtx k { d.ctx k with removeAt := some (min ((d.ctx k).removeAt.getD (nextTurnover c)) (nextTurnover c)) }).setV 0x3000 3 0 0 := by
  unfold Dev.removeCtx
  dsimp only
  rw [if_neg (by simp [here, notAborting, notAborted])]

theorem Dev.abortCtx_begun (notDefined : (d.ctx k).state ≠ .defined) (notSuspended : (d.ctx k).state ≠ .suspended) (c : Clock) :
    d.abortCtx c k = (((if (d.ctx k).job.isSome then d.bump 0x80D0 9 (d.ctx k).client 1 else d).stopCtx c k).updCtx k
      fun y => { y with state := .aborting }).setV 0x3000 3 0 0 := by
  unfold Dev.abortCtx
  dsimp only
  rw [if_neg (by simp [here, notAborting, notAborted]), if_neg (by simp [notDefined, notSuspended])]

end

/-! ### BAR 2 (R371, R381) -/

theorem exec_hostBar2Read_up {s : State} (on : s.dev.life = .on) (up : s.dev.hostUp = true) (f : FunctionId) (off : BitVec 41) (n : Fin 4097)
    (ecc : List EccFinding) : exec (.hostBar2Read f off n ecc) s = .next { s with
      dev := if s.dev.hostWaits f.val off.toNat then { s.dev with slotHeld := s.dev.slotHeld ++ [.hostBar2Read f off n ecc] }
        else s.dev.hostBar2Read s.clk f.val off.toNat n.val ecc } := by
  change execHostBar2Read f off n ecc s = _
  unfold execHostBar2Read
  rw [onDev_on on, up, Bool.not_true, if_neg Bool.false_ne_true]

theorem exec_hostBar2Write_waits {s : State} (on : s.dev.life = .on) (up : s.dev.hostUp = true) {f : FunctionId} {off : BitVec 41}
    (waits : s.dev.hostWaits f.val off.toNat = true) (bs : List Byte) : exec (.hostBar2Write f off bs) s = .next { s with
      dev := { s.dev with slotHeld := s.dev.slotHeld ++ [.hostBar2Write f off bs] } } := by
  change execHostBar2Write f off bs s = _
  unfold execHostBar2Write
  rw [onBoth_on on]
  dsimp only
  rw [up, Bool.not_true, if_neg Bool.false_ne_true, if_pos waits]

theorem exec_hostBar2Write_served {s : State} (on : s.dev.life = .on) (up : s.dev.hostUp = true) {f : FunctionId} {off : BitVec 41}
    (served : s.dev.hostWaits f.val off.toNat = false) (bs : List Byte) : exec (.hostBar2Write f off bs) s = .next { s with
      clk := (hostBar2Write s.clk s.dev f.val off.toNat bs).1, dev := (hostBar2Write s.clk s.dev f.val off.toNat bs).2 } := by
  change execHostBar2Write f off bs s = _
  unfold execHostBar2Write
  rw [onBoth_on on, up, Bool.not_true, if_neg Bool.false_ne_true, served, if_neg Bool.false_ne_true]

theorem Dev.hostWaits_iff (d : Dev) (f off : Nat) : d.hostWaits f off = true ↔ d.slotOn = true ∧ d.bar2Addr f off < cisternEnd := by
  simp [Dev.hostWaits]

theorem Dev.hostWaits_none {d : Dev} (off : d.slotOn = false) (f a : Nat) : d.hostWaits f a = false := by
  simp [Dev.hostWaits, off]

/-- The MMIO region lies above the cisterns. -/
theorem mmioBlock_of_cistern {a : Nat} (low : a < cisternEnd) : mmioBlock a = none := by
  unfold cisternEnd at low
  unfold mmioBlock
  rw [if_neg (by simp; omega)]

section
variable {d : Dev} {f off : Nat}

theorem Dev.hostBar2Read_refused {n : Nat} (refused : d.hostRefused f (d.bar2Addr f off) n = true) (c : Clock) (ecc : List EccFinding) :
    d.hostBar2Read c f off n ecc = (d.bump 0x80E0 6 0 1).emit (.hostRead f (List.replicate n 0xFF#8) false) := by
  unfold Dev.hostBar2Read
  dsimp only
  rw [if_pos refused]

/-- An allowed read of primed cisterns that finds nothing amiss. -/
theorem Dev.hostBar2Read_served {n : Nat} (allowed : d.hostRefused f (d.bar2Addr f off) n = false) (within : d.bar2Addr f off + n ≤ cisternEnd)
    (low : d.bar2Addr f off < cisternEnd) (primed : ∀ i, i < n → d.primeOf (64 + d.cisternOf (d.bar2Addr f off + i)) = 1) (c : Clock) :
    d.hostBar2Read c f off n [] = d.tickFree.emit (.hostRead f ((List.range n).map fun i => d.memNow.byte (d.bar2Addr f off + i))
      (d.memNow.anyPoison (d.bar2Addr f off) n)) := by
  have bytes : ((List.range n).map fun i => d.hostByte (d.bar2Addr f off + i)) =
      (List.range n).map fun i => d.memNow.byte (d.bar2Addr f off + i) := List.map_congr_left fun i mem => by
    have inside := List.mem_range.1 mem
    rw [Dev.hostByte, if_pos (by omega), if_pos (primed i inside)]
  have fits : min n (cisternEnd - d.bar2Addr f off) = n := Nat.min_eq_left (by omega)
  unfold Dev.hostBar2Read
  dsimp only
  rw [allowed, if_neg Bool.false_ne_true, mmioBlock_of_cistern low, fits]
  exact congrArg (fun bs => d.tickFree.emit (.hostRead f bs (d.memNow.anyPoison (d.bar2Addr f off) n))) bytes

theorem hostBar2Write_refused {bs : List Byte} (refused : d.hostRefused f (d.bar2Addr f off) bs.length = true) (c : Clock) :
    hostBar2Write c d f off bs = (c, d.bump 0x80E0 6 0 1) := by
  unfold hostBar2Write
  dsimp only
  rw [if_pos refused]

theorem Dev.hostStoreByte_of_cistern (d : Dev) {a : Nat} (low : a < cisternEnd) (b : Byte) : d.hostStoreByte a b = d := by
  rw [Dev.hostStoreByte, if_pos low]

/-- An allowed write to primed cisterns. -/
theorem hostBar2Write_served {bs : List Byte} (allowed : d.hostRefused f (d.bar2Addr f off) bs.length = false) (some : bs ≠ [])
    (within : d.bar2Addr f off + bs.length ≤ cisternEnd)
    (primed : (d.cisternsOf (d.bar2Addr f off) bs.length).all (fun ci => d.primeOf (64 + ci) == 1) = true) (c : Clock) :
    hostBar2Write c d f off bs = (c, (d.memStore (d.bar2Addr f off) bs false).tickFree) := by
  have length := List.length_pos_iff.2 some
  have whole : bs.take (cisternEnd - d.bar2Addr f off) = bs := List.take_of_length_le (by omega)
  have none : ((d.cisternsOf (d.bar2Addr f off) bs.length).any fun ci => d.primeOf (64 + ci) != 1) = false := by
    simpa [List.any_eq_false] using primed
  have stored : d.hostStoreCistern (d.bar2Addr f off) bs = d.memStore (d.bar2Addr f off) bs false := by
    rw [Dev.hostStoreCistern, none, Bool.or_false, if_neg (by simpa using some)]
  have rest : ∀ e : Dev, (List.zip (List.range bs.length) bs).foldl (fun d' x => d'.hostStoreByte (d.bar2Addr f off + x.1) x.2) e = e := fun e =>
    foldl_keeps_of_mem id _ (fun d' x mem => by
      have inside := List.mem_range.1 (List.of_mem_zip mem).1
      exact d'.hostStoreByte_of_cistern (by omega) x.2) e
  unfold hostBar2Write
  dsimp only
  rw [allowed, if_neg Bool.false_ne_true, mmioBlock_of_cistern (by omega), whole, stored]
  dsimp only
  rw [rest]

end

end Sys2Proof.Machine

open Sys2Proof.Machine
namespace Sys2Proof

/-- Settles O33: the row is performed, and what it does to memory follows from whether the burst runs. -/
theorem memoryRequestsReachMemory : Obligations.MemoryRequestsReachMemory := by
  refine fun s i p h data ecc row req reached => ⟨fun op => ?_, fun op whole => ?_, fun quiet => ?_, fun burst => Dev.memStore_queued burst _ _ _⟩
  · rw [exec_performed row req, performHere_memRead req s.clk ecc op, performMemRead_open reached]
  · rw [exec_performed row req, performHere_memWrite req s.clk ecc op, performMemWrite_open reached whole]
  · rw [Dev.memStore, if_neg (by simp [quiet])]

/-- Settles O34: each entry's branch of `act`, and each operation of CTX_COMMAND. -/
theorem dictionaryActionsDoTheirWork : Obligations.DictionaryActionsDoTheirWork := by
  refine ⟨fun c d p bs => ⟨act_periodChange c d p bs, act_deviceReset c d p bs, act_domainDrain c d p bs, fun one idle => ?_,
    act_epochChange c d p bs, act_portRetrain c d p bs, fun dom one => act_logClear one dom c d p, act_lsClear c d p bs, act_seqDropsClear c d p bs,
    act_svnAdvance c d p bs, act_keyRevoke c d p bs, act_flashCommand c d p bs, act_attestNonce c d p bs⟩,
    fun c d p ctx => ⟨?_, fun here aborting aborted => ?_, fun here aborting aborted defined suspended => ?_, fun suspended => ?_,
    fun other => ?_⟩⟩
  · rw [act_routeLoad c d p bs one, Dev.loadRoutes, if_neg (by simp [idle])]
  · rw [act_ctxCommand, Dev.ctxCommand_define]
  · rw [act_ctxCommand, Dev.ctxCommand_remove, Dev.removeCtx_asked here aborting aborted]
  · rw [act_ctxCommand, Dev.ctxCommand_abort, Dev.abortCtx_begun here aborting aborted defined suspended]
  · rw [act_ctxCommand, Dev.ctxCommand_resume, Dev.resumeCtx, if_pos suspended]
  · rw [act_ctxCommand, Dev.ctxCommand_resume, Dev.resumeCtx, if_neg other]

/-- Settles O36: an access waits for the slot, is refused, or reaches memory. -/
theorem hostAccessesThroughBar2 : Obligations.HostAccessesThroughBar2 := by
  refine fun s f off on up => ⟨fun n ecc => ⟨fun slot low => ?_, fun none refused => ?_, fun none allowed within low primed => ?_⟩,
    fun bs => ⟨fun slot low => ?_, fun none refused => ?_, fun none allowed some within primed => ?_⟩⟩
  · rw [exec_hostBar2Read_up on up, if_pos ((s.dev.hostWaits_iff _ _).2 ⟨slot, low⟩)]
  · rw [exec_hostBar2Read_up on up, Dev.hostWaits_none none, if_neg Bool.false_ne_true, Dev.hostBar2Read_refused refused]
  · rw [exec_hostBar2Read_up on up, Dev.hostWaits_none none, if_neg Bool.false_ne_true, Dev.hostBar2Read_served allowed within low primed]
  · rw [exec_hostBar2Write_waits on up ((s.dev.hostWaits_iff _ _).2 ⟨slot, low⟩)]
  · rw [exec_hostBar2Write_served on up (Dev.hostWaits_none none _ _), hostBar2Write_refused refused]
  · rw [exec_hostBar2Write_served on up (Dev.hostWaits_none none _ _), hostBar2Write_served allowed some within primed]

end Sys2Proof
end

section
/-! PROOFS. Tridal and collective packets (R34, R168 to R181, R323 to R329): each row hands its packet to the unit that its type names. -/

namespace Sys2Proof.Machine

/-- Every tagged packet that comes outside the work window and the skew guard is held. -/
theorem exec_tagged_closed {s : State} {i : Instr} (on : s.dev.life = .on) (tagged : taggedRow i = true) (closed : s.clk.open = false) :
    exec i s = .next { s with dev := { s.dev with heldIn := s.dev.heldIn ++ [i] } } := by
  have held : ∀ j, onDev s (fun clk d => d.ingress clk j) = .next { s with dev := { s.dev with heldIn := s.dev.heldIn ++ [j] } } := fun j => by
    rw [onDev_on on, Dev.ingress_closed closed]
  unfold taggedRow at tagged
  split at tagged
  · exact held _
  · exact held _
  · exact held _
  · exact held _
  · exact held _
  · exact held _
  · exact held _
  · exact held _
  · exact held _
  · exact held _
  · exact held _
  · exact held _
  · exact held _
  · exact held _
  · exact held _
  · cases tagged

/-! ### Tridal messages (R168 to R181) -/

/-- The rows that bring a Tridal message, with the type that each carries. -/
def tridalRows (m : TridalIn) (x : List Nat) : List (Instr × Nat) :=
  [(.demand m x, 1), (.demandEnd m x, 2), (.grant m, 3), (.grantEnd m, 4), (.rows m, 5), (.returnRows m, 6)]

section
variable {s : State} (on : s.dev.life = .on) (taken : s.clk.open = true) {m : TridalIn} {x : List Nat}
include on taken

theorem exec_tridal {i : Instr × Nat} (row : i ∈ tridalRows m x) : exec i.1 s = .next { s with
    dev := (s.dev.tridalIn s.clk i.2 m (if i.2 ≤ 2 then x else [])).flowControl } := by
  simp only [tridalRows, List.mem_cons, List.not_mem_nil, or_false] at row
  rcases row with rfl | rfl | rfl | rfl | rfl | rfl
  · exact onDev_ingress_open on taken _
  · exact onDev_ingress_open on taken _
  · exact onDev_ingress_open on taken _
  · exact onDev_ingress_open on taken _
  · exact onDev_ingress_open on taken _
  · exact onDev_ingress_open on taken _

theorem exec_tridal_as {i : Instr × Nat} {e : Dev} (row : i ∈ tridalRows m x)
    (does : s.dev.tridalIn s.clk i.2 m (if i.2 ≤ 2 then x else []) = e) : exec i.1 s = .next { s with dev := e.flowControl } := by
  rw [exec_tridal on taken row, does]

end

section
variable {d : Dev} {m : TridalIn} {t : Nat} (c : Clock) (x : List Nat)

/-- A message of another type of the ledger's is let go by. -/
theorem Dev.tridalIn_other (other : thType m.header.toNat ≠ t) (low : 1 ≤ thType m.header.toNat) (high : thType m.header.toNat ≤ 6) :
    d.tridalIn c t m x = d := by
  unfold Dev.tridalIn Dev.tridalOther
  rw [if_pos (by simpa using other)]
  exact if_neg (by simp; omega)

/-- A reserved type is counted. -/
theorem Dev.tridalIn_reserved (low : 1 ≤ t) (high : t ≤ 6) (reserved : thType m.header.toNat = 0 ∨ 7 ≤ thType m.header.toNat) :
    d.tridalIn c t m x = d.bump 0x8060 7 0 1 := by
  unfold Dev.tridalIn Dev.tridalOther
  rw [if_pos (by simp; omega)]
  exact if_pos (by simpa using reserved)

theorem Dev.tridalIn_demand (type : thType m.header.toNat = t) (low : 1 ≤ t) (high : t ≤ 2) : d.tridalIn c t m x = d.classTwoIn c m x := by
  have which : t = 1 ∨ t = 2 := by omega
  unfold Dev.tridalIn
  rw [if_neg (by simp [type])]
  rcases which with rfl | rfl <;> rfl

theorem Dev.tridalIn_grant (type : thType m.header.toNat = t) (grant : t = 3 ∨ t = 4) : d.tridalIn c t m x = d.grantIn c m := by
  unfold Dev.tridalIn
  rw [if_neg (by simp [type])]
  rcases grant with rfl | rfl <;> rfl

theorem Dev.tridalIn_rows (type : thType m.header.toNat = t) (low : 5 ≤ t) (high : t ≤ 6) : d.tridalIn c t m x = (d.classTwoIn c m []).goOn c := by
  have which : t = 5 ∨ t = 6 := by omega
  unfold Dev.tridalIn
  rw [if_neg (by simp [type])]
  rcases which with rfl | rfl <;> rfl

/-- Nothing waits in the receive buffers, and the ingress has room for the message. -/
def Dev.ingressFree (d : Dev) (m : TridalIn) : Prop := d.tridalWait = [] ∧ d.ingressFull m = false

theorem Dev.classTwoIn_free (free : d.ingressFree m) : d.classTwoIn c m x = d.classTwoTake c m x := by
  rw [Dev.classTwoIn, free.1, free.2]
  rfl

theorem Dev.classTwoIn_waits (full : ¬d.ingressFree m) : d.classTwoIn c m x = { d with tridalWait := d.tridalWait ++ [(m, x)] } := by
  rw [Dev.classTwoIn, if_neg]
  rw [Bool.and_eq_true, List.isEmpty_iff, Bool.not_eq_true']
  exact full

theorem Dev.classTwoTake_demand (type : thType m.header.toNat < 3) : d.classTwoTake c m x = d.demandIn c m x := if_pos type

theorem Dev.classTwoTake_rows (type : 5 ≤ thType m.header.toNat) : d.classTwoTake c m x = d.rowsIn c m := if_neg (by omega)

section
variable (none : d.roundOf (thGroup m.header.toNat) (thRound m.header.toNat) = none)
include none

theorem Dev.demandIn_held : d.demandIn c m x = { d with tridalHeld := d.tridalHeld ++ [(m, x)] } := by
  rw [Dev.demandIn, none]

theorem Dev.grantIn_none : d.grantIn c m = d := by
  unfold Dev.grantIn
  dsimp only
  rw [none]

theorem Dev.rowsIn_none : d.rowsIn c m = d.bump 0x8060 7 0 1 := by
  unfold Dev.rowsIn
  dsimp only
  rw [none]

end

section
variable {k : RoundRun} (round : d.roundOf (thGroup m.header.toNat) (thRound m.header.toNat) = some k)
include round

theorem Dev.demandIn_taken : d.demandIn c m x = (d.takeDemand k m x).roundGo c k.cmd := by
  rw [Dev.demandIn, round]

/-- A grant reaches its round. -/
theorem Dev.grantIn_grant (type : thType m.header.toNat = 3) : d.grantIn c m = (d.setRound { k with
    grants := k.grants ++ (bodyEntries m 8).map fun e => (thPass m.header.toNat, thSender m.header.toNat, e) }).roundGo c k.cmd := by
  unfold Dev.grantIn
  dsimp only
  rw [round]
  dsimp only
  rw [if_pos type]

theorem Dev.grantIn_end (type : thType m.header.toNat = 4) : d.grantIn c m = (d.setRound { k with grantEnds := k.grantEnds ++
    [(thPass m.header.toNat, thSender m.header.toNat, leNat (m.body.take 4))] }).roundGo c k.cmd := by
  unfold Dev.grantIn
  dsimp only
  rw [round]
  dsimp only
  rw [if_neg (by omega)]

end

end

/-! ### Collective packets (R323 to R329) -/

/-- The rows that bring a collective packet, with the operation that each carries and what the node sees. -/
def collRows (m : CollIn) (seen : Option ArithStep) (lost : Bool) : List (Instr × Nat × CollSeen) :=
  [(.up m ⟨seen, lost⟩, 1, ⟨m, seen, lost⟩), (.down ⟨m, lost⟩, 2, ⟨m, none, lost⟩), (.poisonNotice m, 3, ⟨m, none, false⟩),
   (.confirm m, 4, ⟨m, none, false⟩), (.verdict m, 5, ⟨m, none, false⟩)]

section
variable {s : State} (on : s.dev.life = .on) (taken : s.clk.open = true) {m : CollIn} {seen : Option ArithStep} {lost : Bool}
include on taken

theorem exec_coll {i : Instr × Nat × CollSeen} (row : i ∈ collRows m seen lost) : exec i.1 s = .next { s with
    dev := (s.dev.collIn s.clk i.2.1 i.2.2).flowControl } := by
  simp only [collRows, List.mem_cons, List.not_mem_nil, or_false] at row
  rcases row with rfl | rfl | rfl | rfl | rfl
  · exact onDev_ingress_open on taken _
  · exact onDev_ingress_open on taken _
  · exact onDev_ingress_open on taken _
  · exact onDev_ingress_open on taken _
  · exact onDev_ingress_open on taken _

theorem exec_coll_as {i : Instr × Nat × CollSeen} {e : Dev} (row : i ∈ collRows m seen lost) (does : s.dev.collIn s.clk i.2.1 i.2.2 = e) :
    exec i.1 s = .next { s with dev := e.flowControl } := by
  rw [exec_coll on taken row, does]

end

theorem collRows_packet {m : CollIn} {seen : Option ArithStep} {lost : Bool} {i : Instr × Nat × CollSeen} (row : i ∈ collRows m seen lost) :
    i.2.2.m = m := by
  simp only [collRows, List.mem_cons, List.not_mem_nil, or_false] at row
  rcases row with rfl | rfl | rfl | rfl | rfl <;> rfl

section
variable {d : Dev} {op : Nat} {x : CollSeen} (c : Clock)

theorem Dev.collIn_other (other : chOp x.m.header.toNat ≠ op) (low : 1 ≤ chOp x.m.header.toNat) (high : chOp x.m.header.toNat ≤ 5) :
    d.collIn c op x = d := by
  unfold Dev.collIn
  dsimp only
  rw [if_pos (by simp [other, low, high])]

theorem Dev.collIn_counted (own : chOp x.m.header.toNat = op ∨ chOp x.m.header.toNat = 0 ∨ 5 < chOp x.m.header.toNat)
    (none : d.collSlot x.m = none) : d.collIn c op x = d.bump 0x80C0 6 0 1 := by
  unfold Dev.collIn
  dsimp only
  rw [if_neg (by simp; omega), none]

/-- The device with the payload of an UP or a DOWN packet counted. -/
def Dev.collCounted (d : Dev) (op slot : Nat) (m : CollIn) : Dev :=
  if op ≤ 2 then d.bump 0x80C0 3 (((d.group slot).map fun g => g.self.hdie).getD 0) (collPayload m.body.length) else d

theorem Dev.collIn_node {slot : Nat} (own : chOp x.m.header.toNat = op) (low : 1 ≤ op) (here : d.collSlot x.m = some slot) : d.collIn c op x =
    if c.stage != .work then { d.collCounted op slot x.m with collHeld := (d.collCounted op slot x.m).collHeld ++ [x] }
    else ((d.collCounted op slot x.m).collDeliver c slot x).startAllsums c := by
  have counted : (op = 1 || op = 2) = decide (op ≤ 2) := by
    rw [Bool.eq_iff_iff]
    simp
    omega
  unfold Dev.collIn Dev.collCounted
  dsimp only
  rw [if_neg (by simp [own]), here]
  dsimp only
  rw [counted]
  simp only [decide_eq_true_eq]

end

end Sys2Proof.Machine

open Sys2Proof.Machine
namespace Sys2Proof

/-- Settles O47: a packet is held outside the open stages; within them its row finds its round, its node or the receive buffers. -/
theorem tridalAndCollectivePacketsReachTheirUnit : Obligations.TridalAndCollectivePacketsReachTheirUnit := by
  refine ⟨fun s i => exec_tagged_closed, fun s m x on taken => ?_, fun s m seen lost on taken => ?_⟩
  · have within : ∀ i ∈ tridalRows m x, 1 ≤ i.2 ∧ i.2 ≤ 6 := by
      simp [tridalRows]
    have as := fun {i} {e} => exec_tridal_as (x := x) (m := m) (i := i) (e := e) on taken
    refine ⟨fun i row other low high => as row (Dev.tridalIn_other _ _ other low high),
      fun i row reserved => as row (Dev.tridalIn_reserved _ _ (within i row).1 (within i row).2 reserved),
      fun free none i row demand type => as row ?_, fun none i row grant type => as row ?_,
      fun k round => ⟨fun free type => ?_, fun free type => ?_, fun type => ?_, fun type => ?_⟩,
      fun free type => ?_, fun free type => ?_, fun full i row demand type => as row ?_, fun full i row late type => as row ?_,
      fun none => Dev.rowsIn_none _ none⟩
    · rw [Dev.tridalIn_demand _ _ type (within i row).1 demand, if_pos demand, Dev.classTwoIn_free _ _ free,
        Dev.classTwoTake_demand _ _ (by omega), Dev.demandIn_held _ _ none]
    · rw [Dev.tridalIn_grant _ _ type grant, Dev.grantIn_none _ none]
    · refine as (i := (.demand m x, 1)) (by simp [tridalRows]) ?_
      rw [Dev.tridalIn_demand _ _ type (by decide) (by decide), if_pos (show _ ≤ 2 by omega), Dev.classTwoIn_free _ _ free,
        Dev.classTwoTake_demand _ _ (by omega), Dev.demandIn_taken _ _ round]
    · refine as (i := (.demandEnd m x, 2)) (by simp [tridalRows]) ?_
      rw [Dev.tridalIn_demand _ _ type (by decide) (by decide), if_pos (show _ ≤ 2 by omega), Dev.classTwoIn_free _ _ free,
        Dev.classTwoTake_demand _ _ (by omega), Dev.demandIn_taken _ _ round]
    · refine as (i := (.grant m, 3)) (by simp [tridalRows]) ?_
      rw [Dev.tridalIn_grant _ _ type (.inl rfl), Dev.grantIn_grant _ round type]
    · refine as (i := (.grantEnd m, 4)) (by simp [tridalRows]) ?_
      rw [Dev.tridalIn_grant _ _ type (.inr rfl), Dev.grantIn_end _ round type]
    · refine as (i := (.rows m, 5)) (by simp [tridalRows]) ?_
      rw [Dev.tridalIn_rows _ _ type (by decide) (by decide), Dev.classTwoIn_free _ _ free, Dev.classTwoTake_rows _ _ (by omega)]
    · refine as (i := (.returnRows m, 6)) (by simp [tridalRows]) ?_
      rw [Dev.tridalIn_rows _ _ type (by decide) (by decide), Dev.classTwoIn_free _ _ free, Dev.classTwoTake_rows _ _ (by omega)]
    · rw [Dev.tridalIn_demand _ _ type (within i row).1 demand, if_pos demand, Dev.classTwoIn_waits _ _ full]
    · rw [Dev.tridalIn_rows _ _ type late (within i row).2, Dev.classTwoIn_waits _ _ full]
  · intro op took rows i row
    have packet := collRows_packet row
    have low : 1 ≤ i.2.1 := by
      have all : ∀ i ∈ collRows m seen lost, 1 ≤ i.2.1 := by simp [collRows]
      exact all i row
    refine ⟨fun other least most => ?_, fun own none => ?_, fun own slot here => ⟨fun work => ?_, fun late => ?_⟩⟩
    · exact exec_coll_as on taken row (Dev.collIn_other _ (packet ▸ other) (packet ▸ least) (packet ▸ most))
    · exact exec_coll_as on taken row (Dev.collIn_counted _ (packet ▸ own) (packet ▸ none))
    · refine exec_coll_as on taken row ((Dev.collIn_node _ (packet ▸ own) low (packet ▸ here)).trans ?_)
      rw [work, packet, ← own]
      rfl
    · refine exec_coll_as on taken row ((Dev.collIn_node _ (packet ▸ own) low (packet ▸ here)).trans ?_)
      rw [late, packet, ← own]
      rfl

end Sys2Proof
end

section
/-! PROOFS. The selection order (R146). A score's height, with every NaN below all, makes `aheadOf` a linear order on the experts of a row;
the list is then the first entries of the row sorted by it. -/

namespace Sys2Proof.Machine

/-! ### Scores as heights -/

/-- A finite value as a rational number. -/
def finVal (neg : Bool) (m : Nat) (e : Int) : ℚ := (if neg then -(m : ℚ) else m) * 2 ^ e

/-- Where a value stands: every NaN lowest, then −∞, the finite values and +∞. -/
def Fp.height : Fp → WithBot (WithBot (WithTop ℚ))
  | .nan => ⊥
  | .inf true => ((⊥ : WithBot (WithTop ℚ)) : WithBot (WithBot (WithTop ℚ)))
  | .inf false => (((⊤ : WithTop ℚ) : WithBot (WithTop ℚ)) : WithBot (WithBot (WithTop ℚ)))
  | .fin s m e => ((((finVal s m e : ℚ) : WithTop ℚ) : WithBot (WithTop ℚ)) : WithBot (WithBot (WithTop ℚ)))

/-- The significand at a lower exponent stands for the same value. -/
theorem sigAt_val (neg : Bool) (m : Nat) {e q : Int} (low : q ≤ e) : (sigAt neg m e q : ℚ) * 2 ^ q = finVal neg m e := by
  have whole : (2 : ℚ) ^ (e - q).toNat * 2 ^ q = 2 ^ e := by
    rw [← zpow_natCast, Int.toNat_of_nonneg (by omega), ← zpow_add₀ (by norm_num)]
    congr 1
    omega
  unfold sigAt finVal
  cases neg
  · simp only [Bool.false_eq_true, if_false]
    push_cast
    rw [mul_assoc, whole]
  · simp only [if_true]
    push_cast
    rw [neg_mul, neg_mul, mul_assoc, whole]

theorem sigAt_lt_iff (sa sb : Bool) (ma mb : Nat) (ea eb : Int) :
    sigAt sa ma ea (min ea eb) < sigAt sb mb eb (min ea eb) ↔ finVal sa ma ea < finVal sb mb eb := by
  rw [← sigAt_val sa ma (min_le_left ea eb), ← sigAt_val sb mb (min_le_right ea eb), mul_lt_mul_iff_left₀ (by positivity), Int.cast_lt]

theorem Fp.height_nan {x : Fp} : x.height = ⊥ ↔ x.isNan = true := by
  rcases x with _ | s | ⟨s, m, e⟩
  · exact ⟨fun _ => rfl, fun _ => rfl⟩
  · cases s <;> simp [Fp.height, Fp.isNan]
  · simp [Fp.height, Fp.isNan]

theorem Fp.lt_iff {x y : Fp} (hx : x.isNan = false) (hy : y.isNan = false) : Fp.lt x y = true ↔ x.height < y.height := by
  rcases x with _ | a | ⟨sa, ma, ea⟩
  · cases hx
  · rcases y with _ | b | ⟨sb, mb, eb⟩
    · cases hy
    · cases a
      · cases b <;> simp [Fp.lt, Fp.height]
      · cases b
        · exact iff_of_true rfl (WithBot.coe_lt_coe.2 (WithBot.bot_lt_coe _))
        · simp [Fp.lt, Fp.height]
    · cases a <;> simp [Fp.lt, Fp.height]
  · rcases y with _ | b | ⟨sb, mb, eb⟩
    · cases hy
    · cases b
      · exact iff_of_true rfl (WithBot.coe_lt_coe.2 (WithBot.coe_lt_coe.2 (WithTop.coe_lt_top _)))
      · simp [Fp.lt, Fp.height]
    · simp only [Fp.lt, decide_eq_true_eq, Fp.height, WithBot.coe_lt_coe, WithTop.coe_lt_coe]
      exact sigAt_lt_iff sa sb ma mb ea eb

/-! ### The order (R146) -/

theorem aheadOf_iff_tests (a b : Nat × Nat) : aheadOf a b = true ↔
    ((f32 a.2).isNan = false ∧ (f32 b.2).isNan = true) ∨
    ((f32 a.2).isNan = false ∧ (f32 b.2).isNan = false ∧ Fp.lt (f32 b.2) (f32 a.2) = true) ∨
    ((Fp.eq (f32 a.2) (f32 b.2) = true ∨ ((f32 a.2).isNan = true ∧ (f32 b.2).isNan = true)) ∧ a.1 < b.1) := by
  unfold aheadOf Fp.eq
  dsimp only
  cases (f32 a.2).isNan <;> cases (f32 b.2).isNan
  · cases Fp.lt (f32 b.2) (f32 a.2) <;> cases Fp.lt (f32 a.2) (f32 b.2) <;> simp
  · simp
  · simp
  · simp

/-- The higher score is ahead, and of two that stand alike the expert of the lower index. -/
theorem aheadOf_iff (a b : Nat × Nat) : aheadOf a b = true ↔
    (f32 b.2).height < (f32 a.2).height ∨ ((f32 a.2).height = (f32 b.2).height ∧ a.1 < b.1) := by
  rw [aheadOf_iff_tests]
  cases hx : (f32 a.2).isNan <;> cases hy : (f32 b.2).isNan
  · have equal : Fp.eq (f32 a.2) (f32 b.2) = true ↔ (f32 a.2).height = (f32 b.2).height := by
      rw [le_antisymm_iff (a := (f32 a.2).height), ← not_lt, ← not_lt, ← Fp.lt_iff hx hy, ← Fp.lt_iff hy hx]
      simp [Fp.eq, hx, hy, and_comm]
    simp [equal, Fp.lt_iff hy hx]
  · have low := Fp.height_nan.2 hy
    have high : (f32 a.2).height ≠ ⊥ := fun none => by simp [Fp.height_nan.1 none] at hx
    simp [low, bot_lt_iff_ne_bot.2 high]
  · have low := Fp.height_nan.2 hx
    have high : (f32 b.2).height ≠ ⊥ := fun none => by simp [Fp.height_nan.1 none] at hy
    simp [low, high.symm, Fp.eq, hx]
  · simp [Fp.height_nan.2 hx, Fp.height_nan.2 hy]

theorem aheadOf_trans {a b c : Nat × Nat} (ab : aheadOf a b = true) (bc : aheadOf b c = true) : aheadOf a c = true := by
  rw [aheadOf_iff] at *
  rcases ab with ab | ⟨ab, i⟩ <;> rcases bc with bc | ⟨bc, j⟩
  · exact .inl (bc.trans ab)
  · exact .inl (bc ▸ ab)
  · exact .inl (ab ▸ bc)
  · exact .inr ⟨ab.trans bc, i.trans j⟩

/-- Of two experts one is ahead. -/
theorem aheadOf_total {a b : Nat × Nat} (distinct : a.1 ≠ b.1) : aheadOf a b = true ∨ aheadOf b a = true := by
  rw [aheadOf_iff, aheadOf_iff]
  rcases lt_trichotomy (f32 a.2).height (f32 b.2).height with below | same | above
  · exact .inr (.inl below)
  · rcases Nat.lt_or_gt_of_ne distinct with lower | upper
    · exact .inl (.inr ⟨same, lower⟩)
    · exact .inr (.inr ⟨same.symm, upper⟩)
  · exact .inl (.inl above)

/-! ### Insertion -/

section
variable {α : Type} (ahead : α → α → Bool)

theorem insertBy_perm (x : α) (l : List α) : (insertBy ahead x l).Perm (x :: l) := by
  induction l with
  | nil => exact .refl _
  | cons y l ih =>
    unfold insertBy
    split
    · exact .refl _
    · exact (ih.cons y).trans (.swap x y l)

/-- An insertion and a cut may change places: what the cut loses is behind what it keeps. -/
theorem take_insertBy_take (x : α) (n : Nat) (l : List α) : (insertBy ahead x (l.take n)).take n = (insertBy ahead x l).take n := by
  induction l generalizing n with
  | nil => rw [List.take_nil]
  | cons y l ih =>
    cases n with
    | zero => rfl
    | succ n =>
      rw [List.take_succ_cons]
      unfold insertBy
      split
      · rw [List.take_succ_cons, List.take_succ_cons]
        refine congrArg (x :: ·) ?_
        cases n with
        | zero => rfl
        | succ n => rw [List.take_succ_cons, List.take_succ_cons, List.take_take, Nat.min_eq_left (Nat.le_succ n)]
      · rw [List.take_succ_cons, List.take_succ_cons, ih]

variable {ahead}

theorem insertBy_pairwise (trans : ∀ {a b c}, ahead a b = true → ahead b c = true → ahead a c = true) {x : α} {l : List α}
    (sorted : l.Pairwise fun a b => ahead a b = true) (comparable : ∀ y ∈ l, ahead x y = true ∨ ahead y x = true) :
    (insertBy ahead x l).Pairwise fun a b => ahead a b = true := by
  induction l with
  | nil => exact List.pairwise_singleton _ _
  | cons y l ih =>
    obtain ⟨behind, rest⟩ := List.pairwise_cons.1 sorted
    unfold insertBy
    split
    next first =>
      refine List.pairwise_cons.2 ⟨fun z mem => ?_, sorted⟩
      rcases List.mem_cons.1 mem with rfl | later
      · exact first
      · exact trans first (behind z later)
    next second =>
      have before := (comparable y List.mem_cons_self).resolve_left second
      refine List.pairwise_cons.2 ⟨fun z mem => ?_, ih rest fun z mem => comparable z (List.mem_cons_of_mem _ mem)⟩
      rcases List.mem_cons.1 ((insertBy_perm ahead x l).mem_iff.1 mem) with rfl | later
      · exact before
      · exact behind z later

end

/-! ### A row's list -/

/-- The experts of a row, with their scores. -/
def rowExperts (scores : List Nat) : List (Nat × Nat) := List.zip (List.range scores.length) scores

theorem foldl_insertBy_take {α : Type} (ahead : α → α → Bool) (n : Nat) (l acc : List α) :
    l.foldl (fun acc x => (insertBy ahead x acc).take n) (acc.take n) = (l.foldl (fun acc x => insertBy ahead x acc) acc).take n := by
  induction l generalizing acc with
  | nil => rfl
  | cons x l ih => rw [List.foldl_cons, List.foldl_cons, take_insertBy_take, ih]

theorem rankRow_eq (n : Nat) (scores : List Nat) : rankRow n scores = (sortBy aheadOf (rowExperts scores)).take n := by
  have cut := foldl_insertBy_take aheadOf n (rowExperts scores) []
  rwa [List.take_nil] at cut

theorem foldl_insertBy_perm {α : Type} (ahead : α → α → Bool) (l acc : List α) :
    (l.foldl (fun acc x => insertBy ahead x acc) acc).Perm (l ++ acc) := by
  induction l generalizing acc with
  | nil => exact .refl _
  | cons x l ih => exact (ih _).trans (((insertBy_perm ahead x acc).append_left l).trans List.perm_middle)

theorem sortBy_perm {α : Type} (ahead : α → α → Bool) (l : List α) : (sortBy ahead l).Perm l := by
  have all := foldl_insertBy_perm ahead l []
  rwa [List.append_nil] at all

/-- Experts of different indices, sorted in. -/
theorem foldl_insertBy_ahead {l acc : List (Nat × Nat)} (distinct : ((l ++ acc).map Prod.fst).Nodup)
    (sorted : acc.Pairwise fun a b => aheadOf a b = true) :
    (l.foldl (fun acc x => insertBy aheadOf x acc) acc).Pairwise fun a b => aheadOf a b = true := by
  induction l generalizing acc with
  | nil => exact sorted
  | cons x l ih =>
    have moved : ((l ++ insertBy aheadOf x acc).map Prod.fst).Perm (((x :: l) ++ acc).map Prod.fst) :=
      (((insertBy_perm aheadOf x acc).append_left l).trans List.perm_middle).map _
    refine ih (moved.nodup_iff.2 distinct) (insertBy_pairwise (ahead := aheadOf) aheadOf_trans sorted fun y mem => aheadOf_total fun same => ?_)
    rw [List.cons_append, List.map_cons, List.nodup_cons] at distinct
    exact distinct.1 (same ▸ List.mem_map_of_mem (List.mem_append_right l mem))

theorem rowExperts_fst (scores : List Nat) : (rowExperts scores).map Prod.fst = List.range scores.length :=
  List.map_fst_zip (by simp)

theorem rowExperts_length (scores : List Nat) : (rowExperts scores).length = scores.length := by
  simp [rowExperts]

theorem sortBy_ahead (scores : List Nat) : (sortBy aheadOf (rowExperts scores)).Pairwise fun a b => aheadOf a b = true :=
  foldl_insertBy_ahead (by rw [List.append_nil, rowExperts_fst]; exact List.nodup_range) List.Pairwise.nil

end Sys2Proof.Machine

open Sys2Proof.Machine
namespace Sys2Proof

/-- Settles O57: `aheadOf` is a linear order, and the list is the sorted row's first entries. -/
theorem selectionListsAreRanked : Obligations.SelectionListsAreRanked := by
  refine ⟨aheadOf_iff_tests, fun n scores => ?_⟩
  have perm := sortBy_perm aheadOf (rowExperts scores)
  have sorted := sortBy_ahead scores
  intro experts r
  have cut : r = (sortBy aheadOf (rowExperts scores)).take n := rankRow_eq n scores
  rw [← List.take_append_drop n (sortBy aheadOf (rowExperts scores)), List.pairwise_append, ← cut] at sorted
  obtain ⟨ranked, -, behind⟩ := sorted
  refine ⟨?_, fun x mem => perm.mem_iff.1 (List.mem_of_mem_take (cut ▸ mem)), ranked, fun x mem out y within => behind y within x ?_⟩
  · rw [cut, List.length_take, perm.length_eq, rowExperts_length]
  · have listed := perm.mem_iff.2 mem
    rw [← List.take_append_drop n (sortBy aheadOf (rowExperts scores)), ← cut] at listed
    exact (List.mem_append.1 listed).resolve_left out

end Sys2Proof
end

section
/-! PROOFS. SELECT, ROUND and RETURN run (R141 to R158, R166 to R180). -/

namespace Sys2Proof.Machine

/-! ### What a command's reads leave alone (R230, R406, R412) -/

theorem Dev.selects_of_unitWork {d e : Dev} (h : e.unitWork = d.unitWork) : e.selects = d.selects := congrArg UnitWork.selects h
theorem Dev.rounds_of_unitWork {d e : Dev} (h : e.unitWork = d.unitWork) : e.rounds = d.rounds := congrArg UnitWork.rounds h

section
variable {α : Type} {get : Dev → α} (wait : ∀ (d : Dev) (x : QCmd), get (d.takeWait x) = get d)
  (ecc : ∀ (d : Dev) (c : Clock) (k : Nat) (fs : List EccFinding), get (d.eccAll c (some k) fs) = get d)
  (raise : ∀ (d : Dev) (k : Nat) (st : Status) (u : UnitKind) (n : Nat), get (d.raiseUncorrected k st u n) = get d)
  (cmd : ∀ (d : Dev) (id : Nat) (f : QCmd → QCmd), get (d.updCmd id f) = get d)
include wait ecc raise cmd

/-- What neither waits, findings nor commands in force touch is as it was when a command has been read. -/
theorem Dev.readCmd_keeps (d : Dev) (c : Clock) (x : QCmd) (r : CmdRead) : get (d.readCmd c x r) = get d := by
  have found : get ((d.issuedCmd x).eccAll c (some x.ctx) r.ecc) = get d := (ecc _ _ _ _).trans ((cmd _ _ _).trans (wait _ _))
  unfold Dev.readCmd Dev.seenBy
  cases r.controlParity with
  | false => exact found
  | true => exact (cmd _ _ _).trans ((raise _ _ _ _ _).trans found)

end

theorem Dev.selects_readCmd (d : Dev) (c : Clock) (x : QCmd) (r : CmdRead) : (d.readCmd c x r).selects = d.selects :=
  Dev.readCmd_keeps (fun d x => Dev.selects_of_unitWork (d.unitWork_takeWait x))
    (fun d c k fs => Dev.selects_of_unitWork (d.unitWork_eccAll c (some k) fs))
    (fun d k st u n => Dev.selects_of_unitWork (d.unitWork_raiseUncorrected k st u n)) (fun _ _ _ => rfl) d c x r

theorem Dev.rounds_readCmd (d : Dev) (c : Clock) (x : QCmd) (r : CmdRead) : (d.readCmd c x r).rounds = d.rounds :=
  Dev.readCmd_keeps (fun d x => Dev.rounds_of_unitWork (d.unitWork_takeWait x))
    (fun d c k fs => Dev.rounds_of_unitWork (d.unitWork_eccAll c (some k) fs))
    (fun d k st u n => Dev.rounds_of_unitWork (d.unitWork_raiseUncorrected k st u n)) (fun _ _ _ => rfl) d c x r

theorem Dev.sameBut.tridalHeld_eq {d e : Dev} (h : d.sameBut e) : e.tridalHeld = d.tridalHeld := by
  obtain ⟨_, _, rfl⟩ := h
  rfl

theorem Dev.tridalHeld_takeWait (d : Dev) (x : QCmd) : (d.takeWait x).tridalHeld = d.tridalHeld := by
  unfold Dev.takeWait Dev.grantWait
  obtain ⟨_, _, _, notes⟩ := d.valveTouch_notes x.ctx (envWaitValve x.env) false
  split
  · rfl
  · simp only [Bool.false_eq_true, if_false, notes]
    split <;> rfl

theorem Dev.tridalHeld_eccAll (d : Dev) (c : Clock) (k : Nat) (fs : List EccFinding) :
    (d.eccAll c (some k) fs).tridalHeld = d.tridalHeld := by
  have count : ∀ (d : Dev) (f : EccFinding) (a : Nat), (d.eccCount f a).tridalHeld = d.tridalHeld := fun d f a => by
    unfold Dev.eccCount
    split <;> exact Dev.bump_tridalHeld _ _ _ _ _
  refine foldl_keeps Dev.tridalHeld (fun d f => ?_) fs d
  unfold Dev.eccOne
  simp only
  split
  · rfl
  · split
    · exact count _ _ _
    · exact (Dev.uncorrected_same _ k).tridalHeld_eq.trans (count d f _)

theorem Dev.tridalHeld_readCmd (d : Dev) (c : Clock) (x : QCmd) (r : CmdRead) : (d.readCmd c x r).tridalHeld = d.tridalHeld :=
  Dev.readCmd_keeps Dev.tridalHeld_takeWait Dev.tridalHeld_eccAll
    (fun d k st u n => (d.raiseUncorrected_same k st u n).tridalHeld_eq) (fun _ _ _ => rfl) d c x r

/-! ### SELECT (R141 to R158) -/

theorem exec_select_at {s : State} {q : CmdRead} {x : QCmd} (h : s.CmdAt q.q.val 2 x) (f : SelectSeen) :
    exec (.select q f) s = .next { s with dev := (s.dev.readCmd s.clk x q).enterSelect s.clk x f.disagree f.steps } := by
  have hexec : exec (.select q f) s = onDev s fun clk d => d.issueSelect clk q f.disagree f.steps := rfl
  rw [hexec, onDev_on h.on, Dev.issueSelect, Dev.issueRead_at h]

/-- A descriptor that is valid, on a usable sorter of the context's partition, is taken. -/
theorem Dev.readSelect_ok {d : Dev} {q : QCmd} {r : SelectRun} {word : Nat}
    (load : d.loadWord (whoCmd q) (envPayload q.env) 64 = .ok (some word))
    (ok : selectOk (d.layer (SelectDesc.ofWord word).layer) (SelectDesc.ofWord word) = true)
    (owner : d.clusterOwner (SelectDesc.ofWord word).sorter = some (d.ctx q.ctx).partition)
    (up : d.clusterFaulted (SelectDesc.ofWord word).sorter = false) :
    d.readSelect q r = .ok { d.setSelect { r with desc := some (SelectDesc.ofWord word) } with
      fetched := d.fetched.filter fun y => y.cmd != q.id } := by
  unfold Dev.readSelect
  simp only [load, Except.map, ok, owner, up, Bool.not_true, ne_eq, not_true, decide_false, Bool.or_self, Bool.false_eq_true, if_false]

theorem Dev.setSelect_alone {d : Dev} {r r' : SelectRun} (only : d.selects = [r]) (same : r'.cmd = r.cmd) :
    d.setSelect r' = { d with selects := [r'] } := by
  unfold Dev.setSelect
  rw [only]
  simp [same]

/-- A token's work touches no more than its stores do. -/
theorem Dev.unitWork_selectOne {d e : Dev} {c : Clock} {q : QCmd} {r : SelectRun} {x : SelectDesc} (h : d.selectOne c q r x = .ok e) :
    e.unitWork = d.unitWork := by
  have unit : ∀ n, (whoSorter r x).src ≠ .core n := fun n => nofun
  have home : ∀ slots, ({ d with slotHome := slots } : Dev).unitWork = d.unitWork := fun _ => rfl
  have flag : ∀ (d : Dev) k n, (d.flagT k n).unitWork = d.unitWork := fun _ _ _ => rfl
  have flagNum : ∀ (d : Dev) k n, (d.flagN k n).unitWork = d.unitWork := fun _ _ _ => rfl
  have bumpIf : ∀ (d : Dev) (b : Bool) i j k n, (if b then d.bump i j k n else d).unitWork = d.unitWork := fun d b i j k n => by
    cases b <;> rfl
  unfold Dev.selectOne at h
  simp only at h
  split at h
  · exact absurd h nofun
  split at h
  · obtain ⟨d1, store, rfl⟩ := ok_of_map_ok h
    have kept := (Dev.unitWork_unitStore unit store).trans (home _)
    rw [Dev.unitWork_bump]
    split
    · exact (flag _ _ _).trans kept
    · exact kept
  split at h
  · exact absurd h nofun
  split at h
  · exact absurd h nofun
  next d6 store =>
    have kept : d6.unitWork = d.unitWork := by
      refine (Dev.unitWork_unitStore unit store).trans ?_
      rw [bumpIf, bumpIf, Dev.unitWork_foldl (fun d _ => d.unitWork_residueError _ _ _ _)]
      split
      · rw [Dev.unitWork_raiseUncorrected, flagNum, flag, Dev.unitWork_bump, home]
      · rw [flagNum, flag, Dev.unitWork_bump, home]
    split at h
    · exact (Dev.unitWork_unitStore unit h).trans kept
    · exact Except.ok.inj h ▸ kept

/-- The descriptor of the SELECT `r`, which is alone, has been read. -/
def Dev.descRead (d : Dev) (r : SelectRun) : Dev := { d with selects := [r], fetched := d.fetched.filter fun z => z.cmd != r.cmd }

/-- A token of the SELECT `r`, which is alone, has been taken: what was fetched for it is dropped. -/
def Dev.tookToken (d : Dev) (r : SelectRun) : Dev :=
  { d with selects := [{ r with next := r.next + 1 }], fetched := d.fetched.filter fun z => z.cmd != r.cmd }

theorem Dev.tookToken_alone {d : Dev} {r : SelectRun} (only : d.selects = [r]) :
    ({ d.setSelect { r with next := r.next + 1 } with fetched := d.fetched.filter fun z => z.cmd != r.cmd } : Dev) = d.tookToken r := by
  rw [Dev.setSelect_alone (r' := { r with next := r.next + 1 }) only rfl]
  rfl

section
variable {d : Dev} {r : SelectRun} {q : QCmd} (only : d.selects = [r]) (cmd : d.cmd r.cmd = some q)
  (runs : q.ran = false) (goes : q.completed = false)
include only cmd runs goes

/-- A SELECT that is alone reads its descriptor first. -/
theorem Dev.selectStep_unread (unread : r.desc = none) (c : Clock) : d.selectStep c r.cmd = some (whoCmd q, d.readSelect q r) := by
  unfold Dev.selectStep Dev.selecting
  simp [only, cmd, runs, goes, unread]

/-- A SELECT that is alone and whose descriptor is valid reads it in one step. -/
theorem Dev.selectStep_reads {word : Nat} (unread : r.desc = none)
    (load : d.loadWord (whoCmd q) (envPayload q.env) 64 = .ok (some word))
    (ok : selectOk (d.layer (SelectDesc.ofWord word).layer) (SelectDesc.ofWord word) = true)
    (owner : d.clusterOwner (SelectDesc.ofWord word).sorter = some (d.ctx q.ctx).partition)
    (up : d.clusterFaulted (SelectDesc.ofWord word).sorter = false) (c : Clock) :
    d.selectStep c r.cmd = some (whoCmd q, .ok (d.descRead { r with desc := some (SelectDesc.ofWord word) })) := by
  rw [Dev.selectStep_unread only cmd runs goes unread, Dev.readSelect_ok load ok owner up,
    Dev.setSelect_alone (r' := { r with desc := some (SelectDesc.ofWord word) }) only rfl, Dev.id_of_cmd cmd]
  rfl

variable {y : SelectDesc} (read : r.desc = some y) (c : Clock)
include read

/-- Of a SELECT that is alone a step is its next token. -/
theorem Dev.selectStep_token {e : Dev} (more : r.next < y.t) (one : d.selectOne c q r y = .ok e) :
    d.selectStep c r.cmd = some (whoSorter r y, .ok (e.tookToken r)) := by
  have left : e.selects = [r] := (Dev.selects_of_unitWork (Dev.unitWork_selectOne one)).trans only
  have here : d.selectStep c r.cmd = some (whoSorter r y, (d.selectOne c q r y).map fun d =>
      { d.setSelect { r with next := r.next + 1 } with fetched := d.fetched.filter fun y => y.cmd != r.cmd }) := by
    unfold Dev.selectStep Dev.selecting Dev.sorterTaken
    simp [only, cmd, runs, goes, read, more]
  rw [here, one, ← Dev.tookToken_alone left]
  rfl

/-- Behind its last token a SELECT that is alone has done its work. -/
theorem Dev.selectStep_last (last : r.next = y.t) :
    d.selectStep c r.cmd = some (whoSorter r y, .ok (d.unitDone c (whoSorter r y))) := by
  unfold Dev.selectStep Dev.selecting Dev.sorterTaken
  simp [only, cmd, runs, goes, read, last]

end

/-- A command that has run stays so while its unit settles. -/
theorem Dev.ran_unitSettle {d : Dev} {id : Nat} {q : QCmd} (found : d.cmd id = some q) (ran : q.ran = true) :
    ∃ z, (d.unitSettle id).cmd id = some z ∧ z.ran = true := by
  have retired : (d.selectRetired id).cmd id = some q := by
    unfold Dev.selectRetired
    split <;> exact found
  unfold Dev.unitSettle
  simp only [found]
  split
  · exact ⟨_, Dev.cmd_updCmd_self (fun z => { z with issued := true, work := true }) (fun _ => rfl) retired, ran⟩
  · exact ⟨q, found, ran⟩

/-- The command of a unit that has finished has run. -/
theorem Dev.ran_unitDone {d : Dev} {w : Who} {q : QCmd} (c : Clock) (found : d.cmd w.cmd = some q) :
    ∃ z, (d.unitDone c w).cmd w.cmd = some z ∧ z.ran = true := by
  have closed : (({ d with fetched := d.fetched.filter fun x => x.cmd != w.cmd } : Dev).closeFor c w).cmd w.cmd = some q :=
    (Dev.cmd_of_unitWork (Dev.unitWork_closeFor _ c w) _).trans found
  exact Dev.ran_unitSettle (Dev.cmd_updCmd_self (fun q => { q with issued := true, ran := true }) (fun _ => rfl) closed) rfl

/-- A SELECT that has run takes no further step. -/
theorem Dev.selectStep_ran {d : Dev} {id : Nat} {q : QCmd} (found : d.cmd id = some q) (ran : q.ran = true) (c : Clock) :
    d.selectStep c id = none := by
  unfold Dev.selectStep
  split
  next r _ run cmd =>
    have own : r.cmd = id := by simpa using List.find?_some run
    have idle : d.selecting r = false := by simp [Dev.selecting, own, found, ran]
    simp [idle]
  · rfl

/-- Steps may be taken in two parts. -/
theorem Steps.append {step : Dev → Option (Who × Except Bar Dev)} {n k : Nat} {d e f : Dev} (h : Steps step n d e) (g : Steps step k e f) :
    Steps step (n + k) d f := by
  induction h with
  | rest d => rwa [Nat.zero_add]
  | more hs _ ih => rw [Nat.add_right_comm]; exact .more hs (ih g)

/-- The devices `e 0`, `e 1`, … of a SELECT that takes its tokens one after another. -/
structure TokenRun (c : Clock) (q : QCmd) (r : SelectRun) (y : SelectDesc) (e : Nat → Dev) : Prop where
  entered : (e 0).selects = [r]
  cmd : (e 0).cmd r.cmd = some q
  first : r.next = 0
  read : r.desc = some y
  runs : q.ran = false
  goes : q.completed = false
  token : ∀ t, t < y.t → ∃ d, (e t).selectOne c q { r with next := t } y = .ok d ∧
    e (t + 1) = d.tookToken { r with next := t }

section
variable {c : Clock} {q : QCmd} {r : SelectRun} {y : SelectDesc} {e : Nat → Dev} (h : TokenRun c q r y e)
include h

/-- Before every token the SELECT is still alone, and its command still at work. -/
theorem TokenRun.at {t : Nat} (le : t ≤ y.t) : (e t).selects = [{ r with next := t }] ∧ (e t).cmd r.cmd = some q := by
  induction t with
  | zero =>
    refine ⟨h.entered.trans ?_, h.cmd⟩
    rw [← h.first]
  | succ t ih =>
    obtain ⟨d, one, next⟩ := h.token t le
    rw [next]
    exact ⟨rfl, (Dev.cmd_of_unitWork (Dev.unitWork_selectOne one) _).trans (ih (Nat.le_of_succ_le le)).2⟩

/-- The tokens are steps of the SELECT's unit. -/
theorem TokenRun.steps {t : Nat} (le : t ≤ y.t) : Steps (fun d => d.selectStep c r.cmd) t (e 0) (e t) := by
  induction t with
  | zero => exact .rest _
  | succ t ih =>
    obtain ⟨d, one, next⟩ := h.token t le
    obtain ⟨only, cmd⟩ := h.at (Nat.le_of_succ_le le)
    have step := Dev.selectStep_token (r := { r with next := t }) only cmd h.runs h.goes h.read c le one
    refine (ih (Nat.le_of_succ_le le)).append (.more (f := e (t + 1)) step ?_)
    rw [next]
    exact .rest _

/-- A SELECT with its descriptor read and at most 131,072 tokens takes them all and has done its work. -/
theorem TokenRun.unitGo {d : Dev} {w : Who} (start : d.selectStep c r.cmd = some (w, .ok (e 0))) (bound : y.t ≤ 131072) :
    d.unitGo c (fun d => d.selectStep c r.cmd) = (e y.t).unitDone c (whoSorter r y) := by
  obtain ⟨only, cmd⟩ := h.at (Nat.le_refl _)
  have last := Dev.selectStep_last (r := { r with next := y.t }) only cmd h.runs h.goes h.read c rfl
  obtain ⟨z, found, ran⟩ := Dev.ran_unitDone (w := whoSorter r y) c cmd
  have steps := Steps.more start ((h.steps (Nat.le_refl _)).append (.more last (.rest _)))
  exact Dev.unitGo_steps steps (by omega) (Dev.selectStep_ran found ran c)

end

theorem selectOk_tokens {l : LayerCfg} {y : SelectDesc} (ok : selectOk l y = true) : y.t ≤ 131072 := by
  simp only [selectOk, Bool.and_eq_true, decide_eq_true_eq] at ok
  omega

theorem Dev.selectsGo_alone {d : Dev} {r : SelectRun} (only : d.selects = [r]) (c : Clock) :
    d.selectsGo c = d.unitGo c fun d => d.selectStep c r.cmd := by
  unfold Dev.selectsGo
  simp only [only, List.map_cons, List.map_nil, List.foldl_cons, List.foldl_nil]

/-- The device in which the SELECT `x`, the only one, has become eligible. -/
def Dev.selectAlone (d : Dev) (x : QCmd) (disagree : List Nat) (steps : List StepSeen) : Dev :=
  ({ d with selects := [{ cmd := x.id, ctx := x.ctx }] } : Dev).updCmd x.id fun z => { z with found := disagree, steps := steps }

theorem Dev.selects_selectAlone (d : Dev) (x : QCmd) (disagree : List Nat) (steps : List StepSeen) :
    (d.selectAlone x disagree steps).selects = [{ cmd := x.id, ctx := x.ctx }] := rfl

theorem Dev.cmd_selectAlone {d : Dev} {x z : QCmd} (disagree : List Nat) (steps : List StepSeen) (cmd : d.cmd x.id = some z) :
    (d.selectAlone x disagree steps).cmd x.id = some { z with found := disagree, steps := steps } :=
  Dev.cmd_updCmd_self (d := { d with selects := [{ cmd := x.id, ctx := x.ctx }] }) (fun z => { z with found := disagree, steps := steps })
    (fun _ => rfl) cmd

/-- A SELECT that becomes eligible alone goes on by itself. -/
theorem Dev.enterSelect_alone {d : Dev} (c : Clock) (x : QCmd) (disagree : List Nat) (steps : List StepSeen) (empty : d.selects = []) :
    d.enterSelect c x disagree steps = (d.selectAlone x disagree steps).unitGo c fun d => d.selectStep c x.id := by
  have entered : d.enterSelect c x disagree steps = (d.selectAlone x disagree steps).selectsGo c := by
    unfold Dev.enterSelect
    rw [empty]
    rfl
  rw [entered, Dev.selectsGo_alone (Dev.selects_selectAlone d x disagree steps)]

/-! ### ROUND (R166 to R171) -/

theorem exec_round_at {s : State} {q : CmdRead} {x : QCmd} (h : s.CmdAt q.q.val 3 x) (seen : List StepSeen) :
    exec (.round ⟨q, seen⟩) s = .next { s with
      dev := (((s.dev.readCmd s.clk x q).updCmd x.id fun y => { y with steps := seen }).runRound s.clk x).ingressDrain s.clk } := by
  have hexec : exec (.round ⟨q, seen⟩) s = onDev s fun clk d => d.issueRound clk q seen := rfl
  rw [hexec, onDev_on h.on, Dev.issueRound, Dev.issueRead_at h]

/-- A ROUND that has no round yet has none when it has been read. -/
theorem State.noRound_readCmd (s : State) (q : CmdRead) (x : QCmd) (seen : List StepSeen) (new : ∀ r ∈ s.dev.rounds, r.cmd ≠ x.id) :
    ∀ r ∈ ((s.dev.readCmd s.clk x q).updCmd x.id fun y => { y with steps := seen }).rounds, r.cmd ≠ x.id := by
  rwa [Dev.updCmd_rounds, Dev.rounds_readCmd]

/-- A ROUND that has not opened opens and goes on. -/
theorem Dev.runRound_opens {d e : Dev} (c : Clock) {q : QCmd} (new : ∀ r ∈ d.rounds, r.cmd ≠ q.id) (opened : d.openRound q = .ok e) :
    d.runRound c q = e.roundGo c q.id := by
  have absent : (d.rounds.any fun r => decide (r.cmd = q.id)) = false := by simpa using new
  unfold Dev.runRound
  rw [absent, if_neg Bool.false_ne_true, Dev.unitPart_ok opened]

/-- A round for which nothing is held opens empty. -/
theorem Dev.openRound_formed {d : Dev} {q : QCmd} {r : RoundRun} (formed : d.formRound (whoCmd q) q = .ok (some r))
    (quiet : d.tridalHeld = []) :
    d.openRound q = .ok { d with
      rounds := d.rounds ++ [r], roundsOpened := d.roundsOpened ++ [(r.desc.groupId, r.desc.roundId)]
      fetched := d.fetched.filter fun y => y.cmd != q.id } := by
  unfold Dev.openRound
  simp only [formed, quiet, List.filter_nil, List.foldl_nil]

/-! ### RETURN (R180) -/

theorem exec_return_at {s : State} {q : CmdRead} {x : QCmd} (h : s.CmdAt q.q.val 4 x) :
    exec (.return_ q) s = .next { s with dev := (s.dev.readCmd s.clk x q).runReturn s.clk x } := by
  have hexec : exec (.return_ q) s = onDev s fun clk d => d.issueRead clk q 4 fun d x => d.runReturn clk x := rfl
  rw [hexec, onDev_on h.on, Dev.issueRead_at h]

section
variable {d : Dev} {q : QCmd} {r : RoundRun} {e : Expert}
  (round : d.roundOf (fld (envPayload q.env) 177 162) (fld (envPayload q.env) 185 178) = some r) (own : r.ctx = q.ctx)
  (expert : (r.experts.find? fun e => e.e = fld (envPayload q.env) 201 186) = some e)
include round own expert

/-- An expert that another command has claimed is refused. -/
theorem Dev.returnOf_claimed {id : Nat} (claimed : e.returned = some id) (other : id ≠ q.id) : d.returnOf q = none := by
  unfold Dev.returnOf
  simp [round, own, expert, claimed, other]

theorem Dev.returnOf_free (free : e.returned = none) (reserved : fld (envPayload q.env) 255 202 = 0)
    (zeros : fld (envPayload q.env) 137 48 = 0) (passes : passCount r.layer ≤ r.lpass) (aligned : fld (envPayload q.env) 161 138 % 64 = 0) :
    d.returnOf q = some (r, e) := by
  unfold Dev.returnOf
  simp [Option.filter, round, own, expert, free, reserved, zeros, aligned, Nat.not_lt.2 passes]

end

end Sys2Proof.Machine

open Sys2Proof.Machine
namespace Sys2Proof

/-- Settles O26: a lone SELECT's tokens are steps of its unit, each of which leaves the units' work as it was (`Dev.unitWork`); a
ROUND opens in one part of work; a RETURN is refused exactly where another command holds its expert. -/
theorem selectsRoundsAndReturnsRun : Obligations.SelectsRoundsAndReturnsRun := by
  refine ⟨fun s q x disagree seen word e hs cmd runs goes empty load ok owner up start token => ?_,
    fun s q x seen hs new => ⟨fun d1 opened => ?_, fun r formed quiet => ?_⟩,
    fun s q x r e hs round own expert reserved zeros passes aligned => ⟨fun id claimed other => ?_, fun rs free records => ?_⟩⟩
  · have found := Dev.cmd_selectAlone disagree seen (Dev.cmd_readCmd s.clk q cmd)
    have first := Dev.selectStep_reads (Dev.selects_selectAlone _ x disagree seen) found runs goes rfl load ok owner up s.clk
    have tokens : TokenRun s.clk { x with issued := true, spoiled := x.spoiled || q.controlParity, found := disagree, steps := seen }
        { cmd := x.id, ctx := x.ctx, desc := some (SelectDesc.ofWord word) } (SelectDesc.ofWord word) e :=
      { entered := congrArg Dev.selects start, cmd := (congrArg (fun d => d.cmd x.id) start).trans found, first := rfl, read := rfl,
        runs := runs, goes := goes, token := token }
    rw [exec_select_at hs, Dev.enterSelect_alone _ _ _ _ ((s.dev.selects_readCmd s.clk x q).trans empty)]
    exact congrArg (fun d => Host.Outcome.next { s with dev := d })
      (tokens.unitGo (first.trans (congrArg (fun d => some (whoCmd x, Except.ok d)) start.symm)) (selectOk_tokens ok))
  · rw [exec_round_at hs, Dev.runRound_opens s.clk (State.noRound_readCmd s q x seen new) opened]
  · have held := (s.dev.tridalHeld_readCmd s.clk x q).trans quiet
    rw [exec_round_at hs, Dev.runRound_opens s.clk (State.noRound_readCmd s q x seen new) (Dev.openRound_formed formed held)]
  · rw [exec_return_at hs, Dev.runReturn, Dev.returnOf_claimed round own expert claimed other]
  · rw [exec_return_at hs]
    unfold Dev.runReturn
    rw [Dev.returnOf_free round own expert free reserved zeros passes aligned]
    refine congrArg (fun d => Host.Outcome.next { s with dev := d }) (Dev.unitRun_ok ?_)
    rw [records]
    rfl

end Sys2Proof
end
